-- ==== Sys2Proof/Word.lean ====
section
/-!
DEFINITION. The word types of the block and their plainest arithmetic: bytes, 32-bit and 64-bit register words,
4 KiB blocks, and the reading and writing of a bit range [hi:lo] (notation table 0-3).
-/
namespace Sys2Proof

/-- One byte. -/
abbrev Byte := BitVec 8
/-- A 32-bit register word (R3). -/
abbrev Word := BitVec 32
/-- A 64-bit register value, or a 64-bit address or sequence. -/
abbrev DWord := BitVec 64
/-- One 4 KiB block of fragment data: byte `i` is bits [8i+7:8i]. -/
abbrev Block := BitVec 32768

/-- The bit range [hi:lo] of a number, inclusive (table 0-3). -/
def bitsOf (v hi lo : Nat) : Nat := (v >>> lo) % 2 ^ (hi + 1 - lo)

/-- `v` with its bit range [hi:lo] replaced by `x` (its low bits), every other bit kept. -/
def setBits (v hi lo x : Nat) : Nat :=
  v - (bitsOf v hi lo) * 2 ^ lo + (x % 2 ^ (hi + 1 - lo)) * 2 ^ lo

/-- The bit range [hi:lo] of a 64-bit value. -/
def DWord.bits (v : DWord) (hi lo : Nat) : Nat := bitsOf v.toNat hi lo

/-- A 64-bit value with bit range [hi:lo] set to `x`. -/
def DWord.withBits (v : DWord) (hi lo x : Nat) : DWord := BitVec.ofNat 64 (setBits v.toNat hi lo x)

/-- Little-endian bytes of a number, `n` of them. -/
def leBytes : Nat → Nat → List Byte
  | 0, _ => []
  | n + 1, v => BitVec.ofNat 8 v :: leBytes n (v / 256)

/-- The number that little-endian bytes spell. -/
def leNat : List Byte → Nat
  | [] => 0
  | b :: bs => b.toNat + 256 * leNat bs

/-- Bytes `off … off + n - 1` of a byte list, as a little-endian number (bytes past the end read as absent). -/
def leAt (bs : List Byte) (off n : Nat) : Nat := leNat ((bs.drop off).take n)

/-- `a` divided by `b`, rounded up (`b` not 0). -/
def ceilDiv (a b : Nat) : Nat := (a + b - 1) / b

end Sys2Proof
end

