-- ==== Sys2Proof/Machine/Galois.lean ====
section
/-!
DEFINITION. The erasure codes of the CV-2048: the two finite fields (R61, R62), the generator matrices of RS8, RS16 and
LRC8 (R64 to R70), MIRROR (R71), the elimination that decides rank and decode coefficients (R77 to R81), the fragment
selection orders (R83 to R87, R792), and CRC-32C.
-/
namespace Sys2Proof.Machine

/-- The code families of table 2-1, numbered as table 3-6 numbers them. -/
inductive Family | rs8 | rs16 | lrc8 | mirror
deriving DecidableEq, Repr

/-- The parameters of one pool's code (table 2-1). -/
structure Code where
  family : Family
  k : Nat
  m : Nat
  g : Nat
  r : Nat
  c : Nat
deriving DecidableEq, Repr

/-- Bits of one symbol: a byte for RS8, LRC8 and MIRROR (R57), a halfword for RS16 (R58). -/
def Family.symBits : Family → Nat
  | .rs16 => 16
  | _ => 8

/-- The field's reduction polynomial (R61, R62). -/
def polyOf (w : Nat) : Nat := if w = 16 then 0x1100B else 0x11D

/-- The multiplication loop of chapter 2 (`fuel` rounds, one for each bit of `b`). -/
def gfMulLoop (w : Nat) : Nat → Nat → Nat → Nat → Nat
  | 0, _, _, p => p
  | n + 1, a, b, p =>
    let p' := if b % 2 = 1 then p ^^^ a else p
    let a2 := a * 2
    let a' := if a2.testBit w then a2 ^^^ polyOf w else a2
    gfMulLoop w n a' (b / 2) p'

/-- Multiplication in GF(2^w) (R61, R62). -/
def gfMul (w a b : Nat) : Nat := gfMulLoop w w a b 0

/-- The power loop of the inverse. -/
def gfPowLoop (w : Nat) : Nat → Nat → Nat → Nat → Nat
  | 0, _, _, acc => acc
  | n + 1, a, e, acc =>
    gfPowLoop w n (gfMul w a a) (e / 2) (if e % 2 = 1 then gfMul w acc a else acc)

/-- The inverse of a non-zero element: its power 2^w − 2. -/
def gfInv (w a : Nat) : Nat := gfPowLoop w w a (2 ^ w - 2) 1

/-- Division by a non-zero element (R63). -/
def gfDiv (w a b : Nat) : Nat := gfMul w a (gfInv w b)

/-- Entry of the normalised Cauchy matrix with `x_i = i` and `y_j = y0 + j` (R64, R65): `y_j / (i xor y_j)`. -/
def cauchyEntry (w y0 i j : Nat) : Nat := gfDiv w (y0 + j) (i ^^^ (y0 + j))

/-- The stripe width W: k + m, k + g + r, or c. -/
def Code.width (c : Code) : Nat :=
  match c.family with
  | .rs8 | .rs16 => c.k + c.m
  | .lrc8 => c.k + c.g + c.r
  | .mirror => c.c

/-- The `n` outputs that an encode computes (R46); none under MIRROR, which needs no field arithmetic (R71). -/
def Code.parities (c : Code) : Nat :=
  match c.family with
  | .rs8 | .rs16 => c.m
  | .lrc8 => c.g + c.r
  | .mirror => 0

/-- First data index of local group `h` (R67). -/
def Code.groupStart (c : Code) (h : Nat) : Nat := h * (c.k / c.g) + min h (c.k % c.g)

/-- Size of local group `h` (R67). -/
def Code.groupSize (c : Code) (h : Nat) : Nat := c.k / c.g + (if h < c.k % c.g then 1 else 0)

/-- The data indices of local group `h`. -/
def Code.groupData (c : Code) (h : Nat) : List Nat :=
  (List.range (c.groupSize h)).map (c.groupStart h + ·)

/-- The local group that holds data fragment `j`. -/
def Code.groupOf (c : Code) (j : Nat) : Nat :=
  ((List.range c.g).find? fun h => decide (c.groupStart h ≤ j ∧ j < c.groupStart h + c.groupSize h)).getD 0

/-- Row `f` of the generator G (R66, section LRC8, R71): `k` coefficients. -/
def Code.genRow (c : Code) (f : Nat) : List Nat :=
  if f < c.k then (List.range c.k).map fun j => if j = f then 1 else 0
  else match c.family with
    | .rs8 => (List.range c.k).map (cauchyEntry 8 c.m (f - c.k))
    | .rs16 => (List.range c.k).map (cauchyEntry 16 c.m (f - c.k))
    | .lrc8 =>
      if f < c.k + c.g then
        (List.range c.k).map fun j => if c.groupOf j = f - c.k then 1 else 0
      else (List.range c.k).map (cauchyEntry 8 (c.r + 1) (f - c.k - c.g + 1))
    | .mirror => [1]

/-- Symbol `s` of a block. -/
def symAt (w : Nat) (b : Block) (s : Nat) : Nat := (b.toNat >>> (w * s)) % 2 ^ w

/-- The block whose symbols are listed, first symbol first (R57, R58: little-endian). -/
def blockOfSyms (w : Nat) (xs : List Nat) : Block :=
  BitVec.ofNat 32768 (xs.foldr (fun x acc => x % 2 ^ w + 2 ^ w * acc) 0)

/-- Every symbol of a block multiplied by one coefficient. -/
def scaleBlock (w coef : Nat) (b : Block) : Block :=
  if coef = 0 then 0#32768
  else if coef = 1 then b
  else blockOfSyms w ((List.range (32768 / w)).map fun s => gfMul w coef (symAt w b s))

/-- The sum of blocks, each multiplied by its coefficient (R59: symbol by symbol). -/
def linComb (w : Nat) (coefs : List Nat) (bs : List Block) : Block :=
  (coefs.zip bs).foldl (fun acc cb => acc ^^^ scaleBlock w cb.1 cb.2) 0#32768

/-- The block at redundancy index `f`, from the stripe's `k` data blocks of the same offset (R71, R73, R74). -/
def Code.encodeBlock (c : Code) (f : Nat) (data : List Block) : Block :=
  linComb c.family.symBits (c.genRow f) data

/-- The delta update of redundancy block `f` for one changed data block (R75). -/
def Code.deltaBlock (c : Code) (f j : Nat) (old new parity : Block) : Block :=
  parity ^^^ scaleBlock c.family.symBits ((c.genRow f).getD j 0) (old ^^^ new)

/-! ### Elimination (R80, R81) -/

/-- One reduced row: its leading column, the row scaled to 1 there, and how it combines the rows put in. -/
structure BasisRow where
  lead : Nat
  row : List Nat
  combo : List Nat
deriving DecidableEq, Repr

/-- `a` plus `c` times `b`, entry by entry. -/
def addScaled (w c : Nat) (a b : List Nat) : List Nat :=
  (a.zip b).map fun ab => ab.1 ^^^ gfMul w c ab.2

/-- A row and its combination reduced by every row of a basis, in order. -/
def reduceBy (w : Nat) (basis : List BasisRow) (row combo : List Nat) : List Nat × List Nat :=
  basis.foldl (fun rc b =>
    let c := rc.1.getD b.lead 0
    (addScaled w c rc.1 b.row, addScaled w c rc.2 b.combo)) (row, combo)

/-- First column where a row is not zero. -/
def leadOf (row : List Nat) : Option Nat := row.findIdx? (· ≠ 0)

/-- The basis with one more row, or none where the row does not raise the rank. -/
def addRow (w : Nat) (basis : List BasisRow) (row combo : List Nat) : Option (List BasisRow) :=
  let (r, c) := reduceBy w basis row combo
  match leadOf r with
  | none => none
  | some l =>
    let inv := gfInv w (r.getD l 0)
    some (basis ++ [⟨l, r.map (gfMul w inv), c.map (gfMul w inv)⟩])

/-- The basis of a list of rows; row `i` enters with the unit combination `e_i` of length `n`. -/
def basisOf (w n : Nat) (rows : List (List Nat)) : List BasisRow :=
  (rows.zipIdx).foldl (fun b ri =>
    (addRow w b ri.1 ((List.range n).map fun i => if i = ri.2 then 1 else 0)).getD b) []

/-- The rank of a list of rows. -/
def rankOf (w : Nat) (rows : List (List Nat)) : Nat := (basisOf w rows.length rows).length

/-- Coefficients that express `target` by `rows`, where it lies in their span (R78, R79). -/
def express (w : Nat) (rows : List (List Nat)) (target : List Nat) : Option (List Nat) :=
  let (r, c) := reduceBy w (basisOf w rows.length rows) target (rows.map fun _ => 0)
  if r.all (· = 0) then some c else none

/-! ### Fragment selection (R83 to R87, R792) -/

/-- What a decode reads and computes: the fragments to read, and each fragment it reconstructs with its coefficients
over the fragments read, in the order of `reads`. -/
structure DecodePlan where
  reads : List Nat
  outs : List (Nat × List Nat)
deriving DecidableEq, Repr

/-- Adds each candidate whose row raises the rank, until rank `k` (R83, R86). -/
def selectRows (c : Code) (w : Nat) (chosen : List Nat) (cands : List Nat) : List Nat × Nat :=
  let start := basisOf w c.width (chosen.map c.genRow)
  let res := cands.foldl (fun (acc : List Nat × List BasisRow) f =>
    if acc.2.length ≥ c.k then acc
    else match addRow w acc.2 (c.genRow f) ((List.range c.width).map fun _ => 0) with
      | some b => (acc.1 ++ [f], b)
      | none => acc) (([] : List Nat), start)
  (res.1, res.2.length)

/-- The target set of an LRC8 decode of the fragments `recon` (R792). -/
def Code.targetSet (c : Code) (avail : Nat → Bool) (recon : List Nat) : List Nat :=
  let lost := (List.range c.k).filter fun j => !avail j
  lost.filter fun j =>
    recon.any fun f =>
      (f == j) || (decide (c.k ≤ f ∧ f < c.k + c.g) && c.groupOf j == f - c.k) || decide (c.k + c.g ≤ f)

/-- A lost data fragment that its own group repairs (R84): the only lost one of its group, with the local parity there. -/
def Code.locallyRepairable (c : Code) (avail : Nat → Bool) (j : Nat) : Bool :=
  let h := c.groupOf j
  avail (c.k + h) && (c.groupData h).all fun i => i == j || avail i

/-- The fragments an LRC8 decode of `recon` reads (R84 to R87), or none where the stripe is unrecoverable for it. -/
def Code.lrcReads (c : Code) (avail : Nat → Bool) (recon : List Nat) : Option (List Nat) :=
  let targets := c.targetSet avail recon
  let repaired := targets.filter (c.locallyRepairable avail)
  let localReads := repaired.flatMap fun j =>
    ((c.groupData (c.groupOf j)).filter (· ≠ j)) ++ [c.k + c.groupOf j]
  let rest := targets.filter fun j => !(c.locallyRepairable avail j)
  let parityData := (recon.filter fun f => decide (c.k ≤ f ∧ f < c.k + c.g)).flatMap fun f =>
    (c.groupData (f - c.k)).filter avail
  let globalData := if recon.any fun f => decide (c.k + c.g ≤ f) then (List.range c.k).filter avail else []
  let more :=
    if rest.isEmpty then some []
    else
      let cands := (List.range c.width).filter fun f => avail f && !recon.contains f
      let (sel, rank) := selectRows c 8 repaired cands
      if rank < c.k then none else some sel
  more.map fun sel => (localReads ++ sel ++ parityData ++ globalData).eraseDups

/-- The fragments a decode of `recon` reads (R83, R84 to R88), or none where the rank of what is available is below k (R81).
`mirrorPick` is the copy R88 chooses. -/
def Code.decodeReads (c : Code) (avail : Nat → Bool) (mirrorPick : Option Nat) (recon : List Nat) : Option (List Nat) :=
  match c.family with
  | .rs8 | .rs16 =>
    let sel := (((List.range c.width).filter fun f => avail f && !recon.contains f)).take c.k
    if sel.length < c.k then none else some sel
  | .lrc8 => c.lrcReads avail recon
  | .mirror => mirrorPick.map fun f => [f]

/-- The plan of a decode: what it reads and the coefficients of every output (R77 to R80). -/
def Code.decodePlan (c : Code) (avail : Nat → Bool) (mirrorPick : Option Nat) (recon : List Nat) : Option DecodePlan :=
  match c.decodeReads avail mirrorPick recon with
  | none => none
  | some reads =>
    let rows := reads.map c.genRow
    some ⟨reads, recon.filterMap fun f => (express c.family.symBits rows (c.genRow f)).map fun cs => (f, cs)⟩

/-- Whether the available fragments of a stripe determine its data (R81). -/
def Code.recoverable (c : Code) (avail : Nat → Bool) : Bool :=
  match c.family with
  | .mirror => (List.range c.c).any avail
  | f => decide (c.k ≤ rankOf f.symBits (((List.range c.width).filter avail).map c.genRow))

/-! ### CRC-32C -/

/-- One bit of the reflected CRC-32C division. -/
def crcBit (c : Nat) : Nat := if c % 2 = 1 then (c / 2) ^^^ 0x82F63B78 else c / 2

/-- One byte into the CRC register. -/
def crcByte (c : Nat) (b : Byte) : Nat :=
  crcBit (crcBit (crcBit (crcBit (crcBit (crcBit (crcBit (crcBit (c ^^^ b.toNat))))))))

/-- CRC-32C (Castagnoli) of a byte list. -/
def crc32c (bs : List Byte) : Nat := (bs.foldl crcByte 0xFFFFFFFF) ^^^ 0xFFFFFFFF

/-- The bytes of a block, byte 0 first. -/
def blockBytes (b : Block) : List Byte := leBytes 4096 b.toNat

/-- The block that 4,096 bytes spell. -/
def blockOfBytes (bs : List Byte) : Block := BitVec.ofNat 32768 (leNat bs)

/-! ### Guards of protection information (table 7-5) -/

/-- One bit of the CRC-16 division, high bit first; polynomial 0x8BB7. -/
def guard16Bit (c : Nat) : Nat := if 0x8000 ≤ c then (2 * c % 2 ^ 16) ^^^ 0x8BB7 else 2 * c

/-- One byte into the CRC-16 register. -/
def guard16Byte (c : Nat) (b : Byte) : Nat :=
  guard16Bit (guard16Bit (guard16Bit (guard16Bit (guard16Bit (guard16Bit (guard16Bit (guard16Bit (c ^^^ (b.toNat * 256)))))))))

/-- CRC-16 of a byte list. -/
def crc16 (bs : List Byte) : Nat := bs.foldl guard16Byte 0

/-- One bit of the reflected CRC-64 division; the polynomial 0xAD93D23594C93659 with its bits reversed. -/
def guard64Bit (c : Nat) : Nat := if c % 2 = 1 then (c / 2) ^^^ 0x9A6C9329AC4BC9B5 else c / 2

/-- One byte into the CRC-64 register. -/
def guard64Byte (c : Nat) (b : Byte) : Nat :=
  guard64Bit (guard64Bit (guard64Bit (guard64Bit (guard64Bit (guard64Bit (guard64Bit (guard64Bit (c ^^^ b.toNat))))))))

/-- CRC-64 of a byte list. -/
def crc64 (bs : List Byte) : Nat := (bs.foldl guard64Byte 0xFFFFFFFFFFFFFFFF) ^^^ 0xFFFFFFFFFFFFFFFF

/-- The 16-bit guard of a block's plaintext: PRESUMED, the CRC-16 of NVM Command Set 1.1 (log entry 72). -/
def guard16 (b : Block) : Nat := crc16 (blockBytes b)

/-- The 64-bit guard of a block's plaintext: PRESUMED, the CRC-64 of NVM Command Set 1.1 (log entry 72). -/
def guard64 (b : Block) : Nat := crc64 (blockBytes b)

end Sys2Proof.Machine
end

