-- ==== Sys2Proof/Machine/Armature.lean ====
section
/-!
DEFINITION. The armature: the image's layout (R99 to R113), the layout it describes as a structure, its validation in
three phases (R114, R115, R793 to R796, table 3-9), and the arithmetic placement of fragments (R118 to R120).
-/
namespace Sys2Proof.Machine

/-! ### The layout an image describes -/

/-- A MEMBERS entry (table 3-5). -/
structure ArmMember where
  group : Nat
  link : Nat
  hops : Nat
  ports : List Nat
  nsid : Nat
  nguid : BitVec 128
  capacity : Nat
  enclosure : Nat
  shelf : Nat
  path : Nat
  tagSect : Bool
  rot : Bool
deriving DecidableEq, Repr

/-- An EXTENTS entry (table 3-7). -/
structure Extent where
  member : Nat
  dataSlots : Nat
  base : Nat
  spareSlots : Nat
deriving DecidableEq, Repr

/-- A POOLS entry that is not vacant, with its extents, placement rows, spare rule and binding (tables 3-6 to 3-8, R109). -/
structure PoolCfg where
  code : Code
  fragLog2 : Nat
  plinth : Bool
  groups : Nat
  stripes : Nat
  extents : List Extent
  rows : List (List Nat)
  spareLevel : Nat
  maxPerDomain : Nat
  reclaim : Bool
  spareFraction : Nat
  primary : Nat
  clusters : BitVec 32
deriving DecidableEq, Repr

/-- A NAMESPACES entry (R111). -/
structure ArmNs where
  nsid : Nat
  pool : Nat
  first : Nat
  count : Nat
deriving DecidableEq, Repr

/-- A committed or staged armature: the image and what it describes. -/
structure Armature where
  epoch : Nat
  identity : BitVec 128
  excCapacity : Nat
  members : List ArmMember
  pools : List (Option PoolCfg)
  routes : List (Nat × Nat)
  namespaces : List ArmNs
  modes : List Nat
  image : List Byte
deriving DecidableEq, Repr

/-- The pool of a number, where it is in the table and not vacant. -/
def Armature.pool (a : Armature) (p : Nat) : Option PoolCfg := (a.pools[p]?).getD none

/-- Numbers of the pools that are not vacant. -/
def Armature.poolNums (a : Armature) : List Nat :=
  (List.range a.pools.length).filter fun p => (a.pool p).isSome

/-- The plinth pool's number. -/
def Armature.plinthPool (a : Armature) : Option Nat :=
  a.poolNums.find? fun p => match a.pool p with | some c => c.plinth | none => false

/-- The namespace of an NSID. -/
def Armature.ns (a : Armature) (nsid : Nat) : Option ArmNs := a.namespaces.find? (·.nsid = nsid)

/-- Blocks of one fragment: F ÷ 4096. -/
def PoolCfg.fragBlocks (p : PoolCfg) : Nat := 2 ^ (p.fragLog2 - 12)

/-- Blocks of one stripe's data: k × F ÷ 4096 (R112). -/
def PoolCfg.stripeBlocks (p : PoolCfg) : Nat := p.code.k * p.fragBlocks

/-- The extent of a member in a pool. -/
def PoolCfg.extent (p : PoolCfg) (m : Nat) : Option Extent := p.extents.find? (·.member = m)

/-! ### Placement arithmetic (R118 to R120) -/

/-- How many of the rows hold a member. -/
def rowCount (rows : List (List Nat)) (m : Nat) : Nat := (rows.filter (·.contains m)).length

/-- Where arithmetic placement puts a fragment: member, row position and slot (function place of chapter 3). -/
structure Placed where
  member : Nat
  pos : Nat
  slot : Nat
deriving DecidableEq, Repr

/-- The placement group of a stripe (R118). -/
def PoolCfg.group (p : PoolCfg) (s : Nat) : Nat := s % p.groups

/-- The row position of fragment `f` of stripe `s` (R118). -/
def PoolCfg.position (p : PoolCfg) (s f : Nat) : Nat := (f + (s / p.groups) % p.code.width) % p.code.width

/-- Arithmetic placement (R118, R119). -/
def PoolCfg.place (p : PoolCfg) (s f : Nat) : Placed :=
  let q := p.group s
  let pos := p.position s f
  let m := ((p.rows.getD q []).getD pos 0)
  let u := rowCount p.rows m
  let o := rowCount (p.rows.take q) m
  ⟨m, pos, (s / p.groups) * u + o⟩

/-- The fragment index that stands at a row position for stripe `s`. -/
def PoolCfg.fragAt (p : PoolCfg) (s pos : Nat) : Nat :=
  (pos + p.code.width - (s / p.groups) % p.code.width) % p.code.width

/-- Data block `i` of a slot, as a block of the extent (R119). -/
def PoolCfg.blockOf (p : PoolCfg) (slot i : Nat) : Nat := slot * p.fragBlocks + i

/-- Data blocks an extent occupies (R106). -/
def PoolCfg.extentBlocks (p : PoolCfg) (e : Extent) : Nat := (e.dataSlots + e.spareSlots) * p.fragBlocks

/-- LBAs an extent of `b` data blocks spans: with tag-sector mode one tag block follows every 255 data blocks (R106). -/
def spanLbas (tagSect : Bool) (b : Nat) : Nat := if tagSect then b + ceilDiv b 255 else b

/-- Where namespace LBA `l` lies: stripe, data fragment and block row within the fragment (R112, R54). -/
def ArmNs.locate (n : ArmNs) (p : PoolCfg) (l : Nat) : Nat × Nat × Nat :=
  let sb := p.stripeBlocks
  let off := l % sb
  (n.first + l / sb, off / p.fragBlocks, off % p.fragBlocks)

/-- Capacity of a namespace in LBAs (R112). -/
def ArmNs.capacity (n : ArmNs) (p : PoolCfg) : Nat := n.count * p.stripeBlocks

/-- 64-byte records one placement row takes (R121). -/
def rowSegments (width : Nat) : Nat := ceilDiv width 24

/-- Bytes of one epoch's resolved rows (R117). -/
def Armature.rowBytes (a : Armature) : Nat :=
  (a.poolNums.map fun p => match a.pool p with
    | some c => c.groups * rowSegments c.code.width * 64
    | none => 0).foldl (· + ·) 0

/-- The plinth's stripe counts A and X (R116): armature slot and exception checkpoint area. -/
def plinthA (fragLog2 : Nat) : Nat := 0x04000000 / 2 ^ fragLog2
/-- Stripes of one exception checkpoint area (R116). -/
def plinthX (fragLog2 excCap : Nat) : Nat := ceilDiv (excCap * 16) (2 ^ fragLog2)
/-- Stripes of the journal checkpoint area J (R235). -/
def plinthJ (fragLog2 : Nat) : Nat := 2 * ceilDiv 131072 (2 ^ fragLog2)
/-- The plinth's required size in stripes (R116). -/
def plinthRequired (fragLog2 excCap : Nat) : Nat :=
  1 + 2 * plinthA fragLog2 + 2 * plinthX fragLog2 excCap + plinthJ fragLog2

/-! ### Reading the image -/

/-- One section header with its offset (table 3-3). -/
structure Sec where
  off : Nat
  typ : Nat
  ver : Nat
  qual : Nat
  len : Nat
  count : Nat
  esize : Nat
deriving DecidableEq, Repr

/-- The section header at an offset. -/
def secAt (img : List Byte) (o : Nat) : Sec :=
  let h := img.drop o
  ⟨o, leAt h 0 2, leAt h 2 1, leAt h 3 1, leAt h 4 4, leAt h 8 4, leAt h 12 4⟩

/-- Whether a section type is known, and whether it is per pool (table 3-4). -/
def secPerPool (typ : Nat) : Bool := typ == 3 || typ == 4

/-- Key order of sections (R102). -/
def Sec.key (s : Sec) : Nat := s.typ * 256 + s.qual

/-- Offset of entry `i`. -/
def Sec.entryOff (s : Sec) (i : Nat) : Nat := s.off + 16 + i * s.esize

/-- Offsets of all entries. -/
def Sec.entries (s : Sec) : List Nat := (List.range s.count).map s.entryOff

/-- The length R101 gives a section of this count and entry size. -/
def Sec.ruleLen (s : Sec) : Nat := ceilDiv (16 + s.count * s.esize) 8 * 8

/-- A failed check: its code and where it is reported (R796). -/
structure ArmErr where
  code : Nat
  offset : Nat
  sect : Nat
  qual : Nat
deriving DecidableEq, Repr

/-- The first check of a list that fails. -/
def firstErr : List (Bool × ArmErr) → Option ArmErr
  | [] => none
  | (b, e) :: rest => if b then some e else firstErr rest

/-- What validation knows beside the image (R115: the active epoch, the member states, the exceptions). -/
structure ValCtx where
  srcLen : Nat
  active : Option Armature
  /-- members in state FAILED -/
  failed : List Nat
  /-- members in state RETIRED -/
  retired : List Nat
  /-- members in state ABSENT -/
  absent : List Nat
  /-- valid exceptions: pool and target member -/
  excs : List (Nat × Nat)
  /-- bifurcation modes the option bytes allow, two 4-bit sets: (group, mode) -/
  allowed : List (Nat × Nat)
  metaMiB : Nat
  /-- bytes of resolved rows of every live epoch -/
  liveRowBytes : Nat
  /-- positions in the fill list: pool, group, position -/
  fills : List (Nat × Nat × Nat)
deriving DecidableEq, Repr

/-- Codes of the header phase are reported at offset 0, SECTION 0, QUALIFIER 0xFF (R796). -/
def headErr (code : Nat) : ArmErr := ⟨code, 0, 0, 0xFF⟩

/-- The epoch that follows an active epoch (R147); with none active any epoch but 0. -/
def epochFollows (active : Option Armature) (e : Nat) : Bool :=
  e != 0 && (match active with
    | none => true
    | some a => e == (if a.epoch = 0xFFFFFFFF then 1 else a.epoch + 1))

/-- The header phase: codes 0x0101 to 0x0108 in code order (R793). -/
def headerErr (cx : ValCtx) (img : List Byte) : Option ArmErr :=
  let h := img.take 64
  let ilen := leAt h 0x0C 4
  let ident := leAt h 0x18 16
  let zeroed := (img.take 0x3C) ++ [0, 0, 0, 0] ++ img.drop 0x40
  firstErr [
    (leAt h 0 4 != 0x314D5241, headErr 0x0101),
    (leAt h 4 2 != 0x0100, headErr 0x0102),
    (leAt h 6 2 != 64, headErr 0x0103),
    (decide (ilen < 64 ∨ 0x04000000 < ilen ∨ ilen % 8 ≠ 0 ∨ ilen ≠ cx.srcLen), headErr 0x0104),
    (leAt h 0x3C 4 != crc32c zeroed, headErr 0x0105),
    (!epochFollows cx.active (leAt h 8 4), headErr 0x0106),
    (ident == 0 || (match cx.active with
      | some a => ident != a.identity.toNat | none => false), headErr 0x0107),
    (leAt h 0x14 4 != 0 || leAt h 0x34 8 != 0, headErr 0x0108)]

/-! ### Raw pool entries, for the structure phase -/

/-- Offset of the raw POOLS entry of pool `p` among the sections walked, where there is one (R794). -/
def rawPool (secs : List Sec) (tableSize p : Nat) : Option Nat :=
  match secs.find? (·.typ = 2) with
  | some s => if p < s.count ∧ p < tableSize then some (s.entryOff p) else none
  | none => none

/-- Whether a raw pool entry carries the VACANT flag. -/
def rawVacant (img : List Byte) (o : Nat) : Bool := (leAt img (o + 9) 1).testBit 1

/-- The family of a raw pool entry, where it is at most 3. -/
def familyOf (n : Nat) : Option Family :=
  if n = 0 then some .rs8 else if n = 1 then some .rs16
  else if n = 2 then some .lrc8 else if n = 3 then some .mirror else none

/-- The code of a raw pool entry. -/
def rawCode (img : List Byte) (o : Nat) : Option Code :=
  let e := img.drop o
  (familyOf (leAt e 1 1)).map fun f => ⟨f, leAt e 2 2, leAt e 4 1, leAt e 5 1, leAt e 6 1, leAt e 7 1⟩

/-- Numbers of raw pools that are not vacant. -/
def rawPools (img : List Byte) (secs : List Sec) (tableSize : Nat) : List Nat :=
  (List.range tableSize).filter fun p => match rawPool secs tableSize p with
    | some o => !rawVacant img o | none => false

/-- Entry size table 3-4 fixes; none where it is not checked (a PLACEMENT section of an unknown family, R794). -/
def secEntrySize (img : List Byte) (secs : List Sec) (tableSize : Nat) (s : Sec) : Option Nat :=
  match s.typ with
  | 1 | 2 => some 64
  | 3 => some 24
  | 4 => match rawPool secs tableSize s.qual with
    | some o => (rawCode img o).map fun c => ceilDiv (2 * c.width) 8 * 8
    | none => none
  | 5 => some 16
  | 6 => some 8
  | 7 => some 4
  | 8 => some 32
  | 9 => some 4
  | _ => none

/-- Whether an entry count is what table 3-4 requires. -/
def secCountOk (img : List Byte) (secs : List Sec) (n tableSize : Nat) (s : Sec) : Bool :=
  match s.typ with
  | 1 => s.count == n
  | 2 => s.count == tableSize
  | 3 => match rawPool secs tableSize s.qual with
    | some o => s.count == leAt img (o + 0xA) 2 | none => false
  | 4 => match rawPool secs tableSize s.qual with
    | some o => s.count == leAt img (o + 0xC) 4 | none => false
  | 5 | 6 => s.count == (rawPools img secs tableSize).length
  | 7 => decide (s.count ≤ 1024)
  | 8 => decide (s.count ≤ 512)
  | 9 => s.count == 6
  | _ => false

/-- Reserved byte ranges of an entry (offset, size), with the reserved bits of flag bytes as (offset, mask):
the reserved entries of tables 3-5 to 3-8 and of R109 to R113. Reserved bits of a flag byte count as a reserved byte (log entry 127, DESIGN
CHOICE). -/
def secReserved (typ : Nat) : List (Nat × Nat) × List (Nat × Nat) :=
  match typ with
  | 1 => ([(5, 3), (0x30, 16)], [(0x2E, 0xFC), (0x2F, 0xFF)])
  | 2 => ([(0x18, 40)], [(9, 0xFC)])
  | 3 => ([(2, 2), (0x14, 4)], [])
  | 5 => ([(6, 10)], [(3, 0xFE)])
  | 6 => ([(2, 2)], [])
  | 7 => ([(3, 1)], [])
  | 8 => ([(5, 3), (0x18, 8)], [])
  | 9 => ([(2, 2)], [])
  | _ => ([], [])

/-- Whether the entry at an offset has a reserved byte or bit that is not zero. -/
def entryReservedBad (img : List Byte) (typ o : Nat) : Bool :=
  let e := img.drop o
  (secReserved typ).1.any (fun r => leAt e r.1 r.2 != 0) ||
  (secReserved typ).2.any (fun r => (leAt e r.1 1) &&& r.2 != 0)

/-- A structure failure at a section's header. -/
def Sec.err (s : Sec) (code : Nat) : ArmErr := ⟨code, s.off, s.typ % 256, s.qual⟩
/-- A failure at an offset inside a section. -/
def Sec.errAt (s : Sec) (code off : Nat) : ArmErr := ⟨code, off, s.typ % 256, s.qual⟩

/-- The checks the structure phase applies to one section, in the order of R794. -/
def secErr (img : List Byte) (prev : List Sec) (n tableSize : Nat) (s : Sec) : Option ArmErr :=
  let dup := prev.any fun q => q.key == s.key
  let padOff := s.off + 16 + s.count * s.esize
  let padBad := (List.range (s.off + s.len - padOff)).find? fun i => leAt img (padOff + i) 1 != 0
  let badEntry := s.entries.find? (entryReservedBad img s.typ)
  let secs := prev ++ [s]
  firstErr [
    (s.len != s.ruleLen || decide (img.length < s.off + s.len), s.err 0x0201),
    (s.typ == 0 || decide (9 < s.typ) || s.ver != 1, s.err 0x0202),
    ((prev.getLast?.any fun q => decide (s.key < q.key)) || (!secPerPool s.typ && s.qual != 0xFF), s.err 0x0206),
    (dup || (secPerPool s.typ && (match rawPool secs tableSize s.qual with
      | some o => rawVacant img o | none => true)), s.err 0x0203),
    ((match secEntrySize img secs tableSize s with | some z => s.esize != z | none => false)
      || !secCountOk img secs n tableSize s, s.err 0x0205),
    (badEntry.isSome, s.errAt 0x0207 (badEntry.getD 0)),
    (padBad.isSome, s.errAt 0x0207 (padOff + padBad.getD 0))]

/-- The walk of the structure phase: `fuel` section headers from offset `o` (R794). Bytes of a header that lie beyond the image are reported as
0 (log entry 124, DESIGN CHOICE). -/
def walkSecs (img : List Byte) (n tableSize : Nat) : Nat → Nat → List Sec → Except ArmErr (List Sec × Nat)
  | 0, o, acc => .ok (acc, o)
  | fuel + 1, o, acc =>
    let s := secAt img o
    if img.length < o + 16 then .error (s.err 0x0201)
    else match secErr img acc n tableSize s with
      | some e => .error e
      | none => walkSecs img n tableSize fuel (o + s.len) (acc ++ [s])

/-- The sections an image must have, in ascending order (R102): (type, qualifier). -/
def requiredSecs (pools : List Nat) : List (Nat × Nat) :=
  [(1, 0xFF), (2, 0xFF)] ++ pools.map (fun p => (3, p)) ++ pools.map (fun p => (4, p)) ++
  [(5, 0xFF), (6, 0xFF), (7, 0xFF), (8, 0xFF), (9, 0xFF)]

/-- The structure phase (R794): the sections, or the first failure. -/
def structurePhase (img : List Byte) : Except ArmErr (List Sec) :=
  let count := leAt img 0x10 4
  let n := leAt img 0x28 4
  let tableSize := leAt img 0x2C 4
  match walkSecs img n tableSize (min count img.length) 64 [] with
  | .error e => .error e
  | .ok (secs, o) =>
    if o ≠ img.length ∨ secs.length ≠ count then .error ⟨0x0201, o, 0, 0xFF⟩
    else
      let req := requiredSecs (rawPools img secs tableSize)
      match req.find? fun tq => !secs.any fun s => s.typ == tq.1 && s.qual == tq.2 with
      | some tq =>
        let at_ := match secs.find? fun s => decide (tq.1 * 256 + tq.2 < s.key) with
          | some s => s.off | none => img.length
        .error ⟨0x0204, at_, tq.1, tq.2⟩
      | none => .ok secs

/-! ### Decoding the sections -/

/-- A MEMBERS entry from its bytes. -/
def memberAt (img : List Byte) (o : Nat) : ArmMember :=
  let e := img.drop o
  { group := leAt e 2 1, link := leAt e 3 1, hops := leAt e 4 1,
    ports := (List.range 4).map fun i => leAt e (8 + i) 1,
    nsid := leAt e 0xC 4, nguid := BitVec.ofNat 128 (leAt e 0x10 16), capacity := leAt e 0x20 8,
    enclosure := leAt e 0x28 2, shelf := leAt e 0x2A 2, path := leAt e 0x2C 2,
    tagSect := (leAt e 0x2E 1).testBit 0, rot := (leAt e 0x2E 1).testBit 1 }

/-- An EXTENTS entry from its bytes. -/
def extentAt (img : List Byte) (o : Nat) : Extent :=
  let e := img.drop o
  ⟨leAt e 0 2, leAt e 4 4, leAt e 8 8, leAt e 0x10 4⟩

/-- A PLACEMENT row of width `w` from its bytes. -/
def rowAt (img : List Byte) (w o : Nat) : List Nat :=
  let e := img.drop o
  (List.range w).map fun i => leAt e (2 * i) 2

/-- The section of a type and qualifier. -/
def secOf (secs : List Sec) (t q : Nat) : Option Sec := secs.find? fun s => s.typ == t && s.qual == q

/-- Entry offsets of the section of a type and qualifier. -/
def entriesOf (secs : List Sec) (t q : Nat) : List Nat := match secOf secs t q with
  | some s => s.entries | none => []

/-- One pool from its sections. -/
def poolAt (img : List Byte) (secs : List Sec) (p o : Nat) : Option PoolCfg :=
  if rawVacant img o then none
  else match rawCode img o with
    | none => none
    | some code =>
      let spare := (entriesOf secs 5 0xFF).find? fun so => leAt img so 1 == p
      let bind := (entriesOf secs 6 0xFF).find? fun so => leAt img so 1 == p
      some { code := code, fragLog2 := leAt img (o + 8) 1, plinth := (leAt img (o + 9) 1).testBit 0,
             groups := leAt img (o + 0xC) 4, stripes := leAt img (o + 0x10) 8,
             extents := (entriesOf secs 3 p).map (extentAt img),
             rows := (entriesOf secs 4 p).map (rowAt img code.width),
             spareLevel := match spare with | some so => leAt img (so + 1) 1 | none => 0,
             maxPerDomain := match spare with | some so => leAt img (so + 2) 1 | none => 0,
             reclaim := match spare with | some so => (leAt img (so + 3) 1).testBit 0 | none => false,
             spareFraction := match spare with | some so => leAt img (so + 4) 2 | none => 0,
             primary := match bind with | some so => leAt img (so + 1) 1 | none => 0,
             clusters := match bind with | some so => BitVec.ofNat 32 (leAt img (so + 4) 4) | none => 0 }

/-- The layout that the sections of an image describe. -/
def decodeArmature (img : List Byte) (secs : List Sec) : Armature :=
  { epoch := leAt img 8 4, identity := BitVec.ofNat 128 (leAt img 0x18 16), excCapacity := leAt img 0x30 4,
    members := (entriesOf secs 1 0xFF).map (memberAt img),
    pools := ((entriesOf secs 2 0xFF).zipIdx).map fun op => poolAt img secs op.2 op.1,
    routes := (entriesOf secs 7 0xFF).map fun o => (leAt img o 2, leAt img (o + 2) 1),
    namespaces := (entriesOf secs 8 0xFF).map fun o =>
      ⟨leAt img o 4, leAt img (o + 4) 1, leAt img (o + 8) 8, leAt img (o + 0x10) 8⟩,
    modes := (List.range 6).map fun g =>
      match (entriesOf secs 9 0xFF).find? fun o => leAt img o 1 == g with
      | some o => leAt img (o + 1) 1 | none => 0,
    image := img }

/-! ### The contents phase (R795, table 3-9) -/

/-- Whether a code's parameters are inside table 2-1, with every unused field zero (0x0403). -/
def Code.valid (c : Code) : Bool :=
  match c.family with
  | .rs8 => decide (2 ≤ c.k ∧ c.k ≤ 255 ∧ 1 ≤ c.m ∧ c.m ≤ 16 ∧ c.k + c.m ≤ 256 ∧ c.g = 0 ∧ c.r = 0 ∧ c.c = 0)
  | .rs16 => decide (2 ≤ c.k ∧ c.k ≤ 1023 ∧ 1 ≤ c.m ∧ c.m ≤ 16 ∧ c.k + c.m ≤ 1024 ∧ c.g = 0 ∧ c.r = 0 ∧ c.c = 0)
  | .lrc8 => decide (2 ≤ c.k ∧ c.k ≤ 253 ∧ 1 ≤ c.g ∧ c.g ≤ 16 ∧ c.g ≤ c.k / 2 ∧ 1 ≤ c.r ∧ c.r ≤ 8 ∧
      c.k + c.g + c.r ≤ 256 ∧ c.m = 0 ∧ c.c = 0)
  | .mirror => decide (c.k = 1 ∧ 2 ≤ c.c ∧ c.c ≤ 6 ∧ c.m = 0 ∧ c.g = 0 ∧ c.r = 0)

/-- The largest max-per-domain a spare rule may give (0x0701). -/
def Code.domainBound (c : Code) : Nat :=
  match c.family with
  | .rs8 | .rs16 => c.m
  | .lrc8 => c.r + 1
  | .mirror => c.c - 1

/-- The failure domain of a member at a spare rule's level (table 3-8). -/
def ArmMember.domain (m : ArmMember) (level : Nat) : Nat :=
  if level = 1 then m.path else if level = 2 then m.shelf else m.enclosure

/-- How many members of a list share a domain with member `m` at a level. -/
def domainCount (ms : List ArmMember) (level : Nat) (row : List Nat) (m : Nat) : Nat :=
  match ms[m]? with
  | none => 0
  | some a => (row.filter fun x => match ms[x]? with
      | some b => b.domain level == a.domain level | none => false).length

/-- Whether a list of members keeps a domain rule (R108). -/
def domainOk (ms : List ArmMember) (level bound : Nat) (row : List Nat) : Bool :=
  level == 0 || decide (3 < level) || row.all fun m => decide (domainCount ms level row m ≤ bound)

/-- MEMBERS checks of one entry. Of two entries that conflict the later one fails, here and in the other checks of a pair (log entry 128, DESIGN
CHOICE). -/
def memberErrs (cx : ValCtx) (a : Armature) (img : List Byte) (secs : List Sec) (s : Sec) (i o : Nat) :
    List (Bool × ArmErr) :=
  let m := memberAt img o
  let bifs := (entriesOf secs 9 0xFF).filter fun b => leAt img b 1 == m.group
  let linkBad := match bifs with
    | [b] => let mode := leAt img (b + 1) 1; decide (mode ≤ 3) && decide (2 ^ mode ≤ m.link)
    | _ => false
  let portBad := (m.ports.zipIdx).any fun pi =>
    if pi.2 < m.hops then pi.1 == 0xFF else pi.1 != 0xFF
  let earlier := a.members.take i
  [(leAt img o 2 != i, s.errAt 0x0302 o),
   (decide (5 < m.group) || linkBad || decide (4 < m.hops) || portBad, s.errAt 0x0303 o),
   (earlier.any (fun q => (q.nguid == m.nguid && q.nsid == m.nsid) ||
      (q.group == m.group && q.link == m.link && q.ports == m.ports && q.nsid == m.nsid)), s.errAt 0x0304 o),
   (m.capacity == 0, s.errAt 0x0305 o),
   (match cx.active with
      | some act => (match act.members[i]? with
        | some q => q != m && !cx.retired.contains i | none => false)
      | none => false, s.errAt 0x0306 o)]

/-- POOLS checks of one entry. -/
def poolErrs (cx : ValCtx) (a : Armature) (img : List Byte) (s : Sec) (i o : Nat) : List (Bool × ArmErr) :=
  let e := img.drop o
  let vac := rawVacant img o
  let vacBad := vac && (leAt e 1 8 != 0 || leAt e 9 1 != 2 || leAt e 10 54 != 0)
  let code := rawCode img o
  let fl := leAt e 8 1
  let g := leAt e 0xC 4
  let st := leAt e 0x10 8
  let act := match cx.active with | some x => x.pool i | none => none
  let new := a.pool i
  let hasNs := a.namespaces.any (·.pool = i)
  [((!vac && decide (3 < leAt e 1 1)) || leAt e 0 1 != i || vacBad, s.errAt 0x0402 o),
   (!vac && !(match code with | some c => c.valid | none => true), s.errAt 0x0403 o),
   (!vac && decide (fl < 14 ∨ 20 < fl), s.errAt 0x0404 o),
   (!vac && decide (g < 1 ∨ 1048576 < g ∨ st < 1 ∨ 2 ^ 40 < st ∨ st % g ≠ 0), s.errAt 0x0405 o),
   (match act, new with
      | some q, some n => q.code != n.code || q.fragLog2 != n.fragLog2 || q.groups != n.groups ||
          q.stripes != n.stripes || q.plinth != n.plinth
      | _, _ => false, s.errAt 0x0407 o),
   (act.isSome && vac && (hasNs || cx.excs.any (·.1 = i)), s.errAt 0x0408 o)]

/-- The PLINTH rule (0x0406), after the last POOLS entry. -/
def plinthErr (a : Armature) : Bool :=
  let pl := a.poolNums.filter fun p => match a.pool p with | some c => c.plinth | none => false
  match pl with
  | [p] => match a.pool p with
    | some c => c.code.family != .mirror || decide (c.code.c < 3) ||
        decide (c.stripes < plinthRequired c.fragLog2 a.excCapacity)
    | none => true
  | _ => true

/-- LBA span of an extent. -/
def spanOf (a : Armature) (c : PoolCfg) (e : Extent) : Nat :=
  spanLbas (match a.members[e.member]? with | some m => m.tagSect | none => false) (c.extentBlocks e)

/-- EXTENTS checks of one entry of pool `p`. -/
def extentErrs (cx : ValCtx) (a : Armature) (s : Sec) (p : Nat) (c : PoolCfg) (i : Nat) (e : Extent) (o : Nat) :
    List (Bool × ArmErr) :=
  let u := rowCount c.rows e.member
  let n := a.members.length
  let cap := match a.members[e.member]? with | some m => m.capacity | none => 0
  let overlap := a.poolNums.any fun p' => decide (p' < p) && (match a.pool p' with
    | some c' => c'.extents.any fun e' => e'.member == e.member &&
        decide (e'.base < e.base + spanOf a c e) && decide (e.base < e'.base + spanOf a c' e')
    | none => false)
  let act := match cx.active with | some x => (match x.pool p with
      | some q => q.extent e.member | none => none) | none => none
  [(decide (n ≤ e.member) || (c.extents.take i).any (·.member = e.member), s.errAt 0x0601 o),
   (decide (u = 0 ∨ e.dataSlots ≠ (c.stripes / c.groups) * u), s.errAt 0x0602 o),
   (decide (e.spareSlots < ceilDiv (e.dataSlots * c.spareFraction) 1024), s.errAt 0x0603 o),
   (decide (e.base < 16 ∨ cap < e.base + spanOf a c e), s.errAt 0x0604 o),
   (overlap, s.errAt 0x0605 o),
   (match act with | some q => q != e | none => false, s.errAt 0x0606 o)]

/-- Extents of the active epoch that the image removes while an exception targets them (0x0606). -/
def extentRemoved (cx : ValCtx) (c : PoolCfg) (p : Nat) : Bool :=
  match cx.active with
  | none => false
  | some act => match act.pool p with
    | none => false
    | some q => q.extents.any fun e => (c.extent e.member).isNone && cx.excs.any fun x => x.1 == p && x.2 == e.member

/-- PLACEMENT checks of one row. -/
def rowErrs (cx : ValCtx) (a : Armature) (img : List Byte) (s : Sec) (p : Nat) (c : PoolCfg) (q o : Nat) :
    List (Bool × ArmErr) :=
  let row := c.rows.getD q []
  let w := c.code.width
  let pad := (List.range (s.esize - 2 * w)).any fun i => leAt img (o + 2 * w + i) 1 != 0xFF
  let act := match cx.active with | some x => x.pool p | none => none
  let moved := match act with
    | none => false
    | some ac => ((ac.rows.getD q []).zip row).any fun mm =>
        mm.1 != mm.2 && !(cx.failed.contains mm.1 || cx.retired.contains mm.1)
  [(row.any fun m => decide (a.members.length ≤ m) || (c.extent m).isNone, s.errAt 0x0501 o),
   (row.eraseDups.length != row.length, s.errAt 0x0502 o),
   (pad, s.errAt 0x0503 o),
   (!domainOk a.members c.spareLevel c.maxPerDomain row, s.errAt 0x0504 o),
   (moved, s.errAt 0x0505 o)]

/-- SPARE checks of one entry. -/
def spareErrs (a : Armature) (img : List Byte) (s : Sec) (i o : Nat) : List (Bool × ArmErr) :=
  let p := leAt img o 1
  let dup := (s.entries.take i).any fun o' => leAt img o' 1 == p
  let bound := match a.pool p with | some c => c.code.domainBound | none => 255
  let mx := leAt img (o + 2) 1
  [(dup || decide (3 < leAt img (o + 1) 1) || mx == 0 || decide (bound < mx) || decide (512 < leAt img (o + 4) 2),
    s.errAt 0x0701 o)]

/-- BINDINGS checks of one entry. -/
def bindErrs (img : List Byte) (s : Sec) (i o : Nat) : List (Bool × ArmErr) :=
  let p := leAt img o 1
  let dup := (s.entries.take i).any fun o' => leAt img o' 1 == p
  let pr := leAt img (o + 1) 1
  [(dup || decide (31 < pr) || !(leAt img (o + 4) 4).testBit pr, s.errAt 0x0801 o)]

/-- QUEUE_ROUTES checks of one entry. -/
def routeErrs (img : List Byte) (s : Sec) (i o : Nat) : List (Bool × ArmErr) :=
  let q := leAt img o 2
  let c := leAt img (o + 2) 1
  [(decide (1023 < q) || ((s.entries.take i).any fun o' => leAt img o' 2 == q) || (decide (31 < c) && c != 0xFF),
    s.errAt 0x0802 o)]

/-- NAMESPACES checks of one entry. -/
def nsErrs (cx : ValCtx) (a : Armature) (s : Sec) (i o : Nat) : List (Bool × ArmErr) :=
  match a.namespaces[i]? with
  | none => []
  | some n =>
    let earlier := a.namespaces.take i
    let poolBad := match a.pool n.pool with | some c => c.plinth || decide (c.stripes < n.first + n.count) | none => true
    let act := match cx.active with | some x => x.ns n.nsid | none => none
    [(decide (n.nsid = 0 ∨ 512 < n.nsid) || earlier.any (·.nsid = n.nsid) || poolBad || n.count == 0 ||
        earlier.any (fun q => q.pool == n.pool && decide (q.first < n.first + n.count ∧ n.first < q.first + q.count)),
      s.errAt 0x0901 o),
     (match act with | some q => q.pool != n.pool || q.first != n.first || decide (n.count < q.count) | none => false,
      s.errAt 0x0902 o)]

/-- BIFURCATION checks of one entry. -/
def bifErrs (cx : ValCtx) (img : List Byte) (s : Sec) (i o : Nat) : List (Bool × ArmErr) :=
  let g := leAt img o 1
  let mode := leAt img (o + 1) 1
  let dup := (s.entries.take i).any fun o' => leAt img o' 1 == g
  let changes := match cx.active with
    | none => false
    | some act => act.modes.getD g 0 != mode && (act.members.zipIdx).any fun mi =>
        mi.1.group == g && !(cx.absent.contains mi.2 || cx.retired.contains mi.2)
  [(decide (5 < g) || dup || decide (3 < mode) || !cx.allowed.contains (g, mode), s.errAt 0x0A01 o),
   (changes, s.errAt 0x0A02 o)]

/-- Positions of existing pools that an image gives another member (R138): what its commit would enter in the fill list. -/
def newPositions (active : Option Armature) (a : Armature) : List (Nat × Nat × Nat) :=
  match active with
  | none => []
  | some act => act.poolNums.flatMap fun p =>
    match act.pool p, a.pool p with
    | some q, some c => ((q.rows.zip c.rows).zipIdx).flatMap fun rr =>
        (((rr.1.1.zip rr.1.2).zipIdx).filter fun mm => mm.1.1 != mm.1.2).map fun mm => (p, rr.2, mm.2)
    | _, _ => []

/-- Total spare slots of an armature. -/
def Armature.spareTotal (a : Armature) : Nat :=
  (a.poolNums.flatMap fun p => match a.pool p with
    | some c => c.extents.map (·.spareSlots) | none => []).foldl (· + ·) 0

/-- The header codes judged last: 0x0B01 (R117) and 0x0B02 (R797). -/
def tailErrs (cx : ValCtx) (a : Armature) : List (Bool × ArmErr) :=
  let excCap := max a.excCapacity (match cx.active with | some x => x.excCapacity | none => 0)
  let fills := (newPositions cx.active a).filter fun f => !cx.fills.contains f
  [(decide (a.excCapacity < cx.excs.length ∨ a.excCapacity < a.spareTotal) ||
      decide (cx.metaMiB * 1048576 < cx.liveRowBytes + a.rowBytes + excCap * 32), headErr 0x0B01),
   (decide (4194304 < fills.length + cx.fills.length), headErr 0x0B02)]

/-- A missing entry for a pool that is not vacant (0x0701, 0x0801), after the last entry. -/
def entryMissing (a : Armature) (img : List Byte) (s : Sec) : Bool :=
  a.poolNums.any fun p => !s.entries.any fun o => leAt img o 1 == p

/-- Every check of one section's contents, in order (R795). -/
def contentsOf (cx : ValCtx) (a : Armature) (img : List Byte) (secs : List Sec) (s : Sec) : List (Bool × ArmErr) :=
  let es := (s.entries).zipIdx
  match s.typ with
  | 1 =>
    (decide (a.members.length < 1 ∨ 2048 < a.members.length) ||
      (match cx.active with | some x => decide (a.members.length < x.members.length) | none => false), headErr 0x0301) ::
    es.flatMap fun oi => memberErrs cx a img secs s oi.2 oi.1
  | 2 =>
    (decide (a.pools.length < 1 ∨ 64 < a.pools.length) ||
      (match cx.active with | some x => decide (a.pools.length < x.pools.length) | none => false), headErr 0x0401) ::
    (es.flatMap fun oi => poolErrs cx a img s oi.2 oi.1) ++ [(plinthErr a, s.err 0x0406)]
  | 3 => match a.pool s.qual with
    | none => []
    | some c => (es.flatMap fun oi => extentErrs cx a s s.qual c oi.2 (extentAt img oi.1) oi.1) ++
        [(extentRemoved cx c s.qual, s.err 0x0606)]
  | 4 => match a.pool s.qual with
    | none => []
    | some c => es.flatMap fun oi => rowErrs cx a img s s.qual c oi.2 oi.1
  | 5 => (es.flatMap fun oi => spareErrs a img s oi.2 oi.1) ++ [(entryMissing a img s, s.err 0x0701)]
  | 6 => (es.flatMap fun oi => bindErrs img s oi.2 oi.1) ++ [(entryMissing a img s, s.err 0x0801)]
  | 7 => es.flatMap fun oi => routeErrs img s oi.2 oi.1
  | 8 => es.flatMap fun oi => nsErrs cx a s oi.2 oi.1
  | 9 => (es.flatMap fun oi => bifErrs cx img s oi.2 oi.1) ++
      [((List.range 6).any fun g => !s.entries.any fun o => leAt img o 1 == g, s.err 0x0A01)]
  | _ => []

/-- Every check of the contents phase, in order (R795). -/
def contentsChecks (cx : ValCtx) (a : Armature) (img : List Byte) (secs : List Sec) : List (Bool × ArmErr) :=
  (secs.flatMap (contentsOf cx a img secs)) ++ tailErrs cx a

/-- The three phases of validation, stopping at the first failure (R114). -/
def validateImage (cx : ValCtx) (img : List Byte) : Except ArmErr Armature :=
  match headerErr cx img with
  | some e => .error e
  | none => match structurePhase img with
    | .error e => .error e
    | .ok secs =>
      let a := decodeArmature img secs
      match firstErr (contentsChecks cx a img secs) with
      | some e => .error e
      | none => .ok a

/-- The codes that COMMIT checks again against the current state (R140). -/
def commitCodes : List Nat := [0x0306, 0x0408, 0x0505, 0x0606, 0x0A02, 0x0B02]

/-- The check of COMMIT: only the codes of R140, on the staged image. -/
def commitErr (cx : ValCtx) (a : Armature) : Option ArmErr :=
  match structurePhase a.image with
  | .error e => some e
  | .ok secs => firstErr ((contentsChecks cx a a.image secs).filter fun be => commitCodes.contains be.2.code)

end Sys2Proof.Machine
end

