-- ==== Sys2Proof/Machine/RegTable.lean ====
section
/-!
DEFINITION. The vendor registers of the CV-2048 (table 19-1, R761) and their field tables, as data: for every register its
base address in BAR2, the stride and number of its instances, its width and its write rule (global R542, owner R436 or
per-port R542); for every field its bits, access type (table 0-5), change attribute (table 0-6), initial value and the
narrowest reach level that restores it. Bits that no field lists are reserved and read zero (R15, R16).
Initial values written X / COLD or OPT / COLD in the spec stand here as 0 (log entries 3 and 4).
-/
namespace Sys2Proof

/-- Access types of table 0-5. -/
inductive FieldType | rw | ro | w1c | wo | rw1s
deriving DecidableEq, Repr

/-- Change attributes of table 0-6; `none` for a read-only field. -/
inductive FieldAttr | live | staged | frozen | none
deriving DecidableEq, Repr

/-- The reach levels of R25, narrowest first; `fixed` marks a field that no reset changes (fuses, pins, the backup domain). -/
inductive Level | unit | cluster | region | die | warm | cold | fixed
deriving DecidableEq, Repr

/-- The order of the reach levels. -/
def Level.rank : Level → Nat
  | .unit => 0 | .cluster => 1 | .region => 2 | .die => 3 | .warm => 4 | .cold => 5 | .fixed => 6

/-- Which requester may write a register (R436, R542). -/
inductive WriteRule | global_ | owner | perPort
deriving DecidableEq, Repr

/-- One field of a register's field table. -/
structure FieldDesc where
  hi : Nat
  lo : Nat
  ty : FieldType
  attr : FieldAttr
  init : Nat
  level : Level
deriving DecidableEq, Repr

/-- One register of table 19-1: instance `i` of `count` stands at `base + i * stride`. -/
structure RegDesc where
  name : String
  base : Nat
  stride : Nat
  count : Nat
  width : Nat
  rule : WriteRule
  fields : List FieldDesc
deriving DecidableEq, Repr

/-- A named field: where its register's first instance stands, the stride, and its bits. -/
structure Fld where
  base : Nat
  stride : Nat
  hi : Nat
  lo : Nat
deriving DecidableEq, Repr

/-- The ACD_ registers. -/
def RegTable.blockAcd : List RegDesc := [
  ⟨"ACD_CTRL", 0x220000, 0x0, 1, 32, .global_,
    [⟨3, 3, .wo, .live, 0, .cold⟩, ⟨2, 2, .wo, .live, 0, .cold⟩, ⟨1, 1, .wo, .live, 0, .cold⟩, ⟨0, 0, .wo, .live, 0, .cold⟩]⟩,
  ⟨"ACD_STATUS", 0x220004, 0x0, 1, 32, .global_,
    [⟨23, 21, .ro, .none, 0, .warm⟩, ⟨20, 20, .w1c, .live, 0, .warm⟩, ⟨19, 19, .w1c, .live, 0, .warm⟩, ⟨18, 18, .w1c, .live, 0, .warm⟩, ⟨17, 17, .ro, .none, 0, .fixed⟩, ⟨16, 16, .ro, .none, 0, .cold⟩, ⟨15, 14, .ro, .none, 0, .warm⟩, ⟨13, 13, .ro, .none, 0, .cold⟩, ⟨12, 12, .ro, .none, 0, .cold⟩, ⟨11, 11, .ro, .none, 0, .cold⟩, ⟨10, 10, .ro, .none, 0, .cold⟩, ⟨2, 0, .ro, .none, 0, .cold⟩]⟩,
  ⟨"ACD_CFG", 0x220008, 0x0, 1, 32, .global_,
    [⟨31, 16, .rw, .live, 2000, .cold⟩, ⟨15, 0, .rw, .live, 60, .cold⟩]⟩,
  ⟨"ACD_COUNTS", 0x22000c, 0x0, 1, 32, .global_,
    [⟨31, 24, .ro, .none, 0, .cold⟩, ⟨23, 16, .ro, .none, 0, .cold⟩, ⟨15, 8, .ro, .none, 0, .cold⟩, ⟨7, 0, .ro, .none, 0, .cold⟩]⟩,
  ⟨"ACD_OWN", 0x220010, 0x0, 1, 64, .global_,
    [⟨63, 0, .ro, .none, 0, .cold⟩]⟩,
  ⟨"ACD_OWN_CMD", 0x220018, 0x0, 1, 64, .global_,
    [⟨63, 0, .wo, .live, 0, .cold⟩]⟩,
  ⟨"ACD_ACKED", 0x220020, 0x0, 1, 64, .global_,
    [⟨63, 0, .ro, .none, 0, .warm⟩]⟩,
  ⟨"ACD_PARTNER_HEAD", 0x220028, 0x0, 1, 64, .global_,
    [⟨63, 0, .ro, .none, 0, .warm⟩]⟩]

/-- The ARM_ registers. -/
def RegTable.blockArm : List RegDesc := [
  ⟨"ARM_CTRL", 0x20000, 0x0, 1, 32, .global_,
    [⟨8, 8, .rw, .frozen, 0, .cold⟩, ⟨1, 0, .wo, .live, 0, .cold⟩]⟩,
  ⟨"ARM_STATUS", 0x20004, 0x0, 1, 32, .global_,
    [⟨9, 9, .w1c, .live, 0, .warm⟩, ⟨8, 8, .w1c, .live, 0, .warm⟩, ⟨4, 4, .ro, .none, 0, .warm⟩, ⟨3, 0, .ro, .none, 0, .warm⟩]⟩,
  ⟨"ARM_SRC_ADDR", 0x20008, 0x0, 1, 64, .global_,
    [⟨63, 3, .rw, .frozen, 0, .cold⟩]⟩,
  ⟨"ARM_SRC_LEN", 0x20010, 0x0, 1, 32, .global_,
    [⟨26, 0, .rw, .frozen, 0, .cold⟩]⟩,
  ⟨"ARM_ERROR", 0x20014, 0x0, 1, 32, .global_,
    [⟨31, 16, .ro, .none, 0, .warm⟩, ⟨15, 8, .ro, .none, 0, .warm⟩, ⟨7, 0, .ro, .none, 0, .warm⟩]⟩,
  ⟨"ARM_ERROR_OFFSET", 0x20018, 0x0, 1, 32, .global_,
    [⟨26, 0, .ro, .none, 0, .warm⟩]⟩,
  ⟨"ARM_EPOCH_ACTIVE", 0x2001c, 0x0, 1, 32, .global_,
    [⟨31, 0, .ro, .none, 0, .cold⟩]⟩,
  ⟨"ARM_EPOCH_STAGED", 0x20020, 0x0, 1, 32, .global_,
    [⟨31, 0, .ro, .none, 0, .warm⟩]⟩,
  ⟨"ARM_EPOCH_DRAINING", 0x20024, 0x0, 1, 32, .global_,
    [⟨31, 0, .ro, .none, 0, .warm⟩]⟩,
  ⟨"ARM_DRAIN_COUNT", 0x20028, 0x0, 1, 32, .global_,
    [⟨31, 0, .ro, .none, 0, .warm⟩]⟩,
  ⟨"ARM_EXC_COUNT", 0x2002c, 0x0, 1, 32, .global_,
    [⟨31, 0, .ro, .none, 0, .cold⟩]⟩,
  ⟨"ARM_META_AVAIL", 0x20030, 0x0, 1, 32, .global_,
    [⟨31, 0, .ro, .none, 0, .cold⟩]⟩]

/-- The BUF_ registers. -/
def RegTable.blockBuf : List RegDesc := [
  ⟨"BUF_CONFIG", 0x280000, 0x0, 1, 32, .global_,
    [⟨31, 31, .ro, .none, 0, .cold⟩, ⟨21, 16, .ro, .none, 0, .cold⟩, ⟨12, 8, .ro, .none, 0, .cold⟩, ⟨7, 0, .ro, .none, 0, .fixed⟩]⟩,
  ⟨"BUF_STATUS", 0x280004, 0x0, 1, 32, .global_,
    [⟨2, 2, .ro, .none, 0, .cold⟩, ⟨1, 1, .w1c, .live, 0, .cold⟩, ⟨0, 0, .ro, .none, 0, .cold⟩]⟩,
  ⟨"BUF_SCRUB", 0x280008, 0x0, 1, 32, .global_,
    [⟨31, 16, .ro, .none, 0, .cold⟩, ⟨7, 0, .rw, .live, 24, .cold⟩]⟩,
  ⟨"BUF_CTRL", 0x28000c, 0x0, 1, 32, .global_,
    [⟨0, 0, .wo, .live, 0, .cold⟩]⟩,
  ⟨"BUF_CE_COUNT0", 0x280010, 0x0, 1, 32, .global_,
    [⟨31, 16, .ro, .none, 0, .cold⟩, ⟨15, 0, .ro, .none, 0, .cold⟩]⟩,
  ⟨"BUF_CE_COUNT1", 0x280014, 0x0, 1, 32, .global_,
    [⟨31, 16, .ro, .none, 0, .cold⟩, ⟨15, 0, .ro, .none, 0, .cold⟩]⟩,
  ⟨"BUF_UE_COUNT", 0x280018, 0x0, 1, 32, .global_,
    [⟨29, 20, .ro, .none, 0, .cold⟩, ⟨19, 10, .ro, .none, 0, .cold⟩, ⟨9, 0, .ro, .none, 0, .cold⟩]⟩,
  ⟨"BUF_LAST_UE", 0x280020, 0x0, 1, 64, .global_,
    [⟨63, 62, .ro, .none, 0, .cold⟩, ⟨61, 60, .ro, .none, 0, .cold⟩, ⟨47, 6, .ro, .none, 0, .cold⟩]⟩]

/-- The CHN_ registers. -/
def RegTable.blockChn : List RegDesc := [
  ⟨"CHN_CTRL", 0x80000, 0x100, 512, 32, .global_,
    [⟨31, 31, .wo, .live, 0, .cluster⟩, ⟨30, 30, .wo, .live, 0, .cluster⟩, ⟨29, 29, .wo, .live, 0, .cluster⟩, ⟨2, 2, .rw, .frozen, 0, .warm⟩, ⟨1, 1, .rw, .frozen, 0, .warm⟩, ⟨0, 0, .rw, .frozen, 0, .warm⟩]⟩,
  ⟨"CHN_STATUS", 0x80004, 0x100, 512, 32, .global_,
    [⟨31, 29, .ro, .none, 0, .cluster⟩, ⟨28, 28, .ro, .none, 0, .cluster⟩, ⟨27, 27, .w1c, .live, 0, .cluster⟩, ⟨26, 26, .ro, .none, 0, .cluster⟩, ⟨25, 22, .ro, .none, 0, .cluster⟩, ⟨15, 8, .ro, .none, 0, .cold⟩]⟩,
  ⟨"CHN_PROG_ADDR", 0x80008, 0x100, 512, 64, .global_,
    [⟨63, 5, .rw, .frozen, 0, .cold⟩]⟩,
  ⟨"CHN_REC_ADDR", 0x80010, 0x100, 512, 64, .global_,
    [⟨63, 5, .rw, .frozen, 0, .cold⟩]⟩,
  ⟨"CHN_STAGE", 0x80018, 0x100, 512, 32, .global_,
    [⟨25, 16, .rw, .frozen, 0, .warm⟩, ⟨9, 0, .rw, .frozen, 0, .warm⟩]⟩,
  ⟨"CHN_WDOG", 0x8001c, 0x100, 512, 32, .global_,
    [⟨19, 0, .rw, .frozen, 10000, .warm⟩]⟩,
  ⟨"CHN_IRQ", 0x80020, 0x100, 512, 32, .global_,
    [⟨31, 31, .rw, .live, 0, .warm⟩, ⟨10, 0, .rw, .live, 0, .warm⟩]⟩,
  ⟨"CHN_EVENTS", 0x80024, 0x100, 512, 32, .global_,
    [⟨4, 4, .w1c, .live, 0, .cluster⟩, ⟨3, 3, .w1c, .live, 0, .cluster⟩, ⟨2, 2, .w1c, .live, 0, .cluster⟩, ⟨1, 1, .w1c, .live, 0, .cluster⟩, ⟨0, 0, .w1c, .live, 0, .cluster⟩]⟩,
  ⟨"CHN_PI", 0x80028, 0x100, 512, 32, .global_,
    [⟨31, 31, .rw, .frozen, 0, .warm⟩, ⟨30, 29, .rw, .frozen, 1, .warm⟩, ⟨15, 0, .rw, .frozen, 0, .warm⟩]⟩,
  ⟨"CHN_LEVEL", 0x8002c, 0x100, 512, 32, .global_,
    [⟨31, 0, .ro, .none, 0, .cluster⟩]⟩,
  ⟨"CHN_PI_REF", 0x80030, 0x100, 512, 64, .global_,
    [⟨47, 0, .rw, .frozen, 0, .warm⟩]⟩,
  ⟨"CHN_PC", 0x80038, 0x100, 512, 64, .global_,
    [⟨63, 0, .ro, .none, 0, .cluster⟩]⟩,
  ⟨"CHN_RESIDUE", 0x80040, 0x100, 512, 32, .global_,
    [⟨31, 0, .ro, .none, 0, .cluster⟩]⟩,
  ⟨"CHN_DETAIL", 0x80044, 0x100, 512, 32, .global_,
    [⟨31, 0, .ro, .none, 0, .cluster⟩]⟩,
  ⟨"CHN_LOOP1", 0x80048, 0x100, 512, 64, .global_,
    [⟨63, 32, .ro, .none, 0, .cluster⟩, ⟨31, 0, .ro, .none, 0, .cluster⟩]⟩,
  ⟨"CHN_LOOP2", 0x80050, 0x100, 512, 64, .global_,
    [⟨63, 32, .ro, .none, 0, .cluster⟩, ⟨31, 0, .ro, .none, 0, .cluster⟩]⟩,
  ⟨"CHN_LOOP3", 0x80058, 0x100, 512, 64, .global_,
    [⟨63, 32, .ro, .none, 0, .cluster⟩, ⟨31, 0, .ro, .none, 0, .cluster⟩]⟩,
  ⟨"CHN_LOOP4", 0x80060, 0x100, 512, 64, .global_,
    [⟨63, 32, .ro, .none, 0, .cluster⟩, ⟨31, 0, .ro, .none, 0, .cluster⟩]⟩,
  ⟨"CHN_SEM0", 0x80068, 0x100, 512, 32, .global_,
    [⟨31, 0, .rw, .live, 0, .cluster⟩]⟩,
  ⟨"CHN_SEM1", 0x8006c, 0x100, 512, 32, .global_,
    [⟨31, 0, .rw, .live, 0, .cluster⟩]⟩,
  ⟨"CHN_SEM2", 0x80070, 0x100, 512, 32, .global_,
    [⟨31, 0, .rw, .live, 0, .cluster⟩]⟩,
  ⟨"CHN_SEM3", 0x80074, 0x100, 512, 32, .global_,
    [⟨31, 0, .rw, .live, 0, .cluster⟩]⟩,
  ⟨"CHN_USER", 0x80078, 0x100, 512, 64, .global_,
    [⟨63, 0, .ro, .none, 0, .cluster⟩]⟩]

/-- The CPM_ registers. -/
def RegTable.blockCpm : List RegDesc := [
  ⟨"CPM_CTRL", 0x250000, 0x0, 1, 32, .global_,
    [⟨0, 0, .wo, .live, 0, .cold⟩]⟩,
  ⟨"CPM_STATUS", 0x250004, 0x0, 1, 32, .global_,
    [⟨8, 8, .ro, .none, 0, .cold⟩, ⟨7, 7, .ro, .none, 0, .warm⟩, ⟨6, 4, .ro, .none, 0, .warm⟩, ⟨1, 0, .ro, .none, 0, .warm⟩]⟩,
  ⟨"CPM_PD_STATE", 0x250008, 0x0, 1, 32, .global_,
    [⟨29, 0, .ro, .none, 0, .cold⟩]⟩,
  ⟨"CPM_CLK_STATE", 0x25000c, 0x0, 1, 32, .global_,
    [⟨17, 0, .ro, .none, 0, .cold⟩]⟩,
  ⟨"CPM_THERM", 0x250010, 0x0, 1, 32, .global_,
    [⟨28, 24, .ro, .none, 0, .warm⟩, ⟨23, 16, .ro, .none, 0, .warm⟩, ⟨7, 0, .rw, .live, 100, .cold⟩]⟩,
  ⟨"CPM_PCAP", 0x250014, 0x0, 1, 32, .global_,
    [⟨7, 0, .rw, .live, 142, .cold⟩]⟩,
  ⟨"CPM_POWER", 0x250018, 0x0, 1, 32, .global_,
    [⟨31, 18, .ro, .none, 0, .cold⟩, ⟨17, 0, .ro, .none, 0, .warm⟩]⟩,
  ⟨"CPM_VCD", 0x25001c, 0x0, 1, 32, .global_,
    [⟨9, 0, .ro, .none, 800, .cold⟩]⟩,
  ⟨"CPM_COUNTS", 0x250020, 0x0, 1, 32, .global_,
    [⟨31, 16, .ro, .none, 0, .cold⟩, ⟨15, 8, .ro, .none, 0, .cold⟩, ⟨7, 0, .ro, .none, 0, .cold⟩]⟩,
  ⟨"CPM_THROTTLE_MS", 0x250028, 0x0, 1, 64, .global_,
    [⟨63, 0, .ro, .none, 0, .cold⟩]⟩]

/-- The CWQ_ registers. -/
def RegTable.blockCwq : List RegDesc := [
  ⟨"CWQ_SQ_CTRL", 0xa0000, 0x40, 1024, 32, .owner,
    [⟨31, 31, .rw, .live, 0, .warm⟩, ⟨30, 30, .wo, .frozen, 0, .cold⟩, ⟨20, 16, .rw, .frozen, 4, .cold⟩, ⟨7, 0, .rw, .frozen, 0, .cold⟩]⟩,
  ⟨"CWQ_SQ_STATUS", 0xa0004, 0x40, 1024, 32, .owner,
    [⟨31, 29, .ro, .none, 0, .cold⟩, ⟨23, 16, .ro, .none, 0, .cold⟩, ⟨9, 0, .ro, .none, 0, .warm⟩]⟩,
  ⟨"CWQ_SQ_BASE", 0xa0008, 0x40, 1024, 64, .owner,
    [⟨63, 12, .rw, .frozen, 0, .cold⟩]⟩,
  ⟨"CWQ_SQ_WB", 0xa0010, 0x40, 1024, 64, .owner,
    [⟨63, 3, .rw, .frozen, 0, .cold⟩]⟩,
  ⟨"CWQ_SQ_ARB", 0xa0018, 0x40, 1024, 32, .owner,
    [⟨23, 16, .rw, .live, 1, .cold⟩, ⟨7, 0, .rw, .live, 1, .cold⟩]⟩,
  ⟨"CWQ_SQ_HEAD", 0xa001c, 0x40, 1024, 32, .owner,
    [⟨16, 0, .ro, .none, 0, .cold⟩]⟩,
  ⟨"CWQ_SQ_TAIL", 0xa0020, 0x40, 1024, 32, .owner,
    [⟨16, 0, .ro, .none, 0, .cold⟩]⟩,
  ⟨"CWQ_SQ_ABORT", 0xa0024, 0x40, 1024, 32, .owner,
    [⟨15, 0, .wo, .live, 0, .cold⟩]⟩,
  ⟨"CWQ_SQ_ABORT_RES", 0xa0028, 0x40, 1024, 32, .owner,
    [⟨31, 29, .ro, .none, 0, .warm⟩, ⟨15, 0, .ro, .none, 0, .warm⟩]⟩,
  ⟨"CWQ_CQ_CTRL", 0xb0000, 0x40, 256, 32, .owner,
    [⟨31, 31, .rw, .live, 0, .warm⟩, ⟨30, 30, .rw, .live, 0, .cold⟩, ⟨20, 16, .rw, .frozen, 4, .cold⟩, ⟨10, 0, .rw, .live, 0, .cold⟩]⟩,
  ⟨"CWQ_CQ_STATUS", 0xb0004, 0x40, 256, 32, .owner,
    [⟨31, 31, .ro, .none, 0, .warm⟩, ⟨30, 30, .w1c, .live, 0, .warm⟩, ⟨9, 0, .ro, .none, 0, .warm⟩]⟩,
  ⟨"CWQ_CQ_BASE", 0xb0008, 0x40, 256, 64, .owner,
    [⟨63, 12, .rw, .frozen, 0, .cold⟩]⟩,
  ⟨"CWQ_CQ_MOD", 0xb0010, 0x40, 256, 32, .owner,
    [⟨25, 16, .rw, .live, 1, .cold⟩, ⟨7, 0, .rw, .live, 1, .cold⟩]⟩,
  ⟨"CWQ_CQ_TAIL", 0xb0014, 0x40, 256, 32, .owner,
    [⟨16, 0, .ro, .none, 0, .cold⟩]⟩,
  ⟨"CWQ_CQ_HEAD", 0xb0018, 0x40, 256, 32, .owner,
    [⟨16, 0, .ro, .none, 0, .cold⟩]⟩,
  ⟨"CWQ_CQ_SEQ", 0xb001c, 0x40, 256, 32, .owner,
    [⟨31, 0, .ro, .none, 0, .cold⟩]⟩,
  ⟨"CWQ_GCTRL", 0xb8000, 0x0, 1, 32, .global_,
    [⟨7, 0, .rw, .live, 2, .cold⟩]⟩,
  ⟨"CWQ_GSTATUS", 0xb8004, 0x0, 1, 32, .global_,
    [⟨9, 0, .ro, .none, 0, .cold⟩]⟩,
  ⟨"CWQ_TIME", 0xb80b0, 0x0, 1, 32, .global_,
    [⟨31, 0, .ro, .none, 0, .cold⟩]⟩,
  ⟨"CWQ_DROPPED", 0xb80b4, 0x0, 1, 32, .global_,
    [⟨31, 0, .rw, .live, 0, .cold⟩]⟩,
  ⟨"CWQ_SQ_OWNER", 0xb8010, 0x4, 32, 32, .global_,
    [⟨31, 0, .rw, .frozen, 0, .cold⟩]⟩,
  ⟨"CWQ_CQ_OWNER", 0xb8090, 0x4, 8, 32, .global_,
    [⟨31, 0, .rw, .frozen, 0, .cold⟩]⟩,
  ⟨"CWQ_SQ_DB", 0x100000, 0x4, 1024, 32, .owner,
    [⟨16, 0, .wo, .live, 0, .cold⟩]⟩,
  ⟨"CWQ_CQ_DB", 0x101000, 0x4, 256, 32, .owner,
    [⟨16, 0, .wo, .live, 0, .cold⟩]⟩]

/-- The FAB_ registers. -/
def RegTable.blockFab : List RegDesc := [
  ⟨"FAB_CTRL", 0x60000, 0x0, 1, 32, .global_,
    [⟨0, 0, .wo, .live, 0, .cold⟩]⟩,
  ⟨"FAB_STATUS", 0x60004, 0x0, 1, 32, .global_,
    [⟨31, 24, .ro, .none, 0, .cold⟩, ⟨23, 22, .ro, .none, 0, .cold⟩, ⟨21, 20, .ro, .none, 0, .cold⟩, ⟨17, 17, .w1c, .live, 0, .warm⟩, ⟨16, 16, .w1c, .live, 0, .warm⟩, ⟨8, 0, .ro, .none, 256, .cold⟩]⟩,
  ⟨"FAB_SLEEP", 0x60008, 0x0, 1, 32, .global_,
    [⟨31, 31, .rw, .live, 0, .cold⟩, ⟨23, 8, .rw, .live, 500, .cold⟩, ⟨7, 0, .rw, .live, 2, .cold⟩]⟩,
  ⟨"FAB_WATCH", 0x6000c, 0x0, 1, 32, .global_,
    [⟨7, 0, .rw, .live, 1, .cold⟩]⟩,
  ⟨"FAB_INTCH", 0x60010, 0x0, 1, 32, .global_,
    [⟨3, 0, .rw, .live, 4, .cold⟩]⟩,
  ⟨"FAB_UNIT_CMD", 0x60014, 0x0, 1, 32, .global_,
    [⟨31, 28, .wo, .live, 0, .cold⟩, ⟨7, 0, .wo, .live, 0, .cold⟩]⟩,
  ⟨"FAB_SEL", 0x60018, 0x0, 1, 32, .global_,
    [⟨2, 0, .rw, .live, 0, .cold⟩]⟩,
  ⟨"FAB_REGION_STATS", 0x6001c, 0x0, 1, 32, .global_,
    [⟨31, 16, .ro, .none, 0, .cold⟩, ⟨15, 0, .ro, .none, 0, .cold⟩]⟩,
  ⟨"FAB_ELB_HITS", 0x60040, 0x0, 1, 64, .global_,
    [⟨63, 0, .ro, .none, 0, .cold⟩]⟩,
  ⟨"FAB_ELB_MISSES", 0x60048, 0x0, 1, 64, .global_,
    [⟨63, 0, .ro, .none, 0, .cold⟩]⟩,
  ⟨"FAB_ELB_EVENTS", 0x60050, 0x0, 1, 32, .global_,
    [⟨31, 16, .ro, .none, 0, .cold⟩, ⟨15, 0, .ro, .none, 0, .cold⟩]⟩,
  ⟨"FAB_RETIRED", 0x60020, 0x4, 8, 32, .global_,
    [⟨31, 0, .ro, .none, 0, .cold⟩]⟩]

/-- The GCS_ registers. -/
def RegTable.blockGcs : List RegDesc := [
  ⟨"GCS_ID", 0x10000, 0x0, 1, 32, .global_,
    [⟨31, 16, .ro, .none, 0, .fixed⟩, ⟨8, 8, .ro, .none, 0, .fixed⟩, ⟨7, 0, .ro, .none, 0, .fixed⟩]⟩,
  ⟨"GCS_STATUS", 0x10004, 0x0, 1, 32, .global_,
    [⟨2, 2, .ro, .none, 0, .fixed⟩, ⟨1, 0, .ro, .none, 0, .fixed⟩]⟩,
  ⟨"GCS_IGNORED_WRITES", 0x10008, 0x0, 1, 32, .global_,
    [⟨31, 0, .rw, .live, 0, .cold⟩]⟩,
  ⟨"GCS_SCRATCH", 0x1000c, 0x0, 1, 32, .global_,
    [⟨31, 0, .rw, .live, 0, .cold⟩]⟩,
  ⟨"GCS_LAST_IGNORED", 0x10010, 0x0, 1, 64, .global_,
    [⟨63, 62, .ro, .none, 0, .cold⟩, ⟨61, 61, .ro, .none, 0, .cold⟩, ⟨60, 60, .ro, .none, 0, .cold⟩, ⟨47, 0, .ro, .none, 0, .cold⟩]⟩,
  ⟨"GCS_SERIAL", 0x10018, 0x0, 1, 64, .global_,
    [⟨63, 0, .ro, .none, 0, .fixed⟩]⟩]

/-- The ITG_ registers. -/
def RegTable.blockItg : List RegDesc := [
  ⟨"ITG_CTRL", 0x50000, 0x0, 1, 32, .global_,
    [⟨0, 0, .wo, .live, 0, .cold⟩]⟩,
  ⟨"ITG_STATUS", 0x50004, 0x0, 1, 32, .global_,
    [⟨26, 16, .ro, .none, 1024, .cold⟩, ⟨3, 3, .ro, .none, 0, .warm⟩, ⟨2, 2, .w1c, .live, 0, .warm⟩, ⟨1, 1, .w1c, .live, 0, .warm⟩, ⟨0, 0, .ro, .none, 0, .warm⟩]⟩,
  ⟨"ITG_KEY_SEL", 0x50008, 0x0, 1, 32, .global_,
    [⟨9, 0, .rw, .live, 0, .cold⟩]⟩,
  ⟨"ITG_KEY_STATE", 0x5000c, 0x0, 1, 32, .global_,
    [⟨31, 30, .ro, .none, 0, .cold⟩, ⟨25, 16, .ro, .none, 0, .cold⟩, ⟨15, 0, .ro, .none, 0, .cold⟩]⟩,
  ⟨"ITG_TAG_ERRS", 0x50010, 0x0, 1, 32, .global_,
    [⟨31, 16, .ro, .none, 0, .cold⟩, ⟨15, 8, .ro, .none, 0, .cold⟩, ⟨7, 0, .ro, .none, 0, .cold⟩]⟩,
  ⟨"ITG_PI_ERRS", 0x50014, 0x0, 1, 32, .global_,
    [⟨31, 16, .ro, .none, 0, .cold⟩, ⟨15, 8, .ro, .none, 0, .cold⟩, ⟨7, 0, .ro, .none, 0, .cold⟩]⟩,
  ⟨"ITG_LAST_TAG_ERR", 0x50018, 0x0, 1, 64, .global_,
    [⟨63, 62, .ro, .none, 0, .cold⟩, ⟨61, 51, .ro, .none, 0, .cold⟩, ⟨47, 0, .ro, .none, 0, .cold⟩]⟩,
  ⟨"ITG_SCRUB_FIND", 0x50020, 0x0, 1, 64, .global_,
    [⟨63, 48, .ro, .none, 0, .cold⟩, ⟨47, 32, .ro, .none, 0, .cold⟩, ⟨31, 16, .ro, .none, 0, .cold⟩, ⟨15, 0, .ro, .none, 0, .cold⟩]⟩,
  ⟨"ITG_INIT_SEL", 0x50028, 0x0, 1, 32, .global_,
    [⟨5, 0, .rw, .live, 0, .cold⟩]⟩,
  ⟨"ITG_INIT_PROGRESS", 0x5002c, 0x0, 1, 32, .global_,
    [⟨31, 31, .ro, .none, 0, .warm⟩, ⟨6, 0, .ro, .none, 0, .warm⟩]⟩]

/-- The JNL_ registers. -/
def RegTable.blockJnl : List RegDesc := [
  ⟨"JNL_CTRL", 0x30000, 0x0, 1, 32, .global_,
    [⟨1, 1, .wo, .live, 0, .cold⟩, ⟨0, 0, .wo, .live, 0, .cold⟩]⟩,
  ⟨"JNL_STATUS", 0x30004, 0x0, 1, 32, .global_,
    [⟨11, 11, .w1c, .live, 0, .warm⟩, ⟨10, 10, .w1c, .live, 0, .warm⟩, ⟨9, 9, .w1c, .live, 0, .warm⟩, ⟨8, 8, .w1c, .live, 0, .warm⟩, ⟨4, 4, .ro, .none, 0, .warm⟩, ⟨3, 3, .ro, .none, 0, .warm⟩, ⟨2, 2, .ro, .none, 0, .warm⟩, ⟨1, 0, .ro, .none, 0, .warm⟩]⟩,
  ⟨"JNL_DRY_CFG", 0x30008, 0x0, 1, 32, .global_,
    [⟨31, 24, .rw, .live, 75, .cold⟩, ⟨23, 16, .rw, .live, 50, .cold⟩, ⟨15, 0, .rw, .live, 1000, .cold⟩]⟩,
  ⟨"JNL_DRY_LIMITS", 0x3000c, 0x0, 1, 32, .global_,
    [⟨31, 16, .rw, .live, 200, .cold⟩, ⟨15, 15, .rw, .live, 0, .cold⟩, ⟨12, 0, .rw, .live, 1024, .cold⟩]⟩,
  ⟨"JNL_CKPT_CFG", 0x30010, 0x0, 1, 32, .global_,
    [⟨15, 0, .rw, .live, 1000, .cold⟩]⟩,
  ⟨"JNL_OCCUPANCY", 0x30014, 0x0, 1, 32, .global_,
    [⟨22, 16, .rw, .live, 0, .warm⟩, ⟨6, 0, .ro, .none, 0, .warm⟩]⟩,
  ⟨"JNL_HEAD_SEQ", 0x30018, 0x0, 1, 64, .global_,
    [⟨63, 0, .ro, .none, 0, .warm⟩]⟩,
  ⟨"JNL_TAIL_SEQ", 0x30020, 0x0, 1, 64, .global_,
    [⟨63, 0, .ro, .none, 0, .warm⟩]⟩,
  ⟨"JNL_BARRIER_SEQ", 0x30028, 0x0, 1, 64, .global_,
    [⟨63, 0, .ro, .none, 0, .warm⟩]⟩,
  ⟨"JNL_LOCKS", 0x30030, 0x0, 1, 32, .global_,
    [⟨31, 19, .ro, .none, 0, .warm⟩, ⟨18, 0, .ro, .none, 0, .warm⟩]⟩,
  ⟨"JNL_LOST_COUNT", 0x30034, 0x0, 1, 32, .global_,
    [⟨12, 0, .ro, .none, 0, .warm⟩]⟩,
  ⟨"JNL_HDR_SLOTS", 0x30038, 0x0, 1, 32, .global_,
    [⟨31, 0, .ro, .none, 0, .cold⟩]⟩,
  ⟨"JNL_PAY_BLOCKS", 0x3003c, 0x0, 1, 32, .global_,
    [⟨31, 0, .ro, .none, 0, .cold⟩]⟩,
  ⟨"JNL_REPLAY_DISCARDS", 0x30040, 0x0, 1, 32, .global_,
    [⟨31, 0, .ro, .none, 0, .cold⟩]⟩]

/-- The LOG_ registers. -/
def RegTable.blockLog : List RegDesc := [
  ⟨"LOG_CTRL", 0x270000, 0x0, 1, 32, .global_,
    [⟨31, 31, .rw, .live, 0, .cold⟩, ⟨30, 30, .wo, .live, 0, .cold⟩, ⟨26, 24, .rw, .live, 3, .cold⟩, ⟨10, 0, .rw, .live, 0, .cold⟩]⟩,
  ⟨"LOG_STATUS", 0x270004, 0x0, 1, 32, .global_,
    [⟨31, 31, .w1c, .live, 0, .warm⟩, ⟨12, 0, .ro, .none, 0, .cold⟩]⟩,
  ⟨"LOG_FIRST_SEQ", 0x270008, 0x0, 1, 64, .global_,
    [⟨63, 0, .ro, .none, 0, .cold⟩]⟩,
  ⟨"LOG_NEXT_SEQ", 0x270010, 0x0, 1, 64, .global_,
    [⟨63, 0, .ro, .none, 0, .cold⟩]⟩,
  ⟨"LOG_DROPPED", 0x270018, 0x0, 1, 32, .global_,
    [⟨31, 0, .ro, .none, 0, .cold⟩]⟩]

/-- The MBR_ registers. -/
def RegTable.blockMbr : List RegDesc := [
  ⟨"MBR_CTRL", 0x210000, 0x0, 1, 32, .global_,
    [⟨3, 3, .rw, .frozen, 0, .cold⟩, ⟨2, 2, .wo, .live, 0, .cold⟩, ⟨1, 1, .wo, .live, 0, .cold⟩, ⟨0, 0, .wo, .live, 0, .cold⟩]⟩,
  ⟨"MBR_STATUS", 0x210004, 0x0, 1, 32, .global_,
    [⟨7, 7, .w1c, .live, 0, .warm⟩, ⟨6, 6, .ro, .none, 0, .warm⟩, ⟨5, 5, .w1c, .live, 0, .warm⟩, ⟨4, 4, .ro, .none, 0, .warm⟩, ⟨3, 3, .w1c, .live, 0, .warm⟩, ⟨2, 2, .w1c, .live, 0, .warm⟩, ⟨0, 0, .ro, .none, 0, .warm⟩]⟩,
  ⟨"MBR_TIMEOUT", 0x210008, 0x0, 1, 32, .global_,
    [⟨31, 16, .rw, .live, 10000, .cold⟩, ⟨15, 0, .rw, .live, 2000, .cold⟩]⟩,
  ⟨"MBR_QD", 0x21000c, 0x0, 1, 32, .global_,
    [⟨23, 16, .rw, .live, 32, .cold⟩, ⟨7, 0, .rw, .live, 128, .cold⟩]⟩,
  ⟨"MBR_PWR_CFG", 0x210010, 0x0, 1, 32, .global_,
    [⟨31, 31, .rw, .live, 1, .cold⟩, ⟨23, 16, .rw, .live, 16, .cold⟩, ⟨15, 0, .rw, .live, 500, .cold⟩]⟩,
  ⟨"MBR_SLOT_CMD", 0x210014, 0x0, 1, 32, .global_,
    [⟨31, 30, .wo, .live, 0, .cold⟩, ⟨29, 29, .wo, .live, 0, .cold⟩, ⟨10, 0, .wo, .live, 0, .cold⟩]⟩,
  ⟨"MBR_SLOT_PWR", 0x210018, 0x0, 1, 64, .global_,
    [⟨47, 0, .ro, .none, 0, .cold⟩]⟩,
  ⟨"MBR_GPIO_OUT", 0x210020, 0x0, 1, 32, .global_,
    [⟨31, 0, .rw, .live, 0, .cold⟩]⟩,
  ⟨"MBR_GPIO_OE", 0x210024, 0x0, 1, 32, .global_,
    [⟨31, 0, .rw, .live, 0, .cold⟩]⟩,
  ⟨"MBR_GPIO_IN", 0x210028, 0x0, 1, 32, .global_,
    [⟨31, 0, .ro, .none, 0, .fixed⟩]⟩,
  ⟨"MBR_LINK_SEL", 0x21002c, 0x0, 1, 32, .global_,
    [⟨5, 0, .rw, .live, 0, .cold⟩]⟩,
  ⟨"MBR_LINK_STATE", 0x210030, 0x0, 1, 32, .global_,
    [⟨31, 31, .ro, .none, 0, .warm⟩, ⟨30, 30, .ro, .none, 0, .warm⟩, ⟨27, 16, .ro, .none, 0, .warm⟩, ⟨11, 11, .ro, .none, 0, .warm⟩, ⟨10, 10, .ro, .none, 0, .warm⟩, ⟨9, 4, .ro, .none, 0, .warm⟩, ⟨3, 0, .ro, .none, 0, .warm⟩]⟩,
  ⟨"MBR_DISC_COUNT", 0x210034, 0x0, 1, 32, .global_,
    [⟨12, 0, .ro, .none, 0, .warm⟩]⟩,
  ⟨"MBR_DISC_ADDR", 0x210038, 0x0, 1, 64, .global_,
    [⟨63, 6, .rw, .frozen, 0, .cold⟩]⟩,
  ⟨"MBR_ERRORS", 0x210040, 0x0, 1, 32, .global_,
    [⟨31, 16, .ro, .none, 0, .cold⟩, ⟨15, 8, .ro, .none, 0, .cold⟩, ⟨7, 0, .ro, .none, 0, .cold⟩]⟩,
  ⟨"MBR_FMT_CMD", 0x210044, 0x0, 1, 32, .global_,
    [⟨31, 31, .wo, .live, 0, .cold⟩, ⟨11, 0, .wo, .live, 0, .cold⟩]⟩,
  ⟨"MBR_MODES", 0x210048, 0x0, 1, 32, .global_,
    [⟨11, 0, .ro, .none, 0, .cold⟩]⟩]

/-- The MBX_ registers. -/
def RegTable.blockMbx : List RegDesc := [
  ⟨"MBX_CMD", 0x260000, 0x0, 1, 32, .global_,
    [⟨31, 31, .wo, .frozen, 0, .warm⟩, ⟨23, 16, .rw, .frozen, 0, .warm⟩, ⟨12, 0, .rw, .frozen, 0, .warm⟩]⟩,
  ⟨"MBX_STATUS", 0x260004, 0x0, 1, 32, .global_,
    [⟨31, 31, .ro, .none, 0, .warm⟩, ⟨30, 30, .w1c, .live, 0, .warm⟩, ⟨29, 29, .ro, .none, 0, .warm⟩, ⟨28, 28, .ro, .none, 0, .warm⟩, ⟨23, 16, .ro, .none, 0, .warm⟩, ⟨12, 0, .ro, .none, 0, .warm⟩]⟩,
  ⟨"MBX_IRQ", 0x260008, 0x0, 1, 32, .global_,
    [⟨31, 31, .rw, .live, 0, .cold⟩, ⟨10, 0, .rw, .live, 0, .cold⟩]⟩,
  ⟨"MBX_ARG", 0x260010, 0x0, 1, 64, .global_,
    [⟨63, 0, .rw, .frozen, 0, .warm⟩]⟩,
  ⟨"MBX_RESULT", 0x260018, 0x0, 1, 64, .global_,
    [⟨63, 0, .ro, .none, 0, .warm⟩]⟩,
  ⟨"MBX_FW_REV", 0x260020, 0x0, 1, 64, .global_,
    [⟨63, 0, .ro, .none, 0, .warm⟩]⟩,
  ⟨"MBX_BUF", 0x261000, 0x4, 1024, 32, .global_,
    [⟨31, 0, .rw, .frozen, 0, .cold⟩]⟩]

/-- The RST_ registers. -/
def RegTable.blockRst : List RegDesc := [
  ⟨"RST_CTRL", 0x240000, 0x0, 1, 32, .global_,
    [⟨31, 30, .wo, .live, 0, .cold⟩, ⟨29, 29, .wo, .live, 0, .cold⟩, ⟨15, 0, .wo, .live, 0, .cold⟩]⟩,
  ⟨"RST_STATUS", 0x240004, 0x0, 1, 32, .global_,
    [⟨9, 9, .w1c, .live, 0, .warm⟩, ⟨8, 8, .w1c, .live, 0, .cold⟩, ⟨4, 4, .ro, .none, 0, .cold⟩, ⟨3, 3, .ro, .none, 0, .cold⟩, ⟨2, 2, .ro, .none, 0, .cold⟩, ⟨1, 1, .ro, .none, 0, .cold⟩, ⟨0, 0, .ro, .none, 0, .cold⟩]⟩,
  ⟨"RST_COUNT", 0x240008, 0x0, 1, 32, .global_,
    [⟨31, 0, .ro, .none, 0, .fixed⟩]⟩,
  ⟨"RST_ACTIVE", 0x24000c, 0x0, 1, 32, .global_,
    [⟨31, 0, .ro, .none, 0, .cold⟩]⟩,
  ⟨"RST_BLOCK_CMD", 0x240010, 0x0, 1, 32, .global_,
    [⟨31, 29, .wo, .live, 0, .cold⟩, ⟨7, 0, .wo, .live, 0, .cold⟩]⟩,
  ⟨"RST_BLOCK_LAST", 0x240014, 0x0, 1, 32, .global_,
    [⟨31, 27, .ro, .none, 0, .warm⟩, ⟨26, 24, .ro, .none, 0, .warm⟩, ⟨23, 23, .ro, .none, 0, .warm⟩, ⟨7, 0, .ro, .none, 0, .warm⟩]⟩,
  ⟨"RST_BLOCK_COUNTS", 0x240018, 0x0, 1, 32, .global_,
    [⟨31, 16, .ro, .none, 0, .cold⟩, ⟨15, 8, .ro, .none, 0, .cold⟩, ⟨7, 0, .ro, .none, 0, .cold⟩]⟩,
  ⟨"RST_FIELD_DEF", 0x240028, 0x0, 1, 32, .global_,
    [⟨7, 0, .ro, .none, 0, .cold⟩]⟩,
  ⟨"RST_OPT_SEQ", 0x240030, 0x0, 1, 64, .global_,
    [⟨63, 0, .ro, .none, 0, .cold⟩]⟩,
  ⟨"RST_FUSE", 0x24001c, 0x4, 3, 32, .global_,
    [⟨31, 0, .ro, .none, 0, .fixed⟩]⟩,
  ⟨"RST_HIST", 0x240040, 0x8, 8, 64, .global_,
    [⟨63, 0, .ro, .none, 0, .fixed⟩]⟩]

/-- The SIL_ registers. -/
def RegTable.blockSil : List RegDesc := [
  ⟨"SIL_CTRL", 0x40000, 0x0, 1, 32, .global_,
    [⟨1, 1, .wo, .live, 0, .cold⟩, ⟨0, 0, .rw, .live, 0, .cold⟩]⟩,
  ⟨"SIL_STATUS", 0x40004, 0x0, 1, 32, .global_,
    [⟨7, 7, .w1c, .live, 0, .warm⟩, ⟨6, 6, .w1c, .live, 0, .warm⟩, ⟨5, 5, .w1c, .live, 0, .warm⟩, ⟨2, 2, .ro, .none, 0, .warm⟩, ⟨1, 1, .ro, .none, 0, .warm⟩, ⟨0, 0, .ro, .none, 0, .warm⟩]⟩,
  ⟨"SIL_SHARE", 0x40008, 0x0, 1, 32, .global_,
    [⟨31, 24, .rw, .live, 90, .cold⟩, ⟨23, 16, .rw, .live, 30, .cold⟩, ⟨15, 8, .rw, .live, 5, .cold⟩, ⟨0, 0, .rw, .live, 1, .cold⟩]⟩,
  ⟨"SIL_SLOW", 0x4000c, 0x0, 1, 32, .global_,
    [⟨31, 16, .rw, .live, 500, .cold⟩, ⟨15, 0, .rw, .live, 20, .cold⟩]⟩,
  ⟨"SIL_SUSPECT", 0x40010, 0x0, 1, 32, .global_,
    [⟨31, 24, .rw, .live, 60, .cold⟩, ⟨23, 16, .rw, .live, 8, .cold⟩, ⟨15, 0, .rw, .live, 300, .cold⟩]⟩,
  ⟨"SIL_FAIL", 0x40014, 0x0, 1, 32, .global_,
    [⟨31, 24, .rw, .live, 3, .cold⟩, ⟨23, 16, .rw, .live, 16, .cold⟩, ⟨15, 0, .rw, .live, 0, .cold⟩]⟩,
  ⟨"SIL_RETURN", 0x40018, 0x0, 1, 32, .global_,
    [⟨31, 16, .rw, .live, 300, .cold⟩, ⟨15, 8, .rw, .live, 30, .cold⟩, ⟨7, 4, .rw, .live, 2, .cold⟩]⟩,
  ⟨"SIL_DRL_CFG", 0x4001c, 0x0, 1, 32, .global_,
    [⟨5, 0, .rw, .frozen, 30, .cold⟩]⟩,
  ⟨"SIL_SCRUB", 0x40020, 0x0, 1, 32, .global_,
    [⟨31, 16, .ro, .none, 0, .cold⟩, ⟨8, 0, .rw, .live, 30, .cold⟩]⟩,
  ⟨"SIL_MBR_CMD", 0x40024, 0x0, 1, 32, .global_,
    [⟨31, 28, .wo, .live, 0, .cold⟩, ⟨10, 0, .wo, .live, 0, .cold⟩]⟩,
  ⟨"SIL_MBR_SEL", 0x40028, 0x0, 1, 32, .global_,
    [⟨10, 0, .rw, .live, 0, .cold⟩]⟩,
  ⟨"SIL_MBR_STATE", 0x4002c, 0x0, 1, 32, .global_,
    [⟨31, 29, .ro, .none, 0, .warm⟩, ⟨28, 26, .ro, .none, 0, .warm⟩, ⟨25, 25, .ro, .none, 0, .warm⟩, ⟨24, 24, .ro, .none, 0, .warm⟩, ⟨23, 16, .ro, .none, 0, .warm⟩, ⟨15, 8, .ro, .none, 0, .warm⟩, ⟨7, 0, .ro, .none, 0, .warm⟩]⟩,
  ⟨"SIL_MBR_DEPART", 0x40030, 0x0, 1, 64, .global_,
    [⟨63, 0, .ro, .none, 0, .warm⟩]⟩,
  ⟨"SIL_MBR_PROGRESS", 0x40038, 0x0, 1, 64, .global_,
    [⟨63, 32, .ro, .none, 0, .warm⟩, ⟨31, 0, .ro, .none, 0, .warm⟩]⟩,
  ⟨"SIL_DEGRADED", 0x40040, 0x0, 1, 64, .global_,
    [⟨63, 0, .ro, .none, 0, .warm⟩]⟩,
  ⟨"SIL_CRITICAL", 0x40048, 0x0, 1, 64, .global_,
    [⟨63, 0, .ro, .none, 0, .warm⟩]⟩,
  ⟨"SIL_UNRECOV", 0x40050, 0x0, 1, 32, .global_,
    [⟨31, 0, .ro, .none, 0, .warm⟩]⟩]

/-- The SNS_ registers. -/
def RegTable.blockSns : List RegDesc := [
  ⟨"SNS_SEL", 0x268000, 0x0, 1, 32, .global_,
    [⟨31, 31, .rw, .live, 0, .cold⟩, ⟨4, 0, .rw, .live, 0, .cold⟩]⟩,
  ⟨"SNS_VALUE", 0x268004, 0x0, 1, 32, .global_,
    [⟨31, 16, .ro, .none, 0, .cold⟩, ⟨15, 0, .ro, .none, 0, .warm⟩]⟩,
  ⟨"SNS_WARN", 0x268008, 0x0, 1, 32, .global_,
    [⟨23, 16, .rw, .live, 15, .cold⟩, ⟨7, 0, .rw, .live, 105, .cold⟩]⟩,
  ⟨"SNS_TALARM", 0x26800c, 0x0, 1, 32, .global_,
    [⟨31, 0, .ro, .none, 0, .warm⟩]⟩,
  ⟨"SNS_RALARM", 0x268010, 0x0, 1, 32, .global_,
    [⟨31, 0, .ro, .none, 0, .warm⟩]⟩,
  ⟨"SNS_CTRL", 0x268014, 0x0, 1, 32, .global_,
    [⟨0, 0, .wo, .live, 0, .cold⟩]⟩]

/-- The VLT_ registers. -/
def RegTable.blockVlt : List RegDesc := [
  ⟨"VLT_CTRL", 0x230000, 0x0, 1, 32, .global_,
    [⟨1, 1, .wo, .live, 0, .cold⟩, ⟨0, 0, .wo, .live, 0, .cold⟩]⟩,
  ⟨"VLT_STATUS", 0x230004, 0x0, 1, 32, .global_,
    [⟨7, 7, .ro, .none, 0, .cold⟩, ⟨6, 6, .ro, .none, 0, .cold⟩, ⟨5, 5, .ro, .none, 0, .cold⟩, ⟨4, 4, .ro, .none, 0, .cold⟩, ⟨3, 3, .ro, .none, 0, .cold⟩, ⟨2, 2, .ro, .none, 0, .cold⟩, ⟨1, 0, .ro, .none, 0, .cold⟩]⟩,
  ⟨"VLT_CFG", 0x230008, 0x0, 1, 32, .global_,
    [⟨31, 24, .rw, .live, 10, .cold⟩, ⟨15, 0, .rw, .live, 100, .cold⟩]⟩,
  ⟨"VLT_WEAR", 0x23000c, 0x0, 1, 32, .global_,
    [⟨31, 16, .ro, .none, 0, .cold⟩, ⟨7, 0, .ro, .none, 0, .cold⟩]⟩,
  ⟨"VLT_DUMP_NUM", 0x230010, 0x0, 1, 64, .global_,
    [⟨63, 32, .ro, .none, 0, .cold⟩, ⟨31, 0, .ro, .none, 0, .cold⟩]⟩,
  ⟨"VLT_LAST_DUMP", 0x230018, 0x0, 1, 32, .global_,
    [⟨31, 16, .ro, .none, 0, .cold⟩, ⟨15, 0, .ro, .none, 0, .cold⟩]⟩,
  ⟨"VLT_WIN", 0x23001c, 0x0, 1, 32, .global_,
    [⟨6, 0, .rw, .live, 0, .cold⟩]⟩,
  ⟨"VLT_COUNTS", 0x230020, 0x0, 1, 32, .global_,
    [⟨31, 16, .ro, .none, 0, .cold⟩, ⟨15, 8, .ro, .none, 0, .cold⟩, ⟨7, 0, .ro, .none, 0, .cold⟩]⟩,
  ⟨"VLT_WRITTEN", 0x230028, 0x0, 1, 64, .global_,
    [⟨63, 0, .ro, .none, 0, .cold⟩]⟩]

/-- The XLT_ registers. -/
def RegTable.blockXlt : List RegDesc := [
  ⟨"XLT_CTRL", 0x200000, 0x0, 1, 32, .global_,
    [⟨0, 0, .wo, .live, 0, .cold⟩]⟩,
  ⟨"XLT_STATUS", 0x200004, 0x0, 1, 32, .global_,
    [⟨1, 1, .ro, .none, 0, .cold⟩, ⟨0, 0, .ro, .none, 0, .cold⟩]⟩,
  ⟨"XLT_LINKA", 0x200008, 0x0, 1, 32, .global_,
    [⟨21, 16, .ro, .none, 0, .cold⟩, ⟨15, 14, .ro, .none, 0, .warm⟩, ⟨13, 12, .ro, .none, 0, .warm⟩, ⟨11, 11, .ro, .none, 0, .warm⟩, ⟨10, 10, .ro, .none, 0, .warm⟩, ⟨9, 4, .ro, .none, 0, .warm⟩, ⟨3, 0, .ro, .none, 0, .warm⟩]⟩,
  ⟨"XLT_LINKB", 0x20000c, 0x0, 1, 32, .global_,
    [⟨21, 16, .ro, .none, 0, .cold⟩, ⟨15, 14, .ro, .none, 0, .warm⟩, ⟨13, 12, .ro, .none, 0, .warm⟩, ⟨11, 11, .ro, .none, 0, .warm⟩, ⟨10, 10, .ro, .none, 0, .warm⟩, ⟨9, 4, .ro, .none, 0, .warm⟩, ⟨3, 0, .ro, .none, 0, .warm⟩]⟩,
  ⟨"XLT_TAGSA", 0x200010, 0x0, 1, 32, .global_,
    [⟨11, 0, .rw, .live, 2048, .cold⟩]⟩,
  ⟨"XLT_TAGSB", 0x200014, 0x0, 1, 32, .global_,
    [⟨11, 0, .rw, .live, 2048, .cold⟩]⟩,
  ⟨"XLT_TAGUSEA", 0x200018, 0x0, 1, 32, .global_,
    [⟨28, 16, .ro, .none, 0, .warm⟩, ⟨13, 0, .ro, .none, 0, .warm⟩]⟩,
  ⟨"XLT_TAGUSEB", 0x20001c, 0x0, 1, 32, .global_,
    [⟨28, 16, .ro, .none, 0, .warm⟩, ⟨13, 0, .ro, .none, 0, .warm⟩]⟩,
  ⟨"XLT_CPLA", 0x200020, 0x0, 1, 32, .global_,
    [⟨31, 16, .ro, .none, 0, .cold⟩, ⟨15, 8, .ro, .none, 0, .cold⟩, ⟨7, 0, .ro, .none, 0, .cold⟩]⟩,
  ⟨"XLT_CPLB", 0x200024, 0x0, 1, 32, .global_,
    [⟨31, 16, .ro, .none, 0, .cold⟩, ⟨15, 8, .ro, .none, 0, .cold⟩, ⟨7, 0, .ro, .none, 0, .cold⟩]⟩,
  ⟨"XLT_DENIEDA", 0x200028, 0x0, 1, 32, .global_,
    [⟨31, 0, .ro, .none, 0, .cold⟩]⟩,
  ⟨"XLT_DENIEDB", 0x20002c, 0x0, 1, 32, .global_,
    [⟨31, 0, .ro, .none, 0, .cold⟩]⟩,
  ⟨"XLT_ENTRY", 0x201000, 0x8, 256, 64, .perPort,
    [⟨47, 22, .rw, .live, 0, .warm⟩, ⟨1, 1, .rw, .live, 0, .warm⟩, ⟨0, 0, .rw, .live, 0, .warm⟩]⟩]

/-- Every vendor register with a field table (table 19-1). -/
def regTable : List RegDesc :=
  RegTable.blockAcd ++ RegTable.blockArm ++ RegTable.blockBuf ++ RegTable.blockChn ++ RegTable.blockCpm ++ RegTable.blockCwq ++ RegTable.blockFab ++ RegTable.blockGcs ++ RegTable.blockItg ++ RegTable.blockJnl ++ RegTable.blockLog ++ RegTable.blockMbr ++ RegTable.blockMbx ++ RegTable.blockRst ++ RegTable.blockSil ++ RegTable.blockSns ++ RegTable.blockVlt ++ RegTable.blockXlt

/-- The register that holds BAR2 address `a` (its first byte up to its last), with the instance's own address. -/
def findReg (a : Nat) : List RegDesc → Option (RegDesc × Nat)
  | [] => none
  | r :: rs =>
    if r.base ≤ a then
      let i := if r.stride = 0 then 0 else (a - r.base) / r.stride
      let inst := r.base + i * r.stride
      if i < r.count ∧ a < inst + r.width / 8 then some (r, inst) else findReg a rs
    else findReg a rs

/-- The value of a register right after the reset that restores all its fields. -/
def RegDesc.initValue (r : RegDesc) : Nat :=
  r.fields.foldl (fun v f => v + f.init % 2 ^ (f.hi + 1 - f.lo) * 2 ^ f.lo) 0

/-- What the register instance at address `a` holds after COLD reset and a fresh power-up. -/
def regInit (a : Nat) : DWord :=
  match findReg a regTable with
  | some (r, _) => BitVec.ofNat 64 r.initValue
  | none => 0#64

namespace Reg

/-- ACD_CTRL.CLR_COUNTS -/ def ACD_CTRL_CLR_COUNTS : Fld := ⟨0x220000, 0x0, 3, 3⟩
/-- ACD_CTRL.PEER_RESET -/ def ACD_CTRL_PEER_RESET : Fld := ⟨0x220000, 0x0, 2, 2⟩
/-- ACD_CTRL.RELEASE -/ def ACD_CTRL_RELEASE : Fld := ⟨0x220000, 0x0, 1, 1⟩
/-- ACD_CTRL.FENCE -/ def ACD_CTRL_FENCE : Fld := ⟨0x220000, 0x0, 0, 0⟩
/-- ACD_STATUS.JOIN_ERR -/ def ACD_STATUS_JOIN_ERR : Fld := ⟨0x220004, 0x0, 23, 21⟩
/-- ACD_STATUS.CMD_REFUSED -/ def ACD_STATUS_CMD_REFUSED : Fld := ⟨0x220004, 0x0, 20, 20⟩
/-- ACD_STATUS.LOSS_SEEN -/ def ACD_STATUS_LOSS_SEEN : Fld := ⟨0x220004, 0x0, 19, 19⟩
/-- ACD_STATUS.LINK_DOWN -/ def ACD_STATUS_LINK_DOWN : Fld := ⟨0x220004, 0x0, 18, 18⟩
/-- ACD_STATUS.FENCE_IN -/ def ACD_STATUS_FENCE_IN : Fld := ⟨0x220004, 0x0, 17, 17⟩
/-- ACD_STATUS.FENCE_OUT -/ def ACD_STATUS_FENCE_OUT : Fld := ⟨0x220004, 0x0, 16, 16⟩
/-- ACD_STATUS.LINKS_UP -/ def ACD_STATUS_LINKS_UP : Fld := ⟨0x220004, 0x0, 15, 14⟩
/-- ACD_STATUS.ADOPTED -/ def ACD_STATUS_ADOPTED : Fld := ⟨0x220004, 0x0, 13, 13⟩
/-- ACD_STATUS.MIRROR_VALID -/ def ACD_STATUS_MIRROR_VALID : Fld := ⟨0x220004, 0x0, 12, 12⟩
/-- ACD_STATUS.STEWARD -/ def ACD_STATUS_STEWARD : Fld := ⟨0x220004, 0x0, 11, 11⟩
/-- ACD_STATUS.ROLE -/ def ACD_STATUS_ROLE : Fld := ⟨0x220004, 0x0, 10, 10⟩
/-- ACD_STATUS.STATE -/ def ACD_STATUS_STATE : Fld := ⟨0x220004, 0x0, 2, 0⟩
/-- ACD_CFG.DRAIN_MS -/ def ACD_CFG_DRAIN_MS : Fld := ⟨0x220008, 0x0, 31, 16⟩
/-- ACD_CFG.JOIN_WAIT_S -/ def ACD_CFG_JOIN_WAIT_S : Fld := ⟨0x220008, 0x0, 15, 0⟩
/-- ACD_COUNTS.LOSSES -/ def ACD_COUNTS_LOSSES : Fld := ⟨0x22000c, 0x0, 31, 24⟩
/-- ACD_COUNTS.FENCES_WON -/ def ACD_COUNTS_FENCES_WON : Fld := ⟨0x22000c, 0x0, 23, 16⟩
/-- ACD_COUNTS.BAD_DOORBELLS -/ def ACD_COUNTS_BAD_DOORBELLS : Fld := ⟨0x22000c, 0x0, 15, 8⟩
/-- ACD_COUNTS.MIRROR_BAD -/ def ACD_COUNTS_MIRROR_BAD : Fld := ⟨0x22000c, 0x0, 7, 0⟩
/-- ACD_OWN.POOLS -/ def ACD_OWN_POOLS : Fld := ⟨0x220010, 0x0, 63, 0⟩
/-- ACD_OWN_CMD.POOLS -/ def ACD_OWN_CMD_POOLS : Fld := ⟨0x220018, 0x0, 63, 0⟩
/-- ACD_ACKED.SEQ -/ def ACD_ACKED_SEQ : Fld := ⟨0x220020, 0x0, 63, 0⟩
/-- ACD_PARTNER_HEAD.SEQ -/ def ACD_PARTNER_HEAD_SEQ : Fld := ⟨0x220028, 0x0, 63, 0⟩
/-- ARM_CTRL.SRC_INTERNAL -/ def ARM_CTRL_SRC_INTERNAL : Fld := ⟨0x20000, 0x0, 8, 8⟩
/-- ARM_CTRL.CMD -/ def ARM_CTRL_CMD : Fld := ⟨0x20000, 0x0, 1, 0⟩
/-- ARM_STATUS.CMD_REFUSED -/ def ARM_STATUS_CMD_REFUSED : Fld := ⟨0x20004, 0x0, 9, 9⟩
/-- ARM_STATUS.DONE -/ def ARM_STATUS_DONE : Fld := ⟨0x20004, 0x0, 8, 8⟩
/-- ARM_STATUS.DRAINING -/ def ARM_STATUS_DRAINING : Fld := ⟨0x20004, 0x0, 4, 4⟩
/-- ARM_STATUS.MAQ_STATE -/ def ARM_STATUS_MAQ_STATE : Fld := ⟨0x20004, 0x0, 3, 0⟩
/-- ARM_SRC_ADDR.ADDR -/ def ARM_SRC_ADDR_ADDR : Fld := ⟨0x20008, 0x0, 63, 3⟩
/-- ARM_SRC_LEN.LEN -/ def ARM_SRC_LEN_LEN : Fld := ⟨0x20010, 0x0, 26, 0⟩
/-- ARM_ERROR.CODE -/ def ARM_ERROR_CODE : Fld := ⟨0x20014, 0x0, 31, 16⟩
/-- ARM_ERROR.QUALIFIER -/ def ARM_ERROR_QUALIFIER : Fld := ⟨0x20014, 0x0, 15, 8⟩
/-- ARM_ERROR.SECTION -/ def ARM_ERROR_SECTION : Fld := ⟨0x20014, 0x0, 7, 0⟩
/-- ARM_ERROR_OFFSET.OFFSET -/ def ARM_ERROR_OFFSET_OFFSET : Fld := ⟨0x20018, 0x0, 26, 0⟩
/-- ARM_EPOCH_ACTIVE.EPOCH -/ def ARM_EPOCH_ACTIVE_EPOCH : Fld := ⟨0x2001c, 0x0, 31, 0⟩
/-- ARM_EPOCH_STAGED.EPOCH -/ def ARM_EPOCH_STAGED_EPOCH : Fld := ⟨0x20020, 0x0, 31, 0⟩
/-- ARM_EPOCH_DRAINING.EPOCH -/ def ARM_EPOCH_DRAINING_EPOCH : Fld := ⟨0x20024, 0x0, 31, 0⟩
/-- ARM_DRAIN_COUNT.COUNT -/ def ARM_DRAIN_COUNT_COUNT : Fld := ⟨0x20028, 0x0, 31, 0⟩
/-- ARM_EXC_COUNT.COUNT -/ def ARM_EXC_COUNT_COUNT : Fld := ⟨0x2002c, 0x0, 31, 0⟩
/-- ARM_META_AVAIL.MIB -/ def ARM_META_AVAIL_MIB : Fld := ⟨0x20030, 0x0, 31, 0⟩
/-- BUF_CONFIG.CLAMPED -/ def BUF_CONFIG_CLAMPED : Fld := ⟨0x280000, 0x0, 31, 31⟩
/-- BUF_CONFIG.HOST_GIB -/ def BUF_CONFIG_HOST_GIB : Fld := ⟨0x280000, 0x0, 21, 16⟩
/-- BUF_CONFIG.PA_GIB -/ def BUF_CONFIG_PA_GIB : Fld := ⟨0x280000, 0x0, 12, 8⟩
/-- BUF_CONFIG.CAP_GIB -/ def BUF_CONFIG_CAP_GIB : Fld := ⟨0x280000, 0x0, 7, 0⟩
/-- BUF_STATUS.SCRUB_PAUSED -/ def BUF_STATUS_SCRUB_PAUSED : Fld := ⟨0x280004, 0x0, 2, 2⟩
/-- BUF_STATUS.UE_SEEN -/ def BUF_STATUS_UE_SEEN : Fld := ⟨0x280004, 0x0, 1, 1⟩
/-- BUF_STATUS.INIT_DONE -/ def BUF_STATUS_INIT_DONE : Fld := ⟨0x280004, 0x0, 0, 0⟩
/-- BUF_SCRUB.PASSES -/ def BUF_SCRUB_PASSES : Fld := ⟨0x280008, 0x0, 31, 16⟩
/-- BUF_SCRUB.PERIOD -/ def BUF_SCRUB_PERIOD : Fld := ⟨0x280008, 0x0, 7, 0⟩
/-- BUF_CTRL.CLR_COUNTS -/ def BUF_CTRL_CLR_COUNTS : Fld := ⟨0x28000c, 0x0, 0, 0⟩
/-- BUF_CE_COUNT0.INNER -/ def BUF_CE_COUNT0_INNER : Fld := ⟨0x280010, 0x0, 31, 16⟩
/-- BUF_CE_COUNT0.OUTER -/ def BUF_CE_COUNT0_OUTER : Fld := ⟨0x280010, 0x0, 15, 0⟩
/-- BUF_CE_COUNT1.INNER -/ def BUF_CE_COUNT1_INNER : Fld := ⟨0x280014, 0x0, 31, 16⟩
/-- BUF_CE_COUNT1.OUTER -/ def BUF_CE_COUNT1_OUTER : Fld := ⟨0x280014, 0x0, 15, 0⟩
/-- BUF_UE_COUNT.JOURNAL -/ def BUF_UE_COUNT_JOURNAL : Fld := ⟨0x280018, 0x0, 29, 20⟩
/-- BUF_UE_COUNT.PLACEMENT -/ def BUF_UE_COUNT_PLACEMENT : Fld := ⟨0x280018, 0x0, 19, 10⟩
/-- BUF_UE_COUNT.BULK -/ def BUF_UE_COUNT_BULK : Fld := ⟨0x280018, 0x0, 9, 0⟩
/-- BUF_LAST_UE.CLASS -/ def BUF_LAST_UE_CLASS : Fld := ⟨0x280020, 0x0, 63, 62⟩
/-- BUF_LAST_UE.SOURCE -/ def BUF_LAST_UE_SOURCE : Fld := ⟨0x280020, 0x0, 61, 60⟩
/-- BUF_LAST_UE.LINE -/ def BUF_LAST_UE_LINE : Fld := ⟨0x280020, 0x0, 47, 6⟩
/-- CHN_CTRL.ABORT -/ def CHN_CTRL_ABORT : Fld := ⟨0x80000, 0x100, 31, 31⟩
/-- CHN_CTRL.START -/ def CHN_CTRL_START : Fld := ⟨0x80000, 0x100, 30, 30⟩
/-- CHN_CTRL.CLR_LEVEL -/ def CHN_CTRL_CLR_LEVEL : Fld := ⟨0x80000, 0x100, 29, 29⟩
/-- CHN_CTRL.REC_HBM -/ def CHN_CTRL_REC_HBM : Fld := ⟨0x80000, 0x100, 2, 2⟩
/-- CHN_CTRL.PROG_HBM -/ def CHN_CTRL_PROG_HBM : Fld := ⟨0x80000, 0x100, 1, 1⟩
/-- CHN_CTRL.DIRECT -/ def CHN_CTRL_DIRECT : Fld := ⟨0x80000, 0x100, 0, 0⟩
/-- CHN_STATUS.STATE -/ def CHN_STATUS_STATE : Fld := ⟨0x80004, 0x100, 31, 29⟩
/-- CHN_STATUS.INTERNAL -/ def CHN_STATUS_INTERNAL : Fld := ⟨0x80004, 0x100, 28, 28⟩
/-- CHN_STATUS.START_REFUSED -/ def CHN_STATUS_START_REFUSED : Fld := ⟨0x80004, 0x100, 27, 27⟩
/-- CHN_STATUS.COMPLETED_EARLY -/ def CHN_STATUS_COMPLETED_EARLY : Fld := ⟨0x80004, 0x100, 26, 26⟩
/-- CHN_STATUS.LOOPS -/ def CHN_STATUS_LOOPS : Fld := ⟨0x80004, 0x100, 25, 22⟩
/-- CHN_STATUS.LAST -/ def CHN_STATUS_LAST : Fld := ⟨0x80004, 0x100, 15, 8⟩
/-- CHN_PROG_ADDR.ADDR -/ def CHN_PROG_ADDR_ADDR : Fld := ⟨0x80008, 0x100, 63, 5⟩
/-- CHN_REC_ADDR.ADDR -/ def CHN_REC_ADDR_ADDR : Fld := ⟨0x80010, 0x100, 63, 5⟩
/-- CHN_STAGE.SIZE -/ def CHN_STAGE_SIZE : Fld := ⟨0x80018, 0x100, 25, 16⟩
/-- CHN_STAGE.BASE -/ def CHN_STAGE_BASE : Fld := ⟨0x80018, 0x100, 9, 0⟩
/-- CHN_WDOG.MS -/ def CHN_WDOG_MS : Fld := ⟨0x8001c, 0x100, 19, 0⟩
/-- CHN_IRQ.EN -/ def CHN_IRQ_EN : Fld := ⟨0x80020, 0x100, 31, 31⟩
/-- CHN_IRQ.VECTOR -/ def CHN_IRQ_VECTOR : Fld := ⟨0x80020, 0x100, 10, 0⟩
/-- CHN_EVENTS.FAULT -/ def CHN_EVENTS_FAULT : Fld := ⟨0x80024, 0x100, 4, 4⟩
/-- CHN_EVENTS.END -/ def CHN_EVENTS_END : Fld := ⟨0x80024, 0x100, 3, 3⟩
/-- CHN_EVENTS.USER -/ def CHN_EVENTS_USER : Fld := ⟨0x80024, 0x100, 2, 2⟩
/-- CHN_EVENTS.FULL -/ def CHN_EVENTS_FULL : Fld := ⟨0x80024, 0x100, 1, 1⟩
/-- CHN_EVENTS.HALF -/ def CHN_EVENTS_HALF : Fld := ⟨0x80024, 0x100, 0, 0⟩
/-- CHN_PI.GUARD64 -/ def CHN_PI_GUARD64 : Fld := ⟨0x80028, 0x100, 31, 31⟩
/-- CHN_PI.TYPE -/ def CHN_PI_TYPE : Fld := ⟨0x80028, 0x100, 30, 29⟩
/-- CHN_PI.APP_TAG -/ def CHN_PI_APP_TAG : Fld := ⟨0x80028, 0x100, 15, 0⟩
/-- CHN_LEVEL.VALUE -/ def CHN_LEVEL_VALUE : Fld := ⟨0x8002c, 0x100, 31, 0⟩
/-- CHN_PI_REF.REF -/ def CHN_PI_REF_REF : Fld := ⟨0x80030, 0x100, 47, 0⟩
/-- CHN_PC.PC -/ def CHN_PC_PC : Fld := ⟨0x80038, 0x100, 63, 0⟩
/-- CHN_RESIDUE.VALUE -/ def CHN_RESIDUE_VALUE : Fld := ⟨0x80040, 0x100, 31, 0⟩
/-- CHN_DETAIL.VALUE -/ def CHN_DETAIL_VALUE : Fld := ⟨0x80044, 0x100, 31, 0⟩
/-- CHN_LOOP1.COUNT -/ def CHN_LOOP1_COUNT : Fld := ⟨0x80048, 0x100, 63, 32⟩
/-- CHN_LOOP1.INDEX -/ def CHN_LOOP1_INDEX : Fld := ⟨0x80048, 0x100, 31, 0⟩
/-- CHN_LOOP2.COUNT -/ def CHN_LOOP2_COUNT : Fld := ⟨0x80050, 0x100, 63, 32⟩
/-- CHN_LOOP2.INDEX -/ def CHN_LOOP2_INDEX : Fld := ⟨0x80050, 0x100, 31, 0⟩
/-- CHN_LOOP3.COUNT -/ def CHN_LOOP3_COUNT : Fld := ⟨0x80058, 0x100, 63, 32⟩
/-- CHN_LOOP3.INDEX -/ def CHN_LOOP3_INDEX : Fld := ⟨0x80058, 0x100, 31, 0⟩
/-- CHN_LOOP4.COUNT -/ def CHN_LOOP4_COUNT : Fld := ⟨0x80060, 0x100, 63, 32⟩
/-- CHN_LOOP4.INDEX -/ def CHN_LOOP4_INDEX : Fld := ⟨0x80060, 0x100, 31, 0⟩
/-- CHN_SEM0.VALUE -/ def CHN_SEM0_VALUE : Fld := ⟨0x80068, 0x100, 31, 0⟩
/-- CHN_SEM1.VALUE -/ def CHN_SEM1_VALUE : Fld := ⟨0x8006c, 0x100, 31, 0⟩
/-- CHN_SEM2.VALUE -/ def CHN_SEM2_VALUE : Fld := ⟨0x80070, 0x100, 31, 0⟩
/-- CHN_SEM3.VALUE -/ def CHN_SEM3_VALUE : Fld := ⟨0x80074, 0x100, 31, 0⟩
/-- CHN_USER.VALUE -/ def CHN_USER_VALUE : Fld := ⟨0x80078, 0x100, 63, 0⟩
/-- CPM_CTRL.CLR_COUNTS -/ def CPM_CTRL_CLR_COUNTS : Fld := ⟨0x250000, 0x0, 0, 0⟩
/-- CPM_STATUS.AVS_ERR -/ def CPM_STATUS_AVS_ERR : Fld := ⟨0x250004, 0x0, 8, 8⟩
/-- CPM_STATUS.PCAP_ACTIVE -/ def CPM_STATUS_PCAP_ACTIVE : Fld := ⟨0x250004, 0x0, 7, 7⟩
/-- CPM_STATUS.PSTATE -/ def CPM_STATUS_PSTATE : Fld := ⟨0x250004, 0x0, 6, 4⟩
/-- CPM_STATUS.LEVEL -/ def CPM_STATUS_LEVEL : Fld := ⟨0x250004, 0x0, 1, 0⟩
/-- CPM_PD_STATE.ON -/ def CPM_PD_STATE_ON : Fld := ⟨0x250008, 0x0, 29, 0⟩
/-- CPM_CLK_STATE.ON -/ def CPM_CLK_STATE_ON : Fld := ⟨0x25000c, 0x0, 17, 0⟩
/-- CPM_THERM.HOT_ID -/ def CPM_THERM_HOT_ID : Fld := ⟨0x250010, 0x0, 28, 24⟩
/-- CPM_THERM.HOT_C -/ def CPM_THERM_HOT_C : Fld := ⟨0x250010, 0x0, 23, 16⟩
/-- CPM_THERM.THR_C -/ def CPM_THERM_THR_C : Fld := ⟨0x250010, 0x0, 7, 0⟩
/-- CPM_PCAP.WATTS -/ def CPM_PCAP_WATTS : Fld := ⟨0x250014, 0x0, 7, 0⟩
/-- CPM_POWER.POWER_PEAK -/ def CPM_POWER_POWER_PEAK : Fld := ⟨0x250018, 0x0, 31, 18⟩
/-- CPM_POWER.POWER_MW -/ def CPM_POWER_POWER_MW : Fld := ⟨0x250018, 0x0, 17, 0⟩
/-- CPM_VCD.MV -/ def CPM_VCD_MV : Fld := ⟨0x25001c, 0x0, 9, 0⟩
/-- CPM_COUNTS.ENTRIES -/ def CPM_COUNTS_ENTRIES : Fld := ⟨0x250020, 0x0, 31, 16⟩
/-- CPM_COUNTS.LEVEL3 -/ def CPM_COUNTS_LEVEL3 : Fld := ⟨0x250020, 0x0, 15, 8⟩
/-- CPM_COUNTS.PCAP -/ def CPM_COUNTS_PCAP : Fld := ⟨0x250020, 0x0, 7, 0⟩
/-- CPM_THROTTLE_MS.MS -/ def CPM_THROTTLE_MS_MS : Fld := ⟨0x250028, 0x0, 63, 0⟩
/-- CWQ_SQ_CTRL.ENABLE -/ def CWQ_SQ_CTRL_ENABLE : Fld := ⟨0xa0000, 0x40, 31, 31⟩
/-- CWQ_SQ_CTRL.RESET_IDX -/ def CWQ_SQ_CTRL_RESET_IDX : Fld := ⟨0xa0000, 0x40, 30, 30⟩
/-- CWQ_SQ_CTRL.SIZE_LOG2 -/ def CWQ_SQ_CTRL_SIZE_LOG2 : Fld := ⟨0xa0000, 0x40, 20, 16⟩
/-- CWQ_SQ_CTRL.CQ -/ def CWQ_SQ_CTRL_CQ : Fld := ⟨0xa0000, 0x40, 7, 0⟩
/-- CWQ_SQ_STATUS.STATE -/ def CWQ_SQ_STATUS_STATE : Fld := ⟨0xa0004, 0x40, 31, 29⟩
/-- CWQ_SQ_STATUS.ERR -/ def CWQ_SQ_STATUS_ERR : Fld := ⟨0xa0004, 0x40, 23, 16⟩
/-- CWQ_SQ_STATUS.ACTIVE -/ def CWQ_SQ_STATUS_ACTIVE : Fld := ⟨0xa0004, 0x40, 9, 0⟩
/-- CWQ_SQ_BASE.ADDR -/ def CWQ_SQ_BASE_ADDR : Fld := ⟨0xa0008, 0x40, 63, 12⟩
/-- CWQ_SQ_WB.ADDR -/ def CWQ_SQ_WB_ADDR : Fld := ⟨0xa0010, 0x40, 63, 3⟩
/-- CWQ_SQ_ARB.WEIGHT -/ def CWQ_SQ_ARB_WEIGHT : Fld := ⟨0xa0018, 0x40, 23, 16⟩
/-- CWQ_SQ_ARB.BURST -/ def CWQ_SQ_ARB_BURST : Fld := ⟨0xa0018, 0x40, 7, 0⟩
/-- CWQ_SQ_HEAD.INDEX -/ def CWQ_SQ_HEAD_INDEX : Fld := ⟨0xa001c, 0x40, 16, 0⟩
/-- CWQ_SQ_TAIL.INDEX -/ def CWQ_SQ_TAIL_INDEX : Fld := ⟨0xa0020, 0x40, 16, 0⟩
/-- CWQ_SQ_ABORT.CMD_ID -/ def CWQ_SQ_ABORT_CMD_ID : Fld := ⟨0xa0024, 0x40, 15, 0⟩
/-- CWQ_SQ_ABORT_RES.RESULT -/ def CWQ_SQ_ABORT_RES_RESULT : Fld := ⟨0xa0028, 0x40, 31, 29⟩
/-- CWQ_SQ_ABORT_RES.CMD_ID -/ def CWQ_SQ_ABORT_RES_CMD_ID : Fld := ⟨0xa0028, 0x40, 15, 0⟩
/-- CWQ_CQ_CTRL.ENABLE -/ def CWQ_CQ_CTRL_ENABLE : Fld := ⟨0xb0000, 0x40, 31, 31⟩
/-- CWQ_CQ_CTRL.IEN -/ def CWQ_CQ_CTRL_IEN : Fld := ⟨0xb0000, 0x40, 30, 30⟩
/-- CWQ_CQ_CTRL.SIZE_LOG2 -/ def CWQ_CQ_CTRL_SIZE_LOG2 : Fld := ⟨0xb0000, 0x40, 20, 16⟩
/-- CWQ_CQ_CTRL.VECTOR -/ def CWQ_CQ_CTRL_VECTOR : Fld := ⟨0xb0000, 0x40, 10, 0⟩
/-- CWQ_CQ_STATUS.FULL -/ def CWQ_CQ_STATUS_FULL : Fld := ⟨0xb0004, 0x40, 31, 31⟩
/-- CWQ_CQ_STATUS.FULL_SEEN -/ def CWQ_CQ_STATUS_FULL_SEEN : Fld := ⟨0xb0004, 0x40, 30, 30⟩
/-- CWQ_CQ_STATUS.WAITING -/ def CWQ_CQ_STATUS_WAITING : Fld := ⟨0xb0004, 0x40, 9, 0⟩
/-- CWQ_CQ_BASE.ADDR -/ def CWQ_CQ_BASE_ADDR : Fld := ⟨0xb0008, 0x40, 63, 12⟩
/-- CWQ_CQ_MOD.TIME_US -/ def CWQ_CQ_MOD_TIME_US : Fld := ⟨0xb0010, 0x40, 25, 16⟩
/-- CWQ_CQ_MOD.COUNT -/ def CWQ_CQ_MOD_COUNT : Fld := ⟨0xb0010, 0x40, 7, 0⟩
/-- CWQ_CQ_TAIL.INDEX -/ def CWQ_CQ_TAIL_INDEX : Fld := ⟨0xb0014, 0x40, 16, 0⟩
/-- CWQ_CQ_HEAD.INDEX -/ def CWQ_CQ_HEAD_INDEX : Fld := ⟨0xb0018, 0x40, 16, 0⟩
/-- CWQ_CQ_SEQ.SEQ -/ def CWQ_CQ_SEQ_SEQ : Fld := ⟨0xb001c, 0x40, 31, 0⟩
/-- CWQ_GCTRL.WB_US -/ def CWQ_GCTRL_WB_US : Fld := ⟨0xb8000, 0x0, 7, 0⟩
/-- CWQ_GSTATUS.HELD -/ def CWQ_GSTATUS_HELD : Fld := ⟨0xb8004, 0x0, 9, 0⟩
/-- CWQ_TIME.US -/ def CWQ_TIME_US : Fld := ⟨0xb80b0, 0x0, 31, 0⟩
/-- CWQ_DROPPED.COUNT -/ def CWQ_DROPPED_COUNT : Fld := ⟨0xb80b4, 0x0, 31, 0⟩
/-- CWQ_SQ_OWNER.OWNER -/ def CWQ_SQ_OWNER_OWNER : Fld := ⟨0xb8010, 0x4, 31, 0⟩
/-- CWQ_CQ_OWNER.OWNER -/ def CWQ_CQ_OWNER_OWNER : Fld := ⟨0xb8090, 0x4, 31, 0⟩
/-- FAB_CTRL.CLR_COUNTS -/ def FAB_CTRL_CLR_COUNTS : Fld := ⟨0x60000, 0x0, 0, 0⟩
/-- FAB_STATUS.REGION_ON -/ def FAB_STATUS_REGION_ON : Fld := ⟨0x60004, 0x0, 31, 24⟩
/-- FAB_STATUS.PLL_RUN -/ def FAB_STATUS_PLL_RUN : Fld := ⟨0x60004, 0x0, 23, 22⟩
/-- FAB_STATUS.DIE_OFFLINE -/ def FAB_STATUS_DIE_OFFLINE : Fld := ⟨0x60004, 0x0, 21, 20⟩
/-- FAB_STATUS.EXHAUSTED_SEEN -/ def FAB_STATUS_EXHAUSTED_SEEN : Fld := ⟨0x60004, 0x0, 17, 17⟩
/-- FAB_STATUS.UNIT_RETIRED_SEEN -/ def FAB_STATUS_UNIT_RETIRED_SEEN : Fld := ⟨0x60004, 0x0, 16, 16⟩
/-- FAB_STATUS.UNITS -/ def FAB_STATUS_UNITS : Fld := ⟨0x60004, 0x0, 8, 0⟩
/-- FAB_SLEEP.NO_SLEEP -/ def FAB_SLEEP_NO_SLEEP : Fld := ⟨0x60008, 0x0, 31, 31⟩
/-- FAB_SLEEP.REGION_HOLD_US -/ def FAB_SLEEP_REGION_HOLD_US : Fld := ⟨0x60008, 0x0, 23, 8⟩
/-- FAB_SLEEP.CLUSTER_HOLD_US -/ def FAB_SLEEP_CLUSTER_HOLD_US : Fld := ⟨0x60008, 0x0, 7, 0⟩
/-- FAB_WATCH.MASK -/ def FAB_WATCH_MASK : Fld := ⟨0x6000c, 0x0, 7, 0⟩
/-- FAB_INTCH.COUNT -/ def FAB_INTCH_COUNT : Fld := ⟨0x60010, 0x0, 3, 0⟩
/-- FAB_UNIT_CMD.OP -/ def FAB_UNIT_CMD_OP : Fld := ⟨0x60014, 0x0, 31, 28⟩
/-- FAB_UNIT_CMD.UNIT -/ def FAB_UNIT_CMD_UNIT : Fld := ⟨0x60014, 0x0, 7, 0⟩
/-- FAB_SEL.REGION -/ def FAB_SEL_REGION : Fld := ⟨0x60018, 0x0, 2, 0⟩
/-- FAB_REGION_STATS.WAKES -/ def FAB_REGION_STATS_WAKES : Fld := ⟨0x6001c, 0x0, 31, 16⟩
/-- FAB_REGION_STATS.READ_WAKES -/ def FAB_REGION_STATS_READ_WAKES : Fld := ⟨0x6001c, 0x0, 15, 0⟩
/-- FAB_ELB_HITS.COUNT -/ def FAB_ELB_HITS_COUNT : Fld := ⟨0x60040, 0x0, 63, 0⟩
/-- FAB_ELB_MISSES.COUNT -/ def FAB_ELB_MISSES_COUNT : Fld := ⟨0x60048, 0x0, 63, 0⟩
/-- FAB_ELB_EVENTS.POISONED -/ def FAB_ELB_EVENTS_POISONED : Fld := ⟨0x60050, 0x0, 31, 16⟩
/-- FAB_ELB_EVENTS.DATA_ERRS -/ def FAB_ELB_EVENTS_DATA_ERRS : Fld := ⟨0x60050, 0x0, 15, 0⟩
/-- GCS_ID.PART -/ def GCS_ID_PART : Fld := ⟨0x10000, 0x0, 31, 16⟩
/-- GCS_ID.VARIANT -/ def GCS_ID_VARIANT : Fld := ⟨0x10000, 0x0, 8, 8⟩
/-- GCS_ID.REVISION -/ def GCS_ID_REVISION : Fld := ⟨0x10000, 0x0, 7, 0⟩
/-- GCS_STATUS.IS_PRIMARY -/ def GCS_STATUS_IS_PRIMARY : Fld := ⟨0x10004, 0x0, 2, 2⟩
/-- GCS_STATUS.REQUESTER -/ def GCS_STATUS_REQUESTER : Fld := ⟨0x10004, 0x0, 1, 0⟩
/-- GCS_IGNORED_WRITES.COUNT -/ def GCS_IGNORED_WRITES_COUNT : Fld := ⟨0x10008, 0x0, 31, 0⟩
/-- GCS_SCRATCH.VALUE -/ def GCS_SCRATCH_VALUE : Fld := ⟨0x1000c, 0x0, 31, 0⟩
/-- GCS_LAST_IGNORED.SOURCE -/ def GCS_LAST_IGNORED_SOURCE : Fld := ⟨0x10010, 0x0, 63, 62⟩
/-- GCS_LAST_IGNORED.WIDTH -/ def GCS_LAST_IGNORED_WIDTH : Fld := ⟨0x10010, 0x0, 61, 61⟩
/-- GCS_LAST_IGNORED.INTERNAL -/ def GCS_LAST_IGNORED_INTERNAL : Fld := ⟨0x10010, 0x0, 60, 60⟩
/-- GCS_LAST_IGNORED.OFFSET -/ def GCS_LAST_IGNORED_OFFSET : Fld := ⟨0x10010, 0x0, 47, 0⟩
/-- GCS_SERIAL.SERIAL -/ def GCS_SERIAL_SERIAL : Fld := ⟨0x10018, 0x0, 63, 0⟩
/-- ITG_CTRL.CLR_COUNTS -/ def ITG_CTRL_CLR_COUNTS : Fld := ⟨0x50000, 0x0, 0, 0⟩
/-- ITG_STATUS.FREE_SLOTS -/ def ITG_STATUS_FREE_SLOTS : Fld := ⟨0x50004, 0x0, 26, 16⟩
/-- ITG_STATUS.KEY_WAIT -/ def ITG_STATUS_KEY_WAIT : Fld := ⟨0x50004, 0x0, 3, 3⟩
/-- ITG_STATUS.PI_ERR_SEEN -/ def ITG_STATUS_PI_ERR_SEEN : Fld := ⟨0x50004, 0x0, 2, 2⟩
/-- ITG_STATUS.TAG_ERR_SEEN -/ def ITG_STATUS_TAG_ERR_SEEN : Fld := ⟨0x50004, 0x0, 1, 1⟩
/-- ITG_STATUS.INITIALISING -/ def ITG_STATUS_INITIALISING : Fld := ⟨0x50004, 0x0, 0, 0⟩
/-- ITG_KEY_SEL.SLOT -/ def ITG_KEY_SEL_SLOT : Fld := ⟨0x50008, 0x0, 9, 0⟩
/-- ITG_KEY_STATE.STATE -/ def ITG_KEY_STATE_STATE : Fld := ⟨0x5000c, 0x0, 31, 30⟩
/-- ITG_KEY_STATE.NSID -/ def ITG_KEY_STATE_NSID : Fld := ⟨0x5000c, 0x0, 25, 16⟩
/-- ITG_KEY_STATE.BINDS -/ def ITG_KEY_STATE_BINDS : Fld := ⟨0x5000c, 0x0, 15, 0⟩
/-- ITG_TAG_ERRS.CRC -/ def ITG_TAG_ERRS_CRC : Fld := ⟨0x50010, 0x0, 31, 16⟩
/-- ITG_TAG_ERRS.IDENTITY -/ def ITG_TAG_ERRS_IDENTITY : Fld := ⟨0x50010, 0x0, 15, 8⟩
/-- ITG_TAG_ERRS.ROLE -/ def ITG_TAG_ERRS_ROLE : Fld := ⟨0x50010, 0x0, 7, 0⟩
/-- ITG_PI_ERRS.GUARD -/ def ITG_PI_ERRS_GUARD : Fld := ⟨0x50014, 0x0, 31, 16⟩
/-- ITG_PI_ERRS.APP -/ def ITG_PI_ERRS_APP : Fld := ⟨0x50014, 0x0, 15, 8⟩
/-- ITG_PI_ERRS.REF -/ def ITG_PI_ERRS_REF : Fld := ⟨0x50014, 0x0, 7, 0⟩
/-- ITG_LAST_TAG_ERR.KIND -/ def ITG_LAST_TAG_ERR_KIND : Fld := ⟨0x50018, 0x0, 63, 62⟩
/-- ITG_LAST_TAG_ERR.MEMBER -/ def ITG_LAST_TAG_ERR_MEMBER : Fld := ⟨0x50018, 0x0, 61, 51⟩
/-- ITG_LAST_TAG_ERR.LBA -/ def ITG_LAST_TAG_ERR_LBA : Fld := ⟨0x50018, 0x0, 47, 0⟩
/-- ITG_SCRUB_FIND.TAG_REPAIRED -/ def ITG_SCRUB_FIND_TAG_REPAIRED : Fld := ⟨0x50020, 0x0, 63, 48⟩
/-- ITG_SCRUB_FIND.PARITY_REPAIRED -/ def ITG_SCRUB_FIND_PARITY_REPAIRED : Fld := ⟨0x50020, 0x0, 47, 32⟩
/-- ITG_SCRUB_FIND.ANCHOR -/ def ITG_SCRUB_FIND_ANCHOR : Fld := ⟨0x50020, 0x0, 31, 16⟩
/-- ITG_SCRUB_FIND.UNRECOV -/ def ITG_SCRUB_FIND_UNRECOV : Fld := ⟨0x50020, 0x0, 15, 0⟩
/-- ITG_INIT_SEL.POOL -/ def ITG_INIT_SEL_POOL : Fld := ⟨0x50028, 0x0, 5, 0⟩
/-- ITG_INIT_PROGRESS.ACTIVE -/ def ITG_INIT_PROGRESS_ACTIVE : Fld := ⟨0x5002c, 0x0, 31, 31⟩
/-- ITG_INIT_PROGRESS.PERCENT -/ def ITG_INIT_PROGRESS_PERCENT : Fld := ⟨0x5002c, 0x0, 6, 0⟩
/-- JNL_CTRL.CKPT_NOW -/ def JNL_CTRL_CKPT_NOW : Fld := ⟨0x30000, 0x0, 1, 1⟩
/-- JNL_CTRL.BARRIER -/ def JNL_CTRL_BARRIER : Fld := ⟨0x30000, 0x0, 0, 0⟩
/-- JNL_STATUS.LOCK_SET_FULL -/ def JNL_STATUS_LOCK_SET_FULL : Fld := ⟨0x30004, 0x0, 11, 11⟩
/-- JNL_STATUS.FULL_SEEN -/ def JNL_STATUS_FULL_SEEN : Fld := ⟨0x30004, 0x0, 10, 10⟩
/-- JNL_STATUS.BARRIER_DONE -/ def JNL_STATUS_BARRIER_DONE : Fld := ⟨0x30004, 0x0, 9, 9⟩
/-- JNL_STATUS.CKPT_FAIL -/ def JNL_STATUS_CKPT_FAIL : Fld := ⟨0x30004, 0x0, 8, 8⟩
/-- JNL_STATUS.URGENT -/ def JNL_STATUS_URGENT : Fld := ⟨0x30004, 0x0, 4, 4⟩
/-- JNL_STATUS.DRYING -/ def JNL_STATUS_DRYING : Fld := ⟨0x30004, 0x0, 3, 3⟩
/-- JNL_STATUS.BARRIER_PENDING -/ def JNL_STATUS_BARRIER_PENDING : Fld := ⟨0x30004, 0x0, 2, 2⟩
/-- JNL_STATUS.STATE -/ def JNL_STATUS_STATE : Fld := ⟨0x30004, 0x0, 1, 0⟩
/-- JNL_DRY_CFG.HIGH_WATER -/ def JNL_DRY_CFG_HIGH_WATER : Fld := ⟨0x30008, 0x0, 31, 24⟩
/-- JNL_DRY_CFG.DRY_START -/ def JNL_DRY_CFG_DRY_START : Fld := ⟨0x30008, 0x0, 23, 16⟩
/-- JNL_DRY_CFG.IDLE_US -/ def JNL_DRY_CFG_IDLE_US : Fld := ⟨0x30008, 0x0, 15, 0⟩
/-- JNL_DRY_LIMITS.SETTLE_US -/ def JNL_DRY_LIMITS_SETTLE_US : Fld := ⟨0x3000c, 0x0, 31, 16⟩
/-- JNL_DRY_LIMITS.FORCE_REWRITE -/ def JNL_DRY_LIMITS_FORCE_REWRITE : Fld := ⟨0x3000c, 0x0, 15, 15⟩
/-- JNL_DRY_LIMITS.MAX_INFLIGHT -/ def JNL_DRY_LIMITS_MAX_INFLIGHT : Fld := ⟨0x3000c, 0x0, 12, 0⟩
/-- JNL_CKPT_CFG.INTERVAL_MS -/ def JNL_CKPT_CFG_INTERVAL_MS : Fld := ⟨0x30010, 0x0, 15, 0⟩
/-- JNL_OCCUPANCY.PEAK -/ def JNL_OCCUPANCY_PEAK : Fld := ⟨0x30014, 0x0, 22, 16⟩
/-- JNL_OCCUPANCY.PERCENT -/ def JNL_OCCUPANCY_PERCENT : Fld := ⟨0x30014, 0x0, 6, 0⟩
/-- JNL_HEAD_SEQ.SEQ -/ def JNL_HEAD_SEQ_SEQ : Fld := ⟨0x30018, 0x0, 63, 0⟩
/-- JNL_TAIL_SEQ.SEQ -/ def JNL_TAIL_SEQ_SEQ : Fld := ⟨0x30020, 0x0, 63, 0⟩
/-- JNL_BARRIER_SEQ.SEQ -/ def JNL_BARRIER_SEQ_SEQ : Fld := ⟨0x30028, 0x0, 63, 0⟩
/-- JNL_LOCKS.WAITING -/ def JNL_LOCKS_WAITING : Fld := ⟨0x30030, 0x0, 31, 19⟩
/-- JNL_LOCKS.IN_USE -/ def JNL_LOCKS_IN_USE : Fld := ⟨0x30030, 0x0, 18, 0⟩
/-- JNL_LOST_COUNT.RANGES -/ def JNL_LOST_COUNT_RANGES : Fld := ⟨0x30034, 0x0, 12, 0⟩
/-- JNL_HDR_SLOTS.COUNT -/ def JNL_HDR_SLOTS_COUNT : Fld := ⟨0x30038, 0x0, 31, 0⟩
/-- JNL_PAY_BLOCKS.COUNT -/ def JNL_PAY_BLOCKS_COUNT : Fld := ⟨0x3003c, 0x0, 31, 0⟩
/-- JNL_REPLAY_DISCARDS.COUNT -/ def JNL_REPLAY_DISCARDS_COUNT : Fld := ⟨0x30040, 0x0, 31, 0⟩
/-- LOG_CTRL.IRQ_EN -/ def LOG_CTRL_IRQ_EN : Fld := ⟨0x270000, 0x0, 31, 31⟩
/-- LOG_CTRL.FLUSH -/ def LOG_CTRL_FLUSH : Fld := ⟨0x270000, 0x0, 30, 30⟩
/-- LOG_CTRL.IRQ_SEV -/ def LOG_CTRL_IRQ_SEV : Fld := ⟨0x270000, 0x0, 26, 24⟩
/-- LOG_CTRL.VECTOR -/ def LOG_CTRL_VECTOR : Fld := ⟨0x270000, 0x0, 10, 0⟩
/-- LOG_STATUS.SEEN -/ def LOG_STATUS_SEEN : Fld := ⟨0x270004, 0x0, 31, 31⟩
/-- LOG_STATUS.TAIL_USED -/ def LOG_STATUS_TAIL_USED : Fld := ⟨0x270004, 0x0, 12, 0⟩
/-- LOG_FIRST_SEQ.VALUE -/ def LOG_FIRST_SEQ_VALUE : Fld := ⟨0x270008, 0x0, 63, 0⟩
/-- LOG_NEXT_SEQ.VALUE -/ def LOG_NEXT_SEQ_VALUE : Fld := ⟨0x270010, 0x0, 63, 0⟩
/-- LOG_DROPPED.VALUE -/ def LOG_DROPPED_VALUE : Fld := ⟨0x270018, 0x0, 31, 0⟩
/-- MBR_CTRL.DISC_INTERNAL -/ def MBR_CTRL_DISC_INTERNAL : Fld := ⟨0x210000, 0x0, 3, 3⟩
/-- MBR_CTRL.CLR_COUNTS -/ def MBR_CTRL_CLR_COUNTS : Fld := ⟨0x210000, 0x0, 2, 2⟩
/-- MBR_CTRL.DISC_DUMP -/ def MBR_CTRL_DISC_DUMP : Fld := ⟨0x210000, 0x0, 1, 1⟩
/-- MBR_CTRL.RESCAN -/ def MBR_CTRL_RESCAN : Fld := ⟨0x210000, 0x0, 0, 0⟩
/-- MBR_STATUS.FMT_ERR -/ def MBR_STATUS_FMT_ERR : Fld := ⟨0x210004, 0x0, 7, 7⟩
/-- MBR_STATUS.FMT_BUSY -/ def MBR_STATUS_FMT_BUSY : Fld := ⟨0x210004, 0x0, 6, 6⟩
/-- MBR_STATUS.CMD_REFUSED -/ def MBR_STATUS_CMD_REFUSED : Fld := ⟨0x210004, 0x0, 5, 5⟩
/-- MBR_STATUS.DISC_TRUNC -/ def MBR_STATUS_DISC_TRUNC : Fld := ⟨0x210004, 0x0, 4, 4⟩
/-- MBR_STATUS.DISC_ERR -/ def MBR_STATUS_DISC_ERR : Fld := ⟨0x210004, 0x0, 3, 3⟩
/-- MBR_STATUS.DISC_DONE -/ def MBR_STATUS_DISC_DONE : Fld := ⟨0x210004, 0x0, 2, 2⟩
/-- MBR_STATUS.ENUM_DONE -/ def MBR_STATUS_ENUM_DONE : Fld := ⟨0x210004, 0x0, 0, 0⟩
/-- MBR_TIMEOUT.ROT_MS -/ def MBR_TIMEOUT_ROT_MS : Fld := ⟨0x210008, 0x0, 31, 16⟩
/-- MBR_TIMEOUT.FLASH_MS -/ def MBR_TIMEOUT_FLASH_MS : Fld := ⟨0x210008, 0x0, 15, 0⟩
/-- MBR_QD.ROT_QD -/ def MBR_QD_ROT_QD : Fld := ⟨0x21000c, 0x0, 23, 16⟩
/-- MBR_QD.FLASH_QD -/ def MBR_QD_FLASH_QD : Fld := ⟨0x21000c, 0x0, 7, 0⟩
/-- MBR_PWR_CFG.AUTO -/ def MBR_PWR_CFG_AUTO : Fld := ⟨0x210010, 0x0, 31, 31⟩
/-- MBR_PWR_CFG.BATCH -/ def MBR_PWR_CFG_BATCH : Fld := ⟨0x210010, 0x0, 23, 16⟩
/-- MBR_PWR_CFG.INTERVAL_MS -/ def MBR_PWR_CFG_INTERVAL_MS : Fld := ⟨0x210010, 0x0, 15, 0⟩
/-- MBR_SLOT_CMD.OP -/ def MBR_SLOT_CMD_OP : Fld := ⟨0x210014, 0x0, 31, 30⟩
/-- MBR_SLOT_CMD.KIND -/ def MBR_SLOT_CMD_KIND : Fld := ⟨0x210014, 0x0, 29, 29⟩
/-- MBR_SLOT_CMD.TARGET -/ def MBR_SLOT_CMD_TARGET : Fld := ⟨0x210014, 0x0, 10, 0⟩
/-- MBR_SLOT_PWR.ON -/ def MBR_SLOT_PWR_ON : Fld := ⟨0x210018, 0x0, 47, 0⟩
/-- MBR_GPIO_OUT.PINS -/ def MBR_GPIO_OUT_PINS : Fld := ⟨0x210020, 0x0, 31, 0⟩
/-- MBR_GPIO_OE.PINS -/ def MBR_GPIO_OE_PINS : Fld := ⟨0x210024, 0x0, 31, 0⟩
/-- MBR_GPIO_IN.PINS -/ def MBR_GPIO_IN_PINS : Fld := ⟨0x210028, 0x0, 31, 0⟩
/-- MBR_LINK_SEL.LINK -/ def MBR_LINK_SEL_LINK : Fld := ⟨0x21002c, 0x0, 5, 0⟩
/-- MBR_LINK_STATE.PRESENT -/ def MBR_LINK_STATE_PRESENT : Fld := ⟨0x210030, 0x0, 31, 31⟩
/-- MBR_LINK_STATE.EXISTS -/ def MBR_LINK_STATE_EXISTS : Fld := ⟨0x210030, 0x0, 30, 30⟩
/-- MBR_LINK_STATE.NAMESPACES -/ def MBR_LINK_STATE_NAMESPACES : Fld := ⟨0x210030, 0x0, 27, 16⟩
/-- MBR_LINK_STATE.LINK_UP -/ def MBR_LINK_STATE_LINK_UP : Fld := ⟨0x210030, 0x0, 11, 11⟩
/-- MBR_LINK_STATE.FLIT -/ def MBR_LINK_STATE_FLIT : Fld := ⟨0x210030, 0x0, 10, 10⟩
/-- MBR_LINK_STATE.WIDTH -/ def MBR_LINK_STATE_WIDTH : Fld := ⟨0x210030, 0x0, 9, 4⟩
/-- MBR_LINK_STATE.SPEED -/ def MBR_LINK_STATE_SPEED : Fld := ⟨0x210030, 0x0, 3, 0⟩
/-- MBR_DISC_COUNT.COUNT -/ def MBR_DISC_COUNT_COUNT : Fld := ⟨0x210034, 0x0, 12, 0⟩
/-- MBR_DISC_ADDR.ADDR -/ def MBR_DISC_ADDR_ADDR : Fld := ⟨0x210038, 0x0, 63, 6⟩
/-- MBR_ERRORS.LATE -/ def MBR_ERRORS_LATE : Fld := ⟨0x210040, 0x0, 31, 16⟩
/-- MBR_ERRORS.ESCALATIONS -/ def MBR_ERRORS_ESCALATIONS : Fld := ⟨0x210040, 0x0, 15, 8⟩
/-- MBR_ERRORS.STRAY -/ def MBR_ERRORS_STRAY : Fld := ⟨0x210040, 0x0, 7, 0⟩
/-- MBR_FMT_CMD.META16 -/ def MBR_FMT_CMD_META16 : Fld := ⟨0x210044, 0x0, 31, 31⟩
/-- MBR_FMT_CMD.ORDINAL -/ def MBR_FMT_CMD_ORDINAL : Fld := ⟨0x210044, 0x0, 11, 0⟩
/-- MBR_MODES.MODE -/ def MBR_MODES_MODE : Fld := ⟨0x210048, 0x0, 11, 0⟩
/-- MBX_CMD.GO -/ def MBX_CMD_GO : Fld := ⟨0x260000, 0x0, 31, 31⟩
/-- MBX_CMD.OPCODE -/ def MBX_CMD_OPCODE : Fld := ⟨0x260000, 0x0, 23, 16⟩
/-- MBX_CMD.LEN -/ def MBX_CMD_LEN : Fld := ⟨0x260000, 0x0, 12, 0⟩
/-- MBX_STATUS.BUSY -/ def MBX_STATUS_BUSY : Fld := ⟨0x260004, 0x0, 31, 31⟩
/-- MBX_STATUS.DONE -/ def MBX_STATUS_DONE : Fld := ⟨0x260004, 0x0, 30, 30⟩
/-- MBX_STATUS.CORE_UP -/ def MBX_STATUS_CORE_UP : Fld := ⟨0x260004, 0x0, 29, 29⟩
/-- MBX_STATUS.RECOVERY -/ def MBX_STATUS_RECOVERY : Fld := ⟨0x260004, 0x0, 28, 28⟩
/-- MBX_STATUS.STATUS -/ def MBX_STATUS_STATUS : Fld := ⟨0x260004, 0x0, 23, 16⟩
/-- MBX_STATUS.OUT_LEN -/ def MBX_STATUS_OUT_LEN : Fld := ⟨0x260004, 0x0, 12, 0⟩
/-- MBX_IRQ.EN -/ def MBX_IRQ_EN : Fld := ⟨0x260008, 0x0, 31, 31⟩
/-- MBX_IRQ.VECTOR -/ def MBX_IRQ_VECTOR : Fld := ⟨0x260008, 0x0, 10, 0⟩
/-- MBX_ARG.VALUE -/ def MBX_ARG_VALUE : Fld := ⟨0x260010, 0x0, 63, 0⟩
/-- MBX_RESULT.VALUE -/ def MBX_RESULT_VALUE : Fld := ⟨0x260018, 0x0, 63, 0⟩
/-- MBX_FW_REV.VALUE -/ def MBX_FW_REV_VALUE : Fld := ⟨0x260020, 0x0, 63, 0⟩
/-- RST_CTRL.OP -/ def RST_CTRL_OP : Fld := ⟨0x240000, 0x0, 31, 30⟩
/-- RST_CTRL.CLR_HIST -/ def RST_CTRL_CLR_HIST : Fld := ⟨0x240000, 0x0, 29, 29⟩
/-- RST_CTRL.KEY -/ def RST_CTRL_KEY : Fld := ⟨0x240000, 0x0, 15, 0⟩
/-- RST_STATUS.CMD_REFUSED -/ def RST_STATUS_CMD_REFUSED : Fld := ⟨0x240004, 0x0, 9, 9⟩
/-- RST_STATUS.BKP_LOST -/ def RST_STATUS_BKP_LOST : Fld := ⟨0x240004, 0x0, 8, 8⟩
/-- RST_STATUS.OPTIONS_DEFAULTED -/ def RST_STATUS_OPTIONS_DEFAULTED : Fld := ⟨0x240004, 0x0, 4, 4⟩
/-- RST_STATUS.COPY_B_BAD -/ def RST_STATUS_COPY_B_BAD : Fld := ⟨0x240004, 0x0, 3, 3⟩
/-- RST_STATUS.COPY_A_BAD -/ def RST_STATUS_COPY_A_BAD : Fld := ⟨0x240004, 0x0, 2, 2⟩
/-- RST_STATUS.COPY_USED -/ def RST_STATUS_COPY_USED : Fld := ⟨0x240004, 0x0, 1, 1⟩
/-- RST_STATUS.OPT_VALID -/ def RST_STATUS_OPT_VALID : Fld := ⟨0x240004, 0x0, 0, 0⟩
/-- RST_COUNT.COUNT -/ def RST_COUNT_COUNT : Fld := ⟨0x240008, 0x0, 31, 0⟩
/-- RST_ACTIVE.SOURCES -/ def RST_ACTIVE_SOURCES : Fld := ⟨0x24000c, 0x0, 31, 0⟩
/-- RST_BLOCK_CMD.LEVEL -/ def RST_BLOCK_CMD_LEVEL : Fld := ⟨0x240010, 0x0, 31, 29⟩
/-- RST_BLOCK_CMD.TARGET -/ def RST_BLOCK_CMD_TARGET : Fld := ⟨0x240010, 0x0, 7, 0⟩
/-- RST_BLOCK_LAST.SOURCE -/ def RST_BLOCK_LAST_SOURCE : Fld := ⟨0x240014, 0x0, 31, 27⟩
/-- RST_BLOCK_LAST.LEVEL -/ def RST_BLOCK_LAST_LEVEL : Fld := ⟨0x240014, 0x0, 26, 24⟩
/-- RST_BLOCK_LAST.FORCED -/ def RST_BLOCK_LAST_FORCED : Fld := ⟨0x240014, 0x0, 23, 23⟩
/-- RST_BLOCK_LAST.TARGET -/ def RST_BLOCK_LAST_TARGET : Fld := ⟨0x240014, 0x0, 7, 0⟩
/-- RST_BLOCK_COUNTS.RESETS -/ def RST_BLOCK_COUNTS_RESETS : Fld := ⟨0x240018, 0x0, 31, 16⟩
/-- RST_BLOCK_COUNTS.FORCED -/ def RST_BLOCK_COUNTS_FORCED : Fld := ⟨0x240018, 0x0, 15, 8⟩
/-- RST_BLOCK_COUNTS.DISCARDED -/ def RST_BLOCK_COUNTS_DISCARDED : Fld := ⟨0x240018, 0x0, 7, 0⟩
/-- RST_FIELD_DEF.FIELDS -/ def RST_FIELD_DEF_FIELDS : Fld := ⟨0x240028, 0x0, 7, 0⟩
/-- RST_OPT_SEQ.SEQ -/ def RST_OPT_SEQ_SEQ : Fld := ⟨0x240030, 0x0, 63, 0⟩
/-- SIL_CTRL.SCRUB_NOW -/ def SIL_CTRL_SCRUB_NOW : Fld := ⟨0x40000, 0x0, 1, 1⟩
/-- SIL_CTRL.PAUSE -/ def SIL_CTRL_PAUSE : Fld := ⟨0x40000, 0x0, 0, 0⟩
/-- SIL_STATUS.CMD_REFUSED -/ def SIL_STATUS_CMD_REFUSED : Fld := ⟨0x40004, 0x0, 7, 7⟩
/-- SIL_STATUS.UNRECOV_SEEN -/ def SIL_STATUS_UNRECOV_SEEN : Fld := ⟨0x40004, 0x0, 6, 6⟩
/-- SIL_STATUS.DRL_FULL -/ def SIL_STATUS_DRL_FULL : Fld := ⟨0x40004, 0x0, 5, 5⟩
/-- SIL_STATUS.SCRUBBING -/ def SIL_STATUS_SCRUBBING : Fld := ⟨0x40004, 0x0, 2, 2⟩
/-- SIL_STATUS.REPAIRING -/ def SIL_STATUS_REPAIRING : Fld := ⟨0x40004, 0x0, 1, 1⟩
/-- SIL_STATUS.CRITICAL -/ def SIL_STATUS_CRITICAL : Fld := ⟨0x40004, 0x0, 0, 0⟩
/-- SIL_SHARE.CRIT_SHARE -/ def SIL_SHARE_CRIT_SHARE : Fld := ⟨0x40008, 0x0, 31, 24⟩
/-- SIL_SHARE.SHARE -/ def SIL_SHARE_SHARE : Fld := ⟨0x40008, 0x0, 23, 16⟩
/-- SIL_SHARE.SCRUB_SHARE -/ def SIL_SHARE_SCRUB_SHARE : Fld := ⟨0x40008, 0x0, 15, 8⟩
/-- SIL_SHARE.IDLE_FILL -/ def SIL_SHARE_IDLE_FILL : Fld := ⟨0x40008, 0x0, 0, 0⟩
/-- SIL_SLOW.ROT_MS -/ def SIL_SLOW_ROT_MS : Fld := ⟨0x4000c, 0x0, 31, 16⟩
/-- SIL_SLOW.FLASH_MS -/ def SIL_SLOW_FLASH_MS : Fld := ⟨0x4000c, 0x0, 15, 0⟩
/-- SIL_SUSPECT.WINDOW_S -/ def SIL_SUSPECT_WINDOW_S : Fld := ⟨0x40010, 0x0, 31, 24⟩
/-- SIL_SUSPECT.SLOW_ENTER -/ def SIL_SUSPECT_SLOW_ENTER : Fld := ⟨0x40010, 0x0, 23, 16⟩
/-- SIL_SUSPECT.HOLD_S -/ def SIL_SUSPECT_HOLD_S : Fld := ⟨0x40010, 0x0, 15, 0⟩
/-- SIL_FAIL.TIMEOUT_FAIL -/ def SIL_FAIL_TIMEOUT_FAIL : Fld := ⟨0x40014, 0x0, 31, 24⟩
/-- SIL_FAIL.ERR_FAIL -/ def SIL_FAIL_ERR_FAIL : Fld := ⟨0x40014, 0x0, 23, 16⟩
/-- SIL_FAIL.SLOW_FAIL -/ def SIL_FAIL_SLOW_FAIL : Fld := ⟨0x40014, 0x0, 15, 0⟩
/-- SIL_RETURN.ABSENT_FAIL_S -/ def SIL_RETURN_ABSENT_FAIL_S : Fld := ⟨0x40018, 0x0, 31, 16⟩
/-- SIL_RETURN.DISCOVER_S -/ def SIL_RETURN_DISCOVER_S : Fld := ⟨0x40018, 0x0, 15, 8⟩
/-- SIL_RETURN.READMIT_MAX -/ def SIL_RETURN_READMIT_MAX : Fld := ⟨0x40018, 0x0, 7, 4⟩
/-- SIL_DRL_CFG.REGION_LOG2 -/ def SIL_DRL_CFG_REGION_LOG2 : Fld := ⟨0x4001c, 0x0, 5, 0⟩
/-- SIL_SCRUB.PASSES -/ def SIL_SCRUB_PASSES : Fld := ⟨0x40020, 0x0, 31, 16⟩
/-- SIL_SCRUB.PERIOD_DAYS -/ def SIL_SCRUB_PERIOD_DAYS : Fld := ⟨0x40020, 0x0, 8, 0⟩
/-- SIL_MBR_CMD.OP -/ def SIL_MBR_CMD_OP : Fld := ⟨0x40024, 0x0, 31, 28⟩
/-- SIL_MBR_CMD.MEMBER -/ def SIL_MBR_CMD_MEMBER : Fld := ⟨0x40024, 0x0, 10, 0⟩
/-- SIL_MBR_SEL.MEMBER -/ def SIL_MBR_SEL_MEMBER : Fld := ⟨0x40028, 0x0, 10, 0⟩
/-- SIL_MBR_STATE.STATE -/ def SIL_MBR_STATE_STATE : Fld := ⟨0x4002c, 0x0, 31, 29⟩
/-- SIL_MBR_STATE.CAUSE -/ def SIL_MBR_STATE_CAUSE : Fld := ⟨0x4002c, 0x0, 28, 26⟩
/-- SIL_MBR_STATE.RESYNC_DRL -/ def SIL_MBR_STATE_RESYNC_DRL : Fld := ⟨0x4002c, 0x0, 25, 25⟩
/-- SIL_MBR_STATE.DRL_HELD -/ def SIL_MBR_STATE_DRL_HELD : Fld := ⟨0x4002c, 0x0, 24, 24⟩
/-- SIL_MBR_STATE.TIMEOUTS -/ def SIL_MBR_STATE_TIMEOUTS : Fld := ⟨0x4002c, 0x0, 23, 16⟩
/-- SIL_MBR_STATE.ERRORS -/ def SIL_MBR_STATE_ERRORS : Fld := ⟨0x4002c, 0x0, 15, 8⟩
/-- SIL_MBR_STATE.SLOW -/ def SIL_MBR_STATE_SLOW : Fld := ⟨0x4002c, 0x0, 7, 0⟩
/-- SIL_MBR_DEPART.MARK -/ def SIL_MBR_DEPART_MARK : Fld := ⟨0x40030, 0x0, 63, 0⟩
/-- SIL_MBR_PROGRESS.DONE -/ def SIL_MBR_PROGRESS_DONE : Fld := ⟨0x40038, 0x0, 63, 32⟩
/-- SIL_MBR_PROGRESS.TOTAL -/ def SIL_MBR_PROGRESS_TOTAL : Fld := ⟨0x40038, 0x0, 31, 0⟩
/-- SIL_DEGRADED.COUNT -/ def SIL_DEGRADED_COUNT : Fld := ⟨0x40040, 0x0, 63, 0⟩
/-- SIL_CRITICAL.COUNT -/ def SIL_CRITICAL_COUNT : Fld := ⟨0x40048, 0x0, 63, 0⟩
/-- SIL_UNRECOV.COUNT -/ def SIL_UNRECOV_COUNT : Fld := ⟨0x40050, 0x0, 31, 0⟩
/-- SNS_SEL.KIND -/ def SNS_SEL_KIND : Fld := ⟨0x268000, 0x0, 31, 31⟩
/-- SNS_SEL.INDEX -/ def SNS_SEL_INDEX : Fld := ⟨0x268000, 0x0, 4, 0⟩
/-- SNS_VALUE.PEAK -/ def SNS_VALUE_PEAK : Fld := ⟨0x268004, 0x0, 31, 16⟩
/-- SNS_VALUE.NOW -/ def SNS_VALUE_NOW : Fld := ⟨0x268004, 0x0, 15, 0⟩
/-- SNS_WARN.RAIL_MV -/ def SNS_WARN_RAIL_MV : Fld := ⟨0x268008, 0x0, 23, 16⟩
/-- SNS_WARN.THERM_C -/ def SNS_WARN_THERM_C : Fld := ⟨0x268008, 0x0, 7, 0⟩
/-- SNS_TALARM.ALARM -/ def SNS_TALARM_ALARM : Fld := ⟨0x26800c, 0x0, 31, 0⟩
/-- SNS_RALARM.ALARM -/ def SNS_RALARM_ALARM : Fld := ⟨0x268010, 0x0, 31, 0⟩
/-- SNS_CTRL.CLR_PEAK -/ def SNS_CTRL_CLR_PEAK : Fld := ⟨0x268014, 0x0, 0, 0⟩
/-- VLT_CTRL.CLR_FLAGS -/ def VLT_CTRL_CLR_FLAGS : Fld := ⟨0x230000, 0x0, 1, 1⟩
/-- VLT_CTRL.DISCARD_DUMP -/ def VLT_CTRL_DISCARD_DUMP : Fld := ⟨0x230000, 0x0, 0, 0⟩
/-- VLT_STATUS.HOLDUP_CERT -/ def VLT_STATUS_HOLDUP_CERT : Fld := ⟨0x230004, 0x0, 7, 7⟩
/-- VLT_STATUS.HOLDUP_LOW -/ def VLT_STATUS_HOLDUP_LOW : Fld := ⟨0x230004, 0x0, 6, 6⟩
/-- VLT_STATUS.LAST_DUMP_FAILED -/ def VLT_STATUS_LAST_DUMP_FAILED : Fld := ⟨0x230004, 0x0, 5, 5⟩
/-- VLT_STATUS.P_MISMATCH -/ def VLT_STATUS_P_MISMATCH : Fld := ⟨0x230004, 0x0, 4, 4⟩
/-- VLT_STATUS.RESTORED -/ def VLT_STATUS_RESTORED : Fld := ⟨0x230004, 0x0, 3, 3⟩
/-- VLT_STATUS.DUMPING -/ def VLT_STATUS_DUMPING : Fld := ⟨0x230004, 0x0, 2, 2⟩
/-- VLT_STATUS.SOURCE -/ def VLT_STATUS_SOURCE : Fld := ⟨0x230004, 0x0, 1, 0⟩
/-- VLT_CFG.MARGIN_PCT -/ def VLT_CFG_MARGIN_PCT : Fld := ⟨0x230008, 0x0, 31, 24⟩
/-- VLT_CFG.RESUME_MS -/ def VLT_CFG_RESUME_MS : Fld := ⟨0x230008, 0x0, 15, 0⟩
/-- VLT_WEAR.RETIRED_BLOCKS -/ def VLT_WEAR_RETIRED_BLOCKS : Fld := ⟨0x23000c, 0x0, 31, 16⟩
/-- VLT_WEAR.PERCENT_USED -/ def VLT_WEAR_PERCENT_USED : Fld := ⟨0x23000c, 0x0, 7, 0⟩
/-- VLT_DUMP_NUM.RESTORED_NUM -/ def VLT_DUMP_NUM_RESTORED_NUM : Fld := ⟨0x230010, 0x0, 63, 32⟩
/-- VLT_DUMP_NUM.NEWEST_NUM -/ def VLT_DUMP_NUM_NEWEST_NUM : Fld := ⟨0x230010, 0x0, 31, 0⟩
/-- VLT_LAST_DUMP.MARGIN_MS -/ def VLT_LAST_DUMP_MARGIN_MS : Fld := ⟨0x230018, 0x0, 31, 16⟩
/-- VLT_LAST_DUMP.DUMP_MS -/ def VLT_LAST_DUMP_DUMP_MS : Fld := ⟨0x230018, 0x0, 15, 0⟩
/-- VLT_WIN.BASE -/ def VLT_WIN_BASE : Fld := ⟨0x23001c, 0x0, 6, 0⟩
/-- VLT_COUNTS.DUMPS -/ def VLT_COUNTS_DUMPS : Fld := ⟨0x230020, 0x0, 31, 16⟩
/-- VLT_COUNTS.RESUMES -/ def VLT_COUNTS_RESUMES : Fld := ⟨0x230020, 0x0, 15, 8⟩
/-- VLT_COUNTS.FAILED -/ def VLT_COUNTS_FAILED : Fld := ⟨0x230020, 0x0, 7, 0⟩
/-- VLT_WRITTEN.MIB -/ def VLT_WRITTEN_MIB : Fld := ⟨0x230028, 0x0, 63, 0⟩
/-- XLT_CTRL.CLR_COUNTS -/ def XLT_CTRL_CLR_COUNTS : Fld := ⟨0x200000, 0x0, 0, 0⟩
/-- XLT_STATUS.ROM_READY -/ def XLT_STATUS_ROM_READY : Fld := ⟨0x200004, 0x0, 1, 1⟩
/-- XLT_STATUS.PRIMARY -/ def XLT_STATUS_PRIMARY : Fld := ⟨0x200004, 0x0, 0, 0⟩
/-- XLT_LINKA.MAX_WIDTH -/ def XLT_LINKA_MAX_WIDTH : Fld := ⟨0x200008, 0x0, 21, 16⟩
/-- XLT_LINKA.DSTATE_PF1 -/ def XLT_LINKA_DSTATE_PF1 : Fld := ⟨0x200008, 0x0, 15, 14⟩
/-- XLT_LINKA.DSTATE_PF0 -/ def XLT_LINKA_DSTATE_PF0 : Fld := ⟨0x200008, 0x0, 13, 12⟩
/-- XLT_LINKA.LINK_UP -/ def XLT_LINKA_LINK_UP : Fld := ⟨0x200008, 0x0, 11, 11⟩
/-- XLT_LINKA.FLIT -/ def XLT_LINKA_FLIT : Fld := ⟨0x200008, 0x0, 10, 10⟩
/-- XLT_LINKA.WIDTH -/ def XLT_LINKA_WIDTH : Fld := ⟨0x200008, 0x0, 9, 4⟩
/-- XLT_LINKA.SPEED -/ def XLT_LINKA_SPEED : Fld := ⟨0x200008, 0x0, 3, 0⟩
/-- XLT_LINKB.MAX_WIDTH -/ def XLT_LINKB_MAX_WIDTH : Fld := ⟨0x20000c, 0x0, 21, 16⟩
/-- XLT_LINKB.DSTATE_PF1 -/ def XLT_LINKB_DSTATE_PF1 : Fld := ⟨0x20000c, 0x0, 15, 14⟩
/-- XLT_LINKB.DSTATE_PF0 -/ def XLT_LINKB_DSTATE_PF0 : Fld := ⟨0x20000c, 0x0, 13, 12⟩
/-- XLT_LINKB.LINK_UP -/ def XLT_LINKB_LINK_UP : Fld := ⟨0x20000c, 0x0, 11, 11⟩
/-- XLT_LINKB.FLIT -/ def XLT_LINKB_FLIT : Fld := ⟨0x20000c, 0x0, 10, 10⟩
/-- XLT_LINKB.WIDTH -/ def XLT_LINKB_WIDTH : Fld := ⟨0x20000c, 0x0, 9, 4⟩
/-- XLT_LINKB.SPEED -/ def XLT_LINKB_SPEED : Fld := ⟨0x20000c, 0x0, 3, 0⟩
/-- XLT_TAGSA.PF0_LIMIT -/ def XLT_TAGSA_PF0_LIMIT : Fld := ⟨0x200010, 0x0, 11, 0⟩
/-- XLT_TAGSB.PF0_LIMIT -/ def XLT_TAGSB_PF0_LIMIT : Fld := ⟨0x200014, 0x0, 11, 0⟩
/-- XLT_TAGUSEA.OUTSTANDING -/ def XLT_TAGUSEA_OUTSTANDING : Fld := ⟨0x200018, 0x0, 28, 16⟩
/-- XLT_TAGUSEA.QUARANTINED -/ def XLT_TAGUSEA_QUARANTINED : Fld := ⟨0x200018, 0x0, 13, 0⟩
/-- XLT_TAGUSEB.OUTSTANDING -/ def XLT_TAGUSEB_OUTSTANDING : Fld := ⟨0x20001c, 0x0, 28, 16⟩
/-- XLT_TAGUSEB.QUARANTINED -/ def XLT_TAGUSEB_QUARANTINED : Fld := ⟨0x20001c, 0x0, 13, 0⟩
/-- XLT_CPLA.TIMEOUTS -/ def XLT_CPLA_TIMEOUTS : Fld := ⟨0x200020, 0x0, 31, 16⟩
/-- XLT_CPLA.LATE -/ def XLT_CPLA_LATE : Fld := ⟨0x200020, 0x0, 15, 8⟩
/-- XLT_CPLA.UNEXPECTED -/ def XLT_CPLA_UNEXPECTED : Fld := ⟨0x200020, 0x0, 7, 0⟩
/-- XLT_CPLB.TIMEOUTS -/ def XLT_CPLB_TIMEOUTS : Fld := ⟨0x200024, 0x0, 31, 16⟩
/-- XLT_CPLB.LATE -/ def XLT_CPLB_LATE : Fld := ⟨0x200024, 0x0, 15, 8⟩
/-- XLT_CPLB.UNEXPECTED -/ def XLT_CPLB_UNEXPECTED : Fld := ⟨0x200024, 0x0, 7, 0⟩
/-- XLT_DENIEDA.COUNT -/ def XLT_DENIEDA_COUNT : Fld := ⟨0x200028, 0x0, 31, 0⟩
/-- XLT_DENIEDB.COUNT -/ def XLT_DENIEDB_COUNT : Fld := ⟨0x20002c, 0x0, 31, 0⟩
/-- CWQ_SQ_DB.INDEX -/ def CWQ_SQ_DB_INDEX : Fld := ⟨0x100000, 0x4, 16, 0⟩
/-- CWQ_CQ_DB.INDEX -/ def CWQ_CQ_DB_INDEX : Fld := ⟨0x101000, 0x4, 16, 0⟩
/-- FAB_RETIRED.UNITS -/ def FAB_RETIRED_UNITS : Fld := ⟨0x60020, 0x4, 31, 0⟩
/-- RST_FUSE.REACH -/ def RST_FUSE_REACH : Fld := ⟨0x24001c, 0x4, 31, 0⟩
/-- RST_HIST.ENTRY -/ def RST_HIST_ENTRY : Fld := ⟨0x240040, 0x8, 63, 0⟩
/-- MBX_BUF.DATA -/ def MBX_BUF_DATA : Fld := ⟨0x261000, 0x4, 31, 0⟩
/-- XLT_ENTRY.ADDR -/ def XLT_ENTRY_ADDR : Fld := ⟨0x201000, 0x8, 47, 22⟩
/-- XLT_ENTRY.W -/ def XLT_ENTRY_W : Fld := ⟨0x201000, 0x8, 1, 1⟩
/-- XLT_ENTRY.R -/ def XLT_ENTRY_R : Fld := ⟨0x201000, 0x8, 0, 0⟩

end Reg

end Sys2Proof
end

