-- ==== Sys2Proof/Machine/Parts.lean ====
section
/-!
DEFINITION. The parts of the machine's state, one group of structures for each chapter of the spec: the journal, the
stripe locks, the operations the IOD runs, the members and their commands, the codec fabric and the host's commands.
Machine/State.lean puts them together. All of it is plain data.
-/
namespace Sys2Proof.Machine

/-- A sparse map from numbers to values; keys rise strictly. -/
abbrev AMap (α : Type) := List (Nat × α)

/-! ### Journal (chapter 5) -/

/-- Record types of table 5-4. -/
inductive RecType | write | zero | recon | excInsert | excDelete | memberState | lost
deriving DecidableEq, Repr

/-- An exception entry (table 3-12). -/
structure ExcEntry where
  pool : Nat
  stripe : Nat
  frag : Nat
  member : Nat
  spare : Nat
  relaxed : Bool
  reclaiming : Bool
deriving DecidableEq, Repr

/-- Member states of table 6-1. -/
inductive MSt | absent | online | suspect | failed | rebuilding | retired
deriving DecidableEq, Repr

/-- FAILED causes, coded as SIL_MBR_STATE.CAUSE. -/
inductive Cause | none | timeout | media | slow | reported | host | absentTimeout
deriving DecidableEq, Repr

/-- A 16-byte entry of a metadata record (R191, table 5-5). -/
inductive MetaEntry
  | exc (e : ExcEntry)
  | mst (member : Nat) (st : MSt) (resyncDrl labelPending : Bool) (cause : Cause) (mark : Nat)
  | lost (nsid first len : Nat) (clear repair : Bool)
deriving DecidableEq, Repr

/-- A journal record (table 5-3) with its payload and its progress. -/
structure JRec where
  seq : Nat
  typ : RecType
  fua : Bool
  first : Nat
  count : Nat
  /-- first namespace LBA, or first stripe data block for RECON -/
  pos : Nat
  nsid : Nat
  len : Nat
  epoch : Nat
  stripe : Nat
  pool : Nat
  payIdx : Nat
  blocks : List Block
  entries : List MetaEntry
  inPlace : Bool
  retired : Bool
  /-- marked lost under R233 -/
  lost : Bool
  admitUs : Nat
deriving DecidableEq, Repr

/-- What a group's commitment lets go on. -/
inductive GroupUse
  /-- a host command waits for it (its internal identifier) -/
  | host (cmd : Nat)
  /-- a destage waits for its decoded blocks (R218) -/
  | recon (op : Nat)
  /-- exception entries written on commitment, with the operations that wait (R127) -/
  | excInsert (ops : List Nat)
  | excDelete (ops : List Nat)
  | memberState
  /-- lost records that retire when the group is in place (R233) -/
  | lost (seqs : List Nat)
  /-- entries that must be admitted before the records of a destage retire (R276) -/
  | lostFor (op : Nat)
  | other
deriving DecidableEq, Repr

/-- An atomic group of records (R193). -/
structure JGroup where
  first : Nat
  count : Nat
  use : GroupUse
  published : Bool
  committed : Bool
deriving DecidableEq, Repr

/-- A group that waits for journal space (R197): its records have no sequence numbers yet. -/
structure WaitGroup where
  recs : List JRec
  use : GroupUse
deriving DecidableEq, Repr

/-- A held lost range (R234); `mark` is the head when its newest part was marked. A `len` of 0 reaches the namespace's end. -/
structure LostRange where
  nsid : Nat
  first : Nat
  len : Nat
  repair : Bool
  mark : Nat
deriving DecidableEq, Repr

/-- An armature slot as a plinth directory names it (R798). -/
structure PSlot where
  epoch : Nat
  length : Nat
  crc : Nat
  marked : Bool
deriving DecidableEq, Repr

/-- An exception checkpoint area as a plinth directory names it (R798); number 0 holds no checkpoint. -/
structure PArea where
  number : Nat
  covered : Nat
  count : Nat
  crc : Nat
deriving DecidableEq, Repr

/-- A plinth directory (R798): armature slots and exception checkpoint areas 0 and 1. -/
structure PDir where
  seq : Nat
  slot0 : PSlot
  slot1 : PSlot
  exc0 : PArea
  exc1 : PArea
deriving DecidableEq, Repr

/-- One run of blocks written to a plinth copy, each with its fragment tag (R799), with FUA. -/
structure PlinthWrite where
  member : Nat
  lba : Nat
  blocks : List (Block × BitVec 128)
deriving DecidableEq, Repr

/-- What one plinth copy answers at a restore (R802): both directory blocks, and the structures of table 3-17, as blocks with their tags. -/
structure PlinthRead where
  member : Nat
  dirs : List (Block × BitVec 128)
  arm0 : List (Block × BitVec 128)
  arm1 : List (Block × BitVec 128)
  exc0 : List (Block × BitVec 128)
  exc1 : List (Block × BitVec 128)
  jck0 : List (Block × BitVec 128)
  jck1 : List (Block × BitVec 128)
deriving DecidableEq, Repr

/-- How far the plinth writes after a commit point have come (table 3-14, R800): none under way; the commit mark of a later commit written;
at the first commit, the plinth members' labels awaited, the image written, both directories written. -/
inductive PlinthStep | none | mark | labels | image | dirs
deriving DecidableEq, Repr

/-- What the device knows of the plinth: the newest directory and the block that holds it, the journal checkpoint area that holds the newest
checkpoint, and the writes under way. -/
structure Plinth where
  dir : PDir
  block : Nat
  jckArea : Nat
  step : PlinthStep
deriving DecidableEq, Repr

/-- A checkpoint being written: exception (R150) or journal (R237). -/
structure CkptRun where
  covered : Nat
  excs : List ExcEntry
  excDone : Bool
  /-- what the journal checkpoint image holds, captured with its covered sequence -/
  members : List MetaEntry
  lost : List LostRange
  /-- the partner's sequence whose metadata the image covers -/
  peerSeq : Nat
  /-- the directory before this trigger, and whether another trigger has come meanwhile -/
  oldDir : PDir
  again : Bool
deriving DecidableEq, Repr

/-- A journal checkpoint image (table 5-9) as last made durable. -/
structure JCkpt where
  number : Nat
  covered : Nat
  members : List MetaEntry
  lost : List LostRange
deriving DecidableEq, Repr

/-- An exception checkpoint as last made durable (R150). -/
structure ECkpt where
  number : Nat
  covered : Nat
  entries : List ExcEntry
deriving DecidableEq, Repr

/-- The journal engine. -/
structure Jnl where
  recs : List JRec
  groups : List JGroup
  waiting : List WaitGroup
  payNext : Nat
  lost : List LostRange
  /-- Flush commands waiting: host command and the head captured (R507) -/
  flushes : List (Nat × Nat)
  lastAdmitUs : Nat
  /-- bytes 0x00 to 0x3F of the control block (table 5-2) -/
  cb : List Byte
  ckpt : Option CkptRun
  jckpt : JCkpt
  eckpt : ECkpt
  /-- stripes whose next destage is REWRITE (R217): pool and stripe -/
  rewrite : List (Nat × Nat)
  /-- rows with disagreeing anchors (R228): pool, stripe, row -/
  disagree : List (Nat × Nat × Nat)
  /-- stripes marked for unrecoverable repair (R275) -/
  marked : List (Nat × Nat)
  /-- host reads of payload blocks in progress (R205): sequence numbers -/
  readers : List Nat
  /-- no group has been admitted for IDLE_US (R212) -/
  idle : Bool
  /-- partial stripes whose newest record is older than SETTLE_US (R214) -/
  settled : List (Nat × Nat)
  /-- records with an uncorrectable line whose mirrored copy has been asked for (table 4-4, R625) -/
  fixing : List Nat
deriving DecidableEq, Repr

/-! ### Stripe locks (R206 to R210) -/

/-- One way of the lock table: a locked or awaited stripe. -/
structure Lock where
  pool : Nat
  stripe : Nat
  excl : Bool
  holders : List Nat
  /-- waiting requests in arrival order: operation, EXCLUSIVE -/
  queue : List (Nat × Bool)
deriving DecidableEq, Repr

/-- A request that waits for a free way of its set (R209). -/
structure SetWait where
  op : Nat
  pool : Nat
  stripe : Nat
  excl : Bool
deriving DecidableEq, Repr

/-! ### Operations of the IOD -/

/-- What an operation is. -/
inductive OpKind
  | destage
  /-- degraded read for a host command -/
  | degraded (host : Nat)
  | relocate
  | resync (member : Nat)
  | fill (pos : Nat)
  | scrub
  /-- scrub with repair (R274); true where R228 started it -/
  | scrubRepair (urgent : Bool)
  | unrecRepair
  /-- one stripe of a sanitize overwrite pass with its 32-bit pattern (R514) -/
  | overwrite (pattern : Nat)
deriving DecidableEq, Repr

/-- Where an operation stands. -/
inductive Phase
  | waitLock | waitChannel | waitElb | reading | held | waitCommit | writing | gather | done
deriving DecidableEq, Repr

/-- Destage methods of table 5-8. -/
inductive Method | full | delta | rewrite | decode | copy | compare
deriving DecidableEq, Repr

/-- A block read good for an operation: its data, generation, and whether it was blank. -/
structure GotBlock where
  frag : Nat
  data : Block
  gen : Nat
  blank : Bool
  lostZero : Bool
deriving DecidableEq, Repr

/-- The work of an operation on one block row. -/
structure RowWork where
  row : Nat
  method : Method
  /-- new data of changed fragments; `none` is a ZERO record's block (R803) -/
  changed : List (Nat × Option Block)
  /-- fragments to reconstruct -/
  want : List Nat
  /-- fragments asked for and not yet answered -/
  asked : List Nat
  got : List GotBlock
  bad : List Nat
  /-- reconstructed blocks -/
  outs : List (Nat × Block)
  unrec : Bool
  ready : Bool
  /-- staging blocks that its decode reserves (R259) -/
  staged : Nat
  /-- its decode waits for staging space (R259) -/
  waits : Bool
deriving DecidableEq, Repr

/-- One operation. -/
structure Op where
  id : Nat
  kind : OpKind
  pool : Nat
  stripe : Nat
  epoch : Nat
  phase : Phase
  cluster : Nat
  channel : Nat
  recs : List Nat
  /-- records of the adopted journal that it carries (R637) -/
  arecs : List Nat
  rows : List RowWork
  /-- relocation targets: fragment, member, spare slot, relaxed (R129) -/
  targets : List (Nat × Nat × Nat × Bool)
  headAtGrant : Nat
  gen : Nat
  /-- member write commands not yet acknowledged -/
  writes : List Nat
  sent : Bool
  reissued : Bool
  /-- fragments that failed in it: no decode of it selects them again (R93) -/
  failed : List Nat
  /-- the copy of a MIRROR stripe that it selected (R88) -/
  copy : Option Nat
  /-- RECON groups of it not yet committed (R218) -/
  recons : Nat
  /-- rows whose anchors it found to disagree under a lock it already held (R217, R228) -/
  found : List Nat
  /-- a scrub with repair rewrites bad data blocks (1), or has done so and reads its rows again (2) (table 7-8, R274) -/
  stage : Nat
  /-- order of its arrival at its channel queue (R341): the model's own field -/
  arrived : Nat
  /-- positions skipped because of member state (R250) -/
  skipped : List Nat
  /-- a decode of it was held under R228 and let go again -/
  pass2 : Bool
deriving DecidableEq, Repr

/-! ### Members and their commands (chapters 6 and 13) -/

/-- Health events counted in the window (R245). -/
inductive Health | tmo | err | slow
deriving DecidableEq, Repr

/-- A dirty-region log (R278): region size and the set bits. -/
structure Drl where
  regionLog2 : Nat
  bits : List Nat
deriving DecidableEq, Repr

/-- One member. -/
structure Mbr where
  st : MSt
  cause : Cause
  mark : Option Nat
  resyncDrl : Bool
  labelPending : Bool
  /-- epoch in which it joined (R151) -/
  joinEpoch : Nat
  drl : Option Drl
  window : List (Nat × Health)
  lastHealthUs : Nat
  absentUs : Nat
  readmits : List Nat
  /-- ordinal of the discovered namespace matched to it -/
  matched : Option Nat
  /-- restored by replay and not yet identified (R253) -/
  awaitId : Bool
  /-- resynchronisation finished for these regions -/
  doneRegions : Nat
  /-- escalation under way (R590): 0 none, 1 controller reset, 2 link reset or link down -/
  resetting : Nat
  /-- sillage commands outstanding in the current 100 ms interval (R263): when the count last changed, the time with at least one,
      and the sum of count times time -/
  silSinceUs : Nat
  silBusyUs : Nat
  silSumUs : Nat
deriving DecidableEq, Repr

/-- What a block of a member command belongs to. -/
structure BlkRef where
  op : Nat
  row : Nat
  frag : Nat
deriving DecidableEq, Repr

/-- Kinds of member command (table 13-3). -/
inductive MKind
  | read | tagRead | write | tagWrite | zeroes | label | plinthRead
  | identify | format | abort (target : Nat) | asyncEvent
deriving DecidableEq, Repr

/-- Where a member command stands (R586, R590): waiting under the limit, outstanding, timed out and held, or a read that has answered and
waits for the tag block that a further command reads (R303). -/
inductive CmdPhase | waiting | outstanding | held | answered
deriving DecidableEq, Repr

/-- Who reads the blocks of a member command. -/
inductive MUser
  | op | host (cmd : Nat) | init (pool : Nat) | ckpt | label | none
  /-- issued by a block whose forced reset discards the response (R685) -/
  | discard
deriving DecidableEq, Repr

/-- One member command. -/
structure MCmd where
  id : Nat
  member : Nat
  kind : MKind
  phase : CmdPhase
  user : MUser
  pool : Nat
  stripe : Nat
  /-- first data block of the extent, tag group of a tag block, or LBA for label and zeroing commands -/
  block : Nat
  count : Nat
  /-- the LBAs that it names: the first, and how many, tag blocks of the run included (R300, R303) -/
  lba : Nat
  lbas : Nat
  spare : Bool
  refs : List BlkRef
  /-- blocks written, with their 16-byte tags -/
  data : List (Block × BitVec 128)
  /-- tag blocks that have arrived for a read, and the further command that is still awaited -/
  tagb : List (Nat × Block)
  pair : Option Nat
  sillage : Bool
  submitUs : Nat
deriving DecidableEq, Repr

/-- What a controller's Identify data, capabilities and interrupt table say of the items of table 13-2 that are not a format. -/
structure MemberCaps where
  /-- version: major and minor -/
  major : Nat
  minor : Nat
  /-- CAP.MPSMIN -/
  mpsMin : Nat
  ioPairs : Nat
  /-- submission entries of 64 bytes and completion entries of 16 -/
  entries : Bool
  msixVectors : Nat
  /-- every command of table 13-3 -/
  commands : Bool
  fua : Bool
  /-- Write Zeroes, with data and metadata zeroed when PRACT is clear -/
  writeZeroes : Bool
deriving DecidableEq, Repr

/-- A discovered namespace (table 13-4). -/
structure Disc where
  group : Nat
  link : Nat
  hops : Nat
  ports : List Nat
  status : Nat
  member : Nat
  nsid : Nat
  nguid : BitVec 128
  capacity : Nat
  metaBytes : Nat
  pi : Bool
  rot : Bool
  dataSize : Nat
  caps : MemberCaps
  /-- the first 64 bytes of LBA 0, read where the data size is 4,096 (R577) -/
  lba0 : List Byte
  abortLimit : Nat
  capToMs : Nat
  /-- MDTS of its controller in blocks of 4 KiB; 0 for no limit (R587) -/
  mdts : Nat
deriving DecidableEq, Repr

/-- Where the resynchronisation of a member stands (R283): the region it works on, none in the copy-back pass; the next pool and slot of
that region. -/
structure ResyncAt where
  member : Nat
  region : Option Nat
  copyBack : Bool
  pool : Nat
  slot : Nat
deriving DecidableEq, Repr

/-- Sillage and scrub progress (chapter 6). -/
structure Sil where
  /-- next stripe of the running scrub pass: pool and stripe; pool 64 once every stripe's scrub has started -/
  scrubAt : Option (Nat × Nat)
  scrubStartUs : Nat
  /-- stripes queued for a scrub ahead of the pass (R296) -/
  scrubQueue : List (Nat × Nat)
  /-- stripes whose relocation found no spare (R130) -/
  noSpare : List (Nat × Nat)
  /-- members over their allowance in the current interval (R263) -/
  overUse : List Nat
  /-- exception entries gathering for a record, with their operations (R267) -/
  gather : List (Nat × ExcEntry)
  gatherUs : Nat
  /-- resynchronisation of each REBUILDING member -/
  resync : List ResyncAt
  /-- stripes that a scrub found not wholly readable and counts as DEGRADED work (R273) -/
  counted : List (Nat × Nat)
deriving DecidableEq, Repr

/-- One fill list entry (R797). -/
structure FillEntry where
  pool : Nat
  group : Nat
  pos : Nat
  cursor : Nat
deriving DecidableEq, Repr

/-- A run of LBAs being zeroed (R307, R492): an extent, or slots of a namespace `ns` made ready; `done` of its `total` LBAs are zero. A run
of data blocks that shares its tag block with others names the tag group and the first entry to clear. -/
structure ZeroJob where
  pool : Nat
  member : Nat
  lba : Nat
  total : Nat
  done : Nat
  tags : Option (Nat × Nat)
  issued : Option Nat
  skipped : Bool
  finished : Bool
  ns : Nat
deriving DecidableEq, Repr

/-! ### The armature engine (chapter 3) -/

/-- An uncorrectable line of the exception table that is being rebuilt from the plinth (table 4-4): its two entries, the member whose copy
of the exception checkpoint is read, the command that reads it, the members tried so far, and the blocks read with their tags. -/
structure LineFix where
  keys : List (Nat × Nat × Nat)
  member : Nat
  cmd : Nat
  tried : List Nat
  got : List (Block × BitVec 128)
deriving DecidableEq, Repr

/-- Armature copies and the commit in progress. -/
structure Arm where
  active : Option Armature
  draining : Option Armature
  maquette : Option Armature
  plinth : Plinth
  /-- the vault's armature slots with commit records (R146) -/
  vaultSlots : List (Nat × Armature)
  excs : List ExcEntry
  fills : List FillEntry
  zeroing : List ZeroJob
  /-- stripes of one namespace made ready: nsid, old stripe count (R492) -/
  nsReady : List (Nat × Nat)
  loadAddr : Nat
  commitStage : Nat
  fixes : List LineFix
deriving DecidableEq, Repr

/-! ### Member ports (chapter 13) -/

/-- A direct member link. -/
structure MLink where
  present : Bool
  up : Bool
  flit : Bool
  width : Nat
  speed : Nat
deriving DecidableEq, Repr

/-- What a member's asynchronous event or status says (R588). -/
inductive AsyncKind
  /-- CSTS.CFS -/
  | fatal
  /-- Critical Warning bits -/
  | warning (bits : Nat)
  /-- the namespace list has changed; whether the matched namespace has gone -/
  | nsChanged (gone : Bool)
  | other (info : Nat)
deriving DecidableEq, Repr

/-- What a member admin command answers (R577, R580, R590). -/
inductive AdminResult
  /-- a namespace has been found and read; its status and member are not yet decided -/
  | identified (ns : Disc)
  /-- enumeration of a link has ended -/
  | enumEnd (link : Nat)
  /-- the Abort for a command has completed -/
  | aborted (id : Nat)
  /-- the format of R580 has ended -/
  | formatDone (ok : Bool)
deriving DecidableEq, Repr

/-- The member ports. -/
structure MPort where
  links : List MLink
  /-- links whose enumeration runs -/
  enumLeft : List Nat
  /-- slots that wait for a power-on batch (R597): links, or members behind switches -/
  slotQueue : List (Bool × Nat)
  /-- a batch has started and its interval runs -/
  batching : Bool
  /-- MPERST_N is driven low on every link (R600) -/
  mperst : Bool
  /-- members whose switch slot has been switched off -/
  slotsOff : List Nat
  /-- the format of R580 that runs: discovery ordinal, 16 metadata bytes -/
  fmt : Option (Nat × Bool)
  /-- tails of the members' submission rings in the queue memory, by the first discovered namespace of the controller (R587) -/
  sqTails : AMap Nat
deriving DecidableEq, Repr

/-! ### Keys (chapter 7) -/

/-- Key slot states of table 7-6. -/
inductive KeySt | empty | ready | active | destroying
deriving DecidableEq, Repr

/-- A key slot that is not EMPTY, or that a generation under way fills: its namespace key in the IOD key store, and the wrapped key of
72 bytes in the vault's key area (R324, R325). -/
structure KeySlot where
  slot : Nat
  st : KeySt
  nsid : Nat
  key : BitVec 512
  wrapped : List Byte
  /-- its key is zeroised and every vault block that held its wrapped key is erased; the partner has reported the same (R331) -/
  erased : Bool
  partnerDone : Bool
  /-- the partner's slot of which this one holds the copy, and whether the partner has asked for its destruction (R630) -/
  peer : Option Nat
  asked : Bool
deriving DecidableEq, Repr

/-- Keys, and the key generations and switches that wait. -/
structure Keys where
  slots : List KeySlot
  binds : AMap Nat
  /-- values drawn from the DRBG (R323) -/
  nextKey : Nat
  /-- generations that wait for an EMPTY slot (R329): namespace, and whether for the maquette -/
  wantGen : List (Nat × Bool)
  /-- namespaces whose switch waits for their commands to end (R330) -/
  switching : List Nat
deriving DecidableEq, Repr

/-! ### The codec fabric (chapter 8) -/

/-- The key of a resolved-row record (R121). -/
structure RowKey where
  pool : Nat
  group : Nat
  epoch : Nat
  segment : Nat
deriving DecidableEq, Repr

/-- One ELB fill in progress (R352). -/
structure Fill where
  key : RowKey
  poisoned : Bool
  waiters : List Nat
  /-- its data did not hold the record, and it waits for the line to be rebuilt (R355) -/
  held : Bool
deriving DecidableEq, Repr

/-- One ELB entry (R351): the key, the address of the record's line, and the record's 64 bytes. Its tag and data parity follow from these; an
error of either is an event of the block (R366). -/
structure ElbEntry where
  key : RowKey
  line : Nat
  record : List Byte
deriving DecidableEq, Repr

/-- Power of a region: off, on, powering up. -/
inductive RegPower | off | on | up
deriving DecidableEq, Repr

/-- A region of a codec die. -/
structure Region where
  power : RegPower
  /-- ELB entries that are valid, by entry number (R351) -/
  elb : AMap ElbEntry
  /-- tree bits that are 1 (R357) -/
  tree : List Nat
  fills : List Fill
  /-- lookups that wait because 16 fills are pending (R353) -/
  fillWait : List (Nat × RowKey)
  wakes : Nat
  readWakes : Nat
  hits : Nat
  misses : Nat
  poisoned : Nat
  dataErrs : Nat
  forRead : Bool
deriving DecidableEq, Repr

/-- A cluster: whether gated, and its staging blocks reserved by decodes (R259). -/
structure Cluster where
  gated : Bool
  staged : Nat
  /-- the local channel that its engines served last (R381) -/
  served : Nat
deriving DecidableEq, Repr

/-- What waits until writes of resolved rows are globally visible (R361). -/
inductive RowAct
  | none
  /-- operations whose exception entries are written (table 6-5 step 6) -/
  | endOps (ops : List Nat)
  /-- the end of the drain, once the old epoch's rows are invalid (R135) -/
  | drained
  /-- a rebuilt line of the resolved-row table (R171) -/
  | rebuilt (line : RowKey)
deriving DecidableEq, Repr

/-- Writes of resolved-row lines on their way: each line with the regions whose acknowledgement is awaited (R359 to R361). -/
structure RowWrite where
  left : List (RowKey × Nat)
  act : RowAct
deriving DecidableEq, Repr

/-- The codec fabric. -/
structure Fab where
  regions : List Region
  clusters : List Cluster
  retired : List Nat
  pll : List Bool
  pllLocking : List Nat
  offline : List Nat
  trainFails : List Nat
  /-- clusters held in reset by an active source -/
  inReset : List Nat
  /-- regions whose power-down waits for a block reset to end (R45) -/
  offWaits : List Nat
  /-- resolved-row writes that are not yet globally visible -/
  rowWrites : List RowWrite
deriving DecidableEq, Repr

/-! ### Host commands (chapter 11) -/

/-- What became of one block of a host read. -/
inductive BlkRes | cipher (b : Block) | zero | lost
deriving DecidableEq, Repr

/-- Kinds of host I/O command. -/
inductive HKind | read | write | flush | zeroes | dealloc | verify | admin
deriving DecidableEq, Repr

/-- A block row that a decode found unrecoverable: pool, stripe, row, and the data fragments that cannot be reconstructed. -/
structure UnrecRow where
  pool : Nat
  stripe : Nat
  row : Nat
  frags : List Nat
deriving DecidableEq, Repr

/-- A host command between fetch and completion. -/
structure HostCmd where
  id : Nat
  portB : Bool
  sq : Nat
  cid : Nat
  kind : HKind
  nsid : Nat
  slba : Nat
  nlb : Nat
  fua : Bool
  pract : Bool
  prchk : Nat
  reftag : Nat
  apptag : Nat
  appmask : Nat
  /-- blocks at which the two copies of the AES-XTS engine disagree (R318) -/
  xtsFaults : List Nat
  /-- blocks read so far: LBA and result -/
  got : List (Nat × BlkRes)
  /-- groups not yet admitted or not yet complete -/
  groupsLeft : Nat
  admitted : Bool
  readIssued : Bool
  /-- member reads that a parallel decode races (R256), by command identifier -/
  raced : List Nat
  detached : Bool
  /-- epoch taken at the first lookup of a read (R141) -/
  epoch : Nat
  /-- rows whose decode ended unrecoverable while a member read races it (R256) -/
  unrecRows : List UnrecRow
deriving DecidableEq, Repr

/-- The fields of a fetched I/O command: port, queue, identifier, namespace, range, FUA and the PI fields; and what its encryption
meets. -/
structure HostIo where
  portB : Bool
  sq : Nat
  cid : Nat
  nsid : Nat
  slba : Nat
  nlb : Nat
  fua : Bool
  pract : Bool
  prchk : Nat
  reftag : Nat
  apptag : Nat
  appmask : Nat
  /-- blocks of the command, counted from its first, at which the two copies of the AES-XTS engine disagree (R318) -/
  xtsFaults : List Nat
deriving DecidableEq, Repr

/-! ### NVMe state (chapter 11) -/

/-- Completion statuses the spec names (tables 11-3, 11-4, 11-10 and chapters 11, 18); the NVM standards give their codes. -/
inductive NvStatus
  | success | invalidOpcode | invalidField | invalidNamespaceOrFormat | lbaOutOfRange
  | unrecoveredReadError | guardCheckError | appTagCheckError | refTagCheckError | dataTransferError
  | namespaceNotReady | formatInProgress | sanitizeInProgress | sanitizeFailed
  | anaInaccessible | anaTransition | commandAbortRequested | abortedSqDeletion | abortLimitExceeded
  | aerLimitExceeded | invalidQueueIdentifier | invalidQueueSize | completionQueueInvalid | invalidQueueDeletion | invalidInterruptVector
  | invalidFirmwareSlot | invalidFirmwareImage | firmwareActivationProhibited | invalidLogPage | invalidFormat
  | featureNotSaveable | featureNotChangeable | commandSequenceError | commandInterrupted | overlappingRange
deriving DecidableEq, Repr

/-- Statuses with DNR set in table 11-4. -/
def NvStatus.dnr : NvStatus → Bool
  | .guardCheckError | .appTagCheckError | .refTagCheckError | .sanitizeFailed | .lbaOutOfRange => true
  | _ => false

/-- A completion that waits to be posted. -/
structure Cpl where
  sq : Nat
  cid : Nat
  status : NvStatus
  dw0 : Nat
deriving DecidableEq, Repr

/-- An NVMe submission queue. -/
structure NSq where
  id : Nat
  cq : Nat
  size : Nat
  head : Nat
  tail : Nat
  prio : Nat
deriving DecidableEq, Repr

/-- An NVMe completion queue with the completions it could not yet post. -/
structure NCq where
  id : Nat
  size : Nat
  head : Nat
  tail : Nat
  vec : Nat
  ien : Bool
  held : List Cpl
deriving DecidableEq, Repr

/-- An Error Information log entry (R502). -/
structure ErrEntry where
  count : Nat
  sq : Nat
  cid : Nat
  status : NvStatus
  lba : Nat
  nsid : Nat
deriving DecidableEq, Repr

/-- One controller (PF0 of a host port). -/
structure NvmeCtl where
  en : Bool
  rdy : Bool
  cfs : Bool
  shst : Nat
  ams : Nat
  enUs : Nat
  sqs : List NSq
  cqs : List NCq
  /-- current feature values, by feature identifier -/
  feats : AMap DWord
  /-- Asynchronous Event Requests outstanding -/
  aers : List Nat
  /-- notices that wait for a request: type, information, log page -/
  notices : List (Nat × Nat × Nat)
  errLog : List ErrEntry
  errCount : Nat
  pstate : Nat
  lastOp : Nat
  /-- the APST table: 32 entries of 8 bytes -/
  apst : List DWord
  /-- a shutdown notification has been given since the last CC.EN set -/
  shutdown : Bool
  /-- head that a normal shutdown's barrier waits for (R521) -/
  shutBarrier : Option Nat
  /-- a Delete I/O SQ waits for this queue's commands: command identifier -/
  deleting : List (Nat × Nat)
  changedNs : List Nat
  /-- Volatile Write Cache feature (R508) -/
  wce : Bool
  /-- a power state asked for while an activation runs (R524) -/
  psWait : Option Nat
deriving DecidableEq, Repr

/-- LBA format of a namespace (table 11-2, R510). -/
structure NsFmt where
  fmt : Nat
  pi : Nat
  piFirst : Bool
deriving DecidableEq, Repr

/-- A Format NVM or Sanitize in progress: which step it has reached (R511, R514). -/
structure Erase where
  sanitize : Bool
  nsids : List Nat
  ses : Nat
  newFmt : NsFmt
  step : Nat
  portB : Bool
  cid : Nat
  /-- overwrite passes left, the 32-bit pattern, and whether passes invert it -/
  owPass : Nat
  pattern : Nat
  invert : Bool
  noDealloc : Bool
  /-- asked for by the partner, which hears NS_DONE (R620) -/
  remote : Bool
  /-- its controller was reset: no completion is posted (table 11-10) -/
  silent : Bool
  /-- waits for a commit or drain of the armature engine (R512) -/
  waiting : Bool
deriving DecidableEq, Repr

/-- What the NVM subsystem holds beside its controllers. -/
structure NvmeSub where
  fmts : AMap NsFmt
  appTags : AMap Nat
  erases : List Erase
  sanFailed : Bool
  sanDone : Bool
  /-- 512-byte units of host data read and written, in blocks -/
  blocksRead : Nat
  blocksWritten : Nat
  unsafeShutdowns : Nat
  mediaErrors : Nat
  lastVendorEvent : Nat
  /-- the last sanitize was started in unrestricted mode (AUSE) -/
  sanAuse : Bool
  /-- saved feature values in the vault: port, feature -/
  saved : List (Bool × Nat × DWord)
deriving DecidableEq, Repr

/-! ### Host ports (chapter 12) -/

/-- One MSI-X table entry. -/
structure Msix where
  addr : DWord
  data : Word
  masked : Bool
deriving DecidableEq, Repr

/-- One function of a host port. -/
structure Fn where
  /-- Memory Space Enable, Bus Master Enable of the Command register -/
  mse : Bool
  bme : Bool
  d3hot : Bool
  msixEn : Bool
  msixMask : Bool
  table : AMap Msix
  pba : List Nat
  /-- writable configuration registers, by offset -/
  cfg : AMap Word
  pmePending : Bool
deriving DecidableEq, Repr

/-- How a read that a port issued is answered. -/
inductive CplRes
  | good (bytes : List Byte)
  | unsupported | abort | poisoned
deriving DecidableEq, Repr

/-- Who waits for a read that a port has issued. -/
inductive ReadUser
  /-- instruction fetch of a channel -/
  | chnFetch (ch : Nat)
  /-- part of a transfer unit's source: channel, unit, source, offset in the unit's source bytes -/
  | chnSrc (ch unit src off : Nat)
  /-- read-back of a MOVE or MAC (R401), or of a status record (table 9-12) -/
  | chnBack (ch : Nat)
  | chnRec (ch : Nat)
  | sqFetch (sq : Nat)
  | armature
  | nvmeFetch
  | none
  /-- issued by a block whose forced reset discards the response (R685) -/
  | discard
deriving DecidableEq, Repr

/-- A read that waits for a tag of its function's share, or for the function to be able to send. -/
structure ReadReq where
  fn : Nat
  user : ReadUser
  addr : Nat
  len : Nat
deriving DecidableEq, Repr

/-- A tag in use. -/
structure TagUse where
  tag : Nat
  fn : Nat
  user : ReadUser
  len : Nat
  quarantined : Bool
deriving DecidableEq, Repr

/-- One host port. -/
structure HPort where
  pf0 : Fn
  pf1 : Fn
  perst : Bool
  up : Bool
  tags : List TagUse
  waiting : List ReadReq
  /-- uncorrectable and correctable error status bits of AER, by function -/
  aer : List (Nat × Nat)
deriving DecidableEq, Repr

/-- Both host ports. -/
structure PortPair where
  a : HPort
  b : HPort
deriving DecidableEq, Repr

/-! ### The accord (chapter 14) -/

/-- What the partner last said of itself, in a heartbeat or JOIN. -/
structure PeerView where
  count : Nat
  head : Nat
  pools : Nat
  state : Nat
  flags : Nat
deriving DecidableEq, Repr

/-- A message of table 14-7: its type, and the values of its payload's fields. -/
structure PeerMsg where
  typ : Nat
  args : List Nat
deriving DecidableEq, Repr

/-- What a JOIN says (table 14-7). -/
structure JoinMsg where
  role : Nat
  flags : Nat
  pGiB : Nat
  epoch : Nat
  identity : Nat
  snCrc : Nat
  nqnCrc : Nat
  head : Nat
deriving DecidableEq, Repr

/-- A planned transfer of pools (R641): the pools, whether this package gives them, and the step reached. -/
structure Transfer where
  pools : Nat
  giver : Bool
  step : Nat
deriving DecidableEq, Repr

/-- A pool operation on behalf of a controller that waits for its owners (R620). -/
structure NsOpWait where
  sanitize : Bool
  nsid : Nat
  left : Nat
  status : NvStatus
deriving DecidableEq, Repr

/-- The accord record as durable in the vault (R613). -/
structure AcdRecord where
  state : Nat
  steward : Bool
  pools : Nat
  mirrorValid : Bool
  adopted : Bool
  /-- a record of a MIRRORING or ALONE state has been written: the accord has formed (R645) -/
  formed : Bool
deriving DecidableEq, Repr

/-- The accord engine. -/
structure Acd where
  /-- the accord record in the vault; none before the accord first formed -/
  record : Option AcdRecord
  /-- message ring: next sequence, slots sent, MSG_ACK received, messages waiting for space -/
  txSeq : Nat
  txSlots : Nat
  rxAck : Nat
  txWait : List PeerMsg
  /-- messages of the partner processed: slots added to its MSG_ACK -/
  rxSlots : Nat
  /-- count of the last heartbeat sent -/
  hbCount : Nat
  /-- latest heartbeat or JOIN of the partner since this package's exit -/
  peer : Option PeerView
  lossDeclared : Bool
  /-- role 1 waits out its hold-off before it requests; the fence request; the fenced bit (R634) -/
  holdoff : Bool
  request : Bool
  fenced : Bool
  fenceInPlace : Bool
  /-- no heartbeat and no JOIN is sent after a failed dump (R670) -/
  mute : Bool
  joinSeen : Bool
  keyxDone : Bool
  /-- joins whose key exchange has ended, and the transport key of the last (R629) -/
  keyxCount : Nat
  transport : BitVec 256
  /-- the steward has sent the copy of its journal (R643 step 4) -/
  joined : Bool
  /-- highest sequence named in a doorbell sent, and whether the next group takes link PB (R623) -/
  sentTo : Nat
  nextB : Bool
  /-- the image that the steward staged here (R631) -/
  staged : Option Armature
  /-- mirror area: the partner's records as held here, the ranges of processed doorbells, the sequence acknowledged,
      the largest sender tail processed -/
  mirror : List JRec
  doorbells : List (Nat × Nat)
  ackedIn : Nat
  mirrorTail : Nat
  /-- records of the mirror area with an uncorrectable line (R625) -/
  mirrorBad : List Nat
  /-- partner's groups whose metadata has been applied here -/
  applied : Nat
  /-- adopted journal (R637, R641): records, and pools whose members still wait for QUIET or DRAIN_MS -/
  adopted : List JRec
  quietWait : Nat
  drainUs : Option Nat
  /-- pools taken over whose stripes wait out DRAIN_MS (R639) -/
  drainPools : Nat
  transfers : List Transfer
  /-- pools given whose ANA state is Change -/
  anaChange : Nat
  nsOps : List NsOpWait
  resyncDone : List Nat
deriving DecidableEq, Repr

/-! ### Options (chapter 16) -/

/-- The options in force (table 16-7): fields after their defaulting. -/
structure Opts where
  /-- the 4 KiB block loaded, or the defaults -/
  block : List Byte
  seq : Nat
  vendor : Nat
  subsystem : Nat
  flags : Nat
  widths : Nat
  pGiB : Nat
  hGiB : Nat
  boot : Nat
  allowed : Nat
  slotPower : Nat
  gpioOut : Nat
  gpioEn : Nat
  sn : List Byte
  subnqn : List Byte
deriving DecidableEq, Repr

/-! ### Channel programs (chapter 9) -/

/-- The CWQ entry a channel runs: SQ, ring index, command, port, and its flags. -/
structure ChRun where
  sq : Nat
  idx : Nat
  cid : Nat
  portB : Bool
  irqNow : Bool
  events : Bool
deriving DecidableEq, Repr

/-- A transfer unit in flight (R380): host data still awaited and arrived, paced sources not yet granted, transit pages. -/
structure TUnit where
  n : Nat
  awaited : List (Nat × Nat)
  data : List (Nat × Nat × List Byte)
  pace : Nat
  pages : Nat
deriving DecidableEq, Repr

/-- A source or destination of a MOVE or MAC, its loop stride applied. -/
structure End where
  space : Nat
  addr : Nat
  swap : Nat
  /-- visibility by read-back (R400) -/
  flush : Bool
  xorInto : Bool
deriving DecidableEq, Repr

/-- What follows outstanding read-backs: the HALF event, the FULL event, or completion. -/
inductive AfterBack | half | full | complete
deriving DecidableEq, Repr

/-- The MOVE or MAC that a channel runs. -/
structure Work where
  mac : Bool
  gf16 : Bool
  len : Nat
  pi : Nat
  /-- the channel whose level counter paces STAGING sources -/
  pacer : Option Nat
  irqHalf : Bool
  irqFull : Bool
  srcs : List End
  dsts : List End
  rows : List (List Nat)
  units : List TUnit
  next : Nat
  done : Nat
  backs : Nat
  after : List AfterBack
  halfSeen : Bool
  /-- the ending that waits for units in flight: status, detail -/
  stop : Option (Nat × Nat)
deriving DecidableEq, Repr

/-- A WAIT in progress (table 9-8). -/
structure ChWait where
  kind : Nat
  target : Nat
  value : Nat
  /-- µs after which it ends the program; 0 for none -/
  timeout : Nat
deriving DecidableEq, Repr

/-- An ending under way (table 9-12): status, detail, residue, and the step it has reached (0 record to be written, 1 read-back of
the record, 2 completion). -/
structure Ending where
  status : Nat
  detail : Nat
  residue : Nat
  step : Nat
  recorded : Bool
deriving DecidableEq, Repr

/-- A channel that is not idle: what it runs, beside its CHN_ registers. -/
structure Chan where
  run : Option ChRun
  work : Option Work
  wait : Option ChWait
  ending : Option Ending
  /-- start PCs of loop levels 1 to 4 -/
  starts : List Nat
  /-- running reference count (R404) -/
  refs : Nat
  opcode : Nat
  user : Nat
deriving DecidableEq, Repr

/-- A channel that waits on a semaphore (`sem` its number) or a level counter of channel `target`: a WAIT, or a paced unit. -/
structure Waiter where
  target : Nat
  sem : Option Nat
  ch : Nat
  amount : Nat
  unit : Option Nat
deriving DecidableEq, Repr

/-! ### Codec work queues (chapter 10) -/

/-- A fetched submission entry: its ring index and its 64 bytes, and whether an abort has removed it. -/
structure SqEntry where
  idx : Nat
  bytes : List Byte
  removed : Bool
deriving DecidableEq, Repr

/-- A submission queue's state beside its registers. -/
structure SqSt where
  fetched : List SqEntry
  /-- next index to be read, and next index to arrive -/
  fetchAt : Nat
  arrive : Nat
  credit : Nat
  /-- started entries not yet completed: command, channel -/
  started : List (Nat × Nat)
  /-- held abort: command, end of its window (R464) -/
  held : Option (Nat × Nat)
  /-- the published head or the state is newer than the last writeback -/
  dirty : Bool
deriving DecidableEq, Repr

/-- A completion of the CWQ (table 10-3); `chan` is a channel kept ENDING by it. -/
structure CqCpl where
  cq : Nat
  sq : Nat
  cid : Nat
  user : Nat
  residue : Nat
  ch : Nat
  status : Nat
  detail : Nat
  recorded : Bool
  early : Bool
  irqNow : Bool
  chan : Option Nat
deriving DecidableEq, Repr

/-- A completion queue's state beside its registers: completions that wait for a slot, and those since its last interrupt. -/
structure CqSt where
  waiting : List CqCpl
  pending : Nat
  pendingUs : Nat
deriving DecidableEq, Repr

/-- The channels, their staging contents, and the codec work queues. -/
structure Cwq where
  chans : AMap Chan
  waiters : List Waiter
  /-- staging bytes that are not zero, by cluster × 4 MiB + offset -/
  staging : AMap Byte
  sqs : AMap SqSt
  cqs : AMap CqSt
  /-- completion stores of ports A and B, and the completions that wait outside them (R473) -/
  storeA : List CqCpl
  storeB : List CqCpl
  outA : List CqCpl
  outB : List CqCpl
  /-- arbiter: position, and the queue granted with the entries of its burst that are left (R450, R451) -/
  arbPtr : Nat
  grant : Option (Nat × Nat)
deriving DecidableEq, Repr

/-! ### Resets (chapter 16) -/

/-- A reset below WARM: its source, level (0 UNIT to 3 DIE) and target, whether the idle request timed out, and whether the
block is in reset or still asked to go idle (R684). -/
structure BlockReset where
  source : Nat
  level : Nat
  target : Nat
  forced : Bool
  held : Bool
  /-- sources that arose in it while it held their blocks: recorded with it, and handled by it (R44, R697) -/
  also : List Nat
deriving DecidableEq, Repr

/-- The reset controller. -/
structure Rst where
  /-- package sources active now -/
  active : List Nat
  /-- block sources active now and the resets they cause -/
  blocks : List BlockReset
  /-- package reset held: 0 none, 4 WARM, 5 COLD -/
  reach : Nat
  /-- sources active at any moment while the reset was held (R696) -/
  seen : List Nat
  /-- step of table 16-4 that the exit has reached; 0 while the reset is held -/
  step : Nat
  /-- the reset began during an option load; it followed a seal and dump -/
  optLoad : Bool
  dumped : Bool
  /-- a COLD reset waits for the seal and dump of R693 -/
  pendingCold : Bool
  /-- 2.0 ms have not yet passed since the reset began (R689) -/
  stretch : Bool
  /-- option loading runs -/
  loading : Bool
  /-- SYS_RST_N is driven low; the time until which its input is ignored after its release (R689) -/
  pinLow : Bool
  pinFreeUs : Nat
  /-- backup domain: JOURNAL_LIVE (R691), FENCED, and the fixed pattern of R702 -/
  journalLive : Bool
  fencedBit : Bool
  pattern : Bool
  /-- CLK_BKP is present (R784) -/
  bkpClock : Bool
deriving DecidableEq, Repr

/-! ### The vault (chapter 15) -/

/-- States of a dump generation in the vault directory (R650). -/
inductive GenSt | empty | writing | valid | consumed
deriving DecidableEq, Repr

/-- What a dump holds of the protected area: both journals with their sequences, the mirror area and its flags. -/
structure DumpImage where
  jnl : Jnl
  head : Nat
  tail : Nat
  mirror : List JRec
  mirrorTail : Nat
  adopted : List JRec
  mirrorValid : Bool
  excs : List ExcEntry
  /-- the seal fell in a replay (R654) -/
  inReplay : Bool
deriving DecidableEq, Repr

/-- One dump generation (table 15-2): its number and state in the directory, header, chunk CRC table, trailer, and the image, of which every
chunk matches the table. -/
structure DumpGen where
  num : Nat
  st : GenSt
  header : List Byte
  table : List Byte
  trailer : List Byte
  image : Option DumpImage
deriving DecidableEq, Repr

/-- The vault controller: the two generations, the option copies, and the power-failure sequence. -/
structure Vlt where
  gen0 : DumpGen
  gen1 : DumpGen
  optA : List Byte
  optB : List Byte
  /-- PWR_FAIL_N reads low -/
  pwrLow : Bool
  /-- a dump has completed and neither a resume nor a reset has followed -/
  dumpDone : Bool
  /-- end of step 7 of the last dump, while the hold-up margin is being measured (R663) -/
  marginFrom : Option Nat
  /-- margin measured at the brownout, kept in the backup domain -/
  margin : Option Nat
  assertUs : Nat
  /-- bytes programmed into the vault, and dumps completed, over its life -/
  bytes : Nat
  dumps : Nat
  /-- vault blocks retired after a failed program or erase (R675) -/
  retired : Nat
  nandOff : Bool
  /-- the generation, 0 or 1, that this exit restores (R665) -/
  chosen : Option Nat
  /-- an in-place resume replays (R672) -/
  resuming : Bool
deriving DecidableEq, Repr

/-! ### Management (chapters 17 and 18) -/

/-- A firmware slot of the vault: EMPTY 0, VALID 1 or BAD 2, its image, and when it was last written. -/
structure FwSlot where
  st : Nat
  image : List Byte
  stamp : Nat
deriving DecidableEq, Repr

/-- An activation under R522: the slot, and the Firmware Commit that waits for it (port, identifier), if any. -/
structure FwAct where
  slot : Nat
  cmd : Option (Bool × Nat)
deriving DecidableEq, Repr

/-- A PLDM update: its target slot and the bytes fetched. -/
structure Pldm where
  slot : Nat
  data : List Byte
  size : Nat
deriving DecidableEq, Repr

/-- The management core, the management bus, the sensors and the power limits. -/
structure Mgmt where
  slots : List FwSlot
  boot : Nat
  run : Nat
  /-- programmed bits of the fuse rollback field (R736) -/
  fuses : Nat
  stamp : Nat
  /-- pieces of Firmware Image Download: offset and bytes -/
  download : List (Nat × List Byte)
  act : Option FwAct
  /-- a slot to be activated at the next controller reset (actions 1 and 2) -/
  pending : Option Nat
  /-- commits that wait for a sanitize, a format or a power state entry (R524): port, identifier, slot, action -/
  waiting : List (Bool × Nat × Nat × Nat)
  pldm : Option Pldm
  eid : Nat
  i3c : Bool
  /-- the running image runs since a COLD exit that has not yet reached RUN (R742) -/
  proven : Bool
  /-- NVMe-MI configurations, by identifier -/
  config : AMap Nat
  rom : List Byte
  /-- thermal readings in 0.125 °C, their peaks, rail readings in mV, their lows -/
  therm : List Int
  thermPeak : List Int
  rails : List Nat
  railLow : List Nat
  /-- throttle level of table 17-5, the extra level of R729, how many averages in a row were low -/
  base : Nat
  extra : Bool
  lowRuns : Nat
  /-- microseconds at level 1 or higher beyond the milliseconds counted -/
  oddUs : Nat
  /-- the request in force before one that lowered VDD_CD, and the time until which the rail monitor keeps to its bound (R770) -/
  vcdOld : Option (Nat × Nat)
  /-- whether no further voltage request is made (R722) -/
  avsStop : Bool
  /-- PLDM terminus ID -/
  tid : Nat
deriving DecidableEq, Repr

/-- An admin command that the management endpoint tunnels (R749), or another opcode. -/
inductive TunnelCmd
  | identify (cns nsid cntid : Nat)
  | getLogPage (lid nsid off len : Nat) (rae : Bool)
  | getFeatures (fid nsid cdw11 sel : Nat)
  | imageDownload (off : Nat) (bytes : List Byte)
  | firmwareCommit (slot action : Nat)
  | other (opcode : Nat)
deriving DecidableEq, Repr

/-- What a line of the placement areas or of the working area holds (table 4-4). -/
inductive LineUse
  /-- a resolved row -/
  | row (k : RowKey)
  /-- an armature image -/
  | image
  /-- the two entries of an exception table line: pool, stripe, fragment -/
  | excs (keys : List (Nat × Nat × Nat))
  | freeSet
  /-- management firmware data -/
  | firmware
deriving DecidableEq, Repr

/-- How the rebuild of a placement line ends, the plinth's part of it apart: rewritten, or stopped by an uncorrectable read (R172). -/
inductive LineRebuild | rewritten | uncorrectable
deriving DecidableEq, Repr

/-! ### What leaves the block, and the event log -/

/-- One thing a command makes the block send outside. Payload writes to host memory say whether they carry Relaxed Ordering; completion queue
entries, head writebacks, status records and MSI-X messages never carry it, and no request sets No Snoop (R553). -/
inductive Emit
  /-- a command to a member -/
  | member (c : MCmd)
  /-- a member's controller reset (0), the reset of a member's link (1), or a link disabled (2) -/
  | memberReset (kind target : Nat)
  /-- the reset of the link above a reporter: the direct link and the downstream ports below it (R596) -/
  | linkReset (link : Nat) (ports : List Nat)
  /-- a namespace of the discovery list identified again (R580) -/
  | memberIdentify (ordinal : Nat)
  /-- a DMA write to host memory: port B or A, whether it carries Relaxed Ordering (R553), address, bytes -/
  | dma (portB ro : Bool) (addr : Nat) (bytes : List Byte)
  /-- a DMA read request with its tag -/
  | dmaRead (portB : Bool) (tag addr len : Nat)
  /-- an MSI-X message: port, function, vector -/
  | irq (portB : Bool) (fn vec : Nat)
  /-- a completion queue entry of a host command: port, SQ, command identifier, status, DNR, dword 0 -/
  | cpl (portB : Bool) (sq cid : Nat) (status : NvStatus) (dnr : Bool) (dw0 : Nat)
  /-- the data blocks of a host read, after decryption, and whether the write carries Relaxed Ordering (R553) -/
  | hostData (portB ro : Bool) (sq cid lba : Nat) (b : Block)
  /-- metadata of a block of a host read -/
  | hostMeta (portB ro : Bool) (sq cid lba : Nat) (bytes : List Byte)
  /-- a posted write into the partner's peer window (table 14-5): peer link PB or PA, offset, bytes -/
  | peerWrite (portB : Bool) (off : Nat) (bytes : List Byte)
  /-- a region's acknowledgement of a snoop (R360) -/
  | snoopAck (region : Nat)
  /-- a write into HBM's host area, and the zeroing of all of it (R174) -/
  | hbm (addr : Nat) (bytes : List Byte)
  | hbmZero
  /-- an error reported through AER: port, function, error -/
  | aer (portB : Bool) (fn err : Nat)
  /-- an asynchronous event notice: port, type, information, log page -/
  | aen (portB : Bool) (typ info page : Nat)
  /-- a reply to a read: value, or poisoned -/
  | reply (v : DWord)
  | replyBytes (bytes : List Byte)
  | poisoned
  | unsupported
  | retryStatus
  /-- a management reply: message type, code, bytes -/
  | mgmt (typ code : Nat) (bytes : List Byte)
  /-- a voltage request for VDD_CD over AVSBus, mV (R721) -/
  | avs (mv : Nat)
  /-- the levels and the output enables of MGPIO (R601) -/
  | gpio (out oe : Nat)
  /-- a pin driven to a level -/
  | pin (name : String) (level : Bool)
  /-- a write of a plinth structure on every plinth copy: what, its number, and the member writes -/
  | plinth (what : String) (n : Nat) (writes : List PlinthWrite)
  /-- the Error Information log returned to a command -/
  | errLog (portB : Bool) (cid : Nat) (entries : List ErrEntry)
  /-- a standard data structure or log page returned to a command, as named values -/
  | info (portB : Bool) (cid : Nat) (what : String) (items : List (String × Nat))
  /-- the bytes of a vendor log page returned to a command -/
  | page (portB : Bool) (cid lid : Nat) (bytes : List Byte)
  /-- the Format NVM of R580 toward a discovered namespace: ordinal, 16 metadata bytes -/
  | memberFormat (ordinal : Nat) (meta16 : Bool)
  /-- a PME message of PF1 (R564) -/
  | pme (portB : Bool)
  /-- a vault write: what, and its number -/
  | vault (what : String) (n : Nat)
  /-- bytes written into an area of the vault -/
  | vaultBytes (what : String) (bytes : List Byte)
deriving DecidableEq, Repr

/-- One event record (table 18-6). -/
structure LogRec where
  seq : Nat
  us : Nat
  rstCount : Nat
  code : Nat
  sev : Nat
  payload : List Byte
deriving DecidableEq, Repr

/-- Who makes a register access (R23): a host port or the management core. -/
inductive Requester | portA | portB | mgmt
deriving DecidableEq, Repr

/-- The register bus: write latches (R6 to R8), read latches (R764). -/
structure Bus where
  /-- low words latched: requester, register, word -/
  wlatch : List (Requester × Nat × Word)
  /-- each requester's previous register read, when it was a low word: register and the high word latched -/
  rlatch : List (Requester × Nat × Word)
deriving DecidableEq, Repr

/-- The event log engine (R753 to R756): unwritten records, and the vault ring. -/
structure EvLog where
  tail : List LogRec
  ring : List LogRec
  /-- records dropped since the last record that says so (R756) -/
  droppedSince : Nat
deriving DecidableEq, Repr

end Sys2Proof.Machine
end

