-- ==== Sys2Proof/Syntax.lean ====
section
/-!
DEFINITION. The commands of the CV-2048: one constructor for each row of the opcode table, with the operands that the row names: first the
rows with operands, in the table's order, then those without, in its order (compiled Lean holds at most 244 constructors that carry data).
The table gives no row any bits. Operands of event rows say what the outside of the block brings with the event.
-/
namespace Sys2Proof

open Machine in
/-- The commands: register accesses, NVMe commands, channel instructions, events on pins, links and members, and timers. -/
inductive Instr where
  /-- REGISTER_WRITE (R18): offset in BAR2 (for the management core its offset in the register space), word written -/
  | registerWrite (req : Requester) (off : Nat) (w : Word)
  /-- LOW_WORD_WRITE (R6) -/
  | lowWordWrite (req : Requester) (off : Nat) (w : Word)
  /-- HIGH_WORD_WRITE (R7) -/
  | highWordWrite (req : Requester) (off : Nat) (w : Word)
  /-- UNALIGNED_ACCESS (R4): byte offset, whether it is a read, length -/
  | unalignedAccess (req : Requester) (off : Nat) (read : Bool) (len : Nat)
  /-- CLEAR_IGNORED_WRITES (R22) -/
  | clearIgnoredWrites (req : Requester) (w : Word)
  /-- CLEARING_COUNTER_WRITE (R12): which counter: 0 GCS_IGNORED_WRITES, 1 JNL_OCCUPANCY, 2 CWQ_DROPPED -/
  | clearingCounterWrite (req : Requester) (which : Nat) (w : Word)
  /-- LOW_WORD_READ (R764): a 32-bit read: of a low word, or of a 32-bit register -/
  | lowWordRead (req : Requester) (off : Nat)
  /-- HIGH_WORD_READ (R764) -/
  | highWordRead (req : Requester) (off : Nat)
  /-- ARM_LOAD (R133): SRC_INTERNAL as written -/
  | armLoad (req : Requester) (internal : Bool)
  /-- ARM_LOAD_COPY_DONE (R793): whether every byte could be read, and the image -/
  | armLoadCopyDone (ok : Bool) (img : List Byte)
  /-- ARM_COMMIT (R135) -/
  | armCommit (req : Requester) (internal : Bool)
  /-- ARM_PLINTH_WRITTEN (R136): plinth copies that acknowledged, and whether the vault took the image -/
  | armPlinthWritten (acks : Nat) (vaultOk : Bool)
  /-- ARM_DISCARD (R133) -/
  | armDiscard (req : Requester) (internal : Bool)
  /-- CKPT_NOW (R237) -/
  | ckptNow (req : Requester)
  /-- EXC_CHECKPOINT_DURABLE (R150): plinth copies that acknowledged -/
  | excCheckpointDurable (acks : Nat)
  /-- JOURNAL_CHECKPOINT_DURABLE (R238) -/
  | journalCheckpointDurable (acks : Nat)
  /-- BUF_UNCORRECTABLE_LINE (R166 to R173): internal address, source (table 4-13), whether the stack reports the line corrected, the errors
  in its 72 bytes, what a placement or working line holds, how its rebuild ends -/
  | bufUncorrectableLine (addr : Nat) (source : Nat) (inner : Bool) (err : List Byte) (use : LineUse) (how : LineRebuild)
  /-- JOURNAL_LINE_REPAIR (R171): the record, and whether the partner gave its lines -/
  | journalLineRepair (seq : Nat) (ok : Bool)
  /-- PATROL_SCRUB (R180): of the next line, as in BUF_UNCORRECTABLE_LINE -/
  | patrolScrub (inner : Bool) (err : List Byte) (use : LineUse) (how : LineRebuild)
  /-- BUF_CLR_COUNTS (R183) -/
  | bufClrCounts (req : Requester)
  /-- WRITE (R192): the command, its data blocks, and their metadata -/
  | write (h : HostIo) (data : List Block) (md : List (List Byte))
  /-- LOCAL_COPY_IN_PLACE (R198): first sequence of the group -/
  | localCopyInPlace (first : Nat)
  /-- MIRROR_ACK (R201): sequence that the ACK names -/
  | mirrorAck (seq : Nat)
  /-- DESTAGE_SETTLE_EXPIRY (R214) -/
  | destageSettleExpiry (pool : Nat) (stripe : Nat)
  /-- STRIPE_LOCK_GRANT (R208) -/
  | stripeLockGrant (pool : Nat) (stripe : Nat)
  /-- MEMBER_READ_COMPLETION (R293): the command, whether it succeeded, its blocks with inline tags, or the tag
  blocks of a tag-sector member -/
  | memberReadCompletion (id : Nat) (ok : Bool) (blocks : List Block) (tags : List (BitVec 128)) (tagBlocks : List (Nat × Block))
  /-- MEMBER_WRITE_COMPLETION (R222) -/
  | memberWriteCompletion (id : Nat) (ok : Bool) (tagBlocks : List (Nat × Block))
  /-- JNL_BARRIER (R223) -/
  | jnlBarrier (req : Requester)
  /-- REPLAY (R240, R802): what each plinth copy answers, and the records whose CRC fails -/
  | replay (copies : List PlinthRead) (bad : List Nat)
  /-- READ (R254) -/
  | read (h : HostIo)
  /-- SUSPECT_READ_SLOW (R256) -/
  | suspectReadSlow (id : Nat)
  /-- DECODE_STAGING_GRANT (R259) -/
  | decodeStagingGrant (op : Nat)
  /-- MEMBER_FAIL (R252) -/
  | memberFail (req : Requester) (m : Nat)
  /-- MEMBER_READMIT (R252) -/
  | memberReadmit (req : Requester) (m : Nat)
  /-- MEMBER_RETIRE (R252) -/
  | memberRetire (req : Requester) (m : Nat)
  /-- MEMBER_CLEAR (R252) -/
  | memberClear (req : Requester) (m : Nat)
  /-- MEMBER_QUIET (R247) -/
  | memberQuiet (m : Nat)
  /-- MEMBER_ABSENT_TIMEOUT (R247) -/
  | memberAbsentTimeout (m : Nat)
  /-- DISCOVER_TIMEOUT (R253) -/
  | discoverTimeout (m : Nat)
  /-- SILLAGE_INTERVAL (R263) -/
  | sillageInterval
  /-- SCRUB_NOW (R271) -/
  | scrubNow (req : Requester)
  /-- ITG_CLR_COUNTS (R335) -/
  | itgClrCounts (req : Requester)
  /-- KEY_SWITCH (R330) -/
  | keySwitch (nsid : Nat)
  /-- KEY_SLOT_ERASED (R331) -/
  | keySlotErased (slot : Nat)
  /-- ITEM_DISPATCH (R339) -/
  | itemDispatch (op : Nat) (errs : List RowKey)
  /-- UNIT_FAULT (R346): mismatch of two results, or a fault that the unit reports -/
  | unitFault (unit : Nat) (mismatch : Bool)
  /-- UNIT_RETIRE (R349) -/
  | unitRetire (req : Requester) (unit : Nat)
  /-- UCIE_DELIVERY_FAILURE (R337) -/
  | ucieDeliveryFailure (die : Nat)
  /-- ELB_FILL_DATA (R362): good: the data's parity holds -/
  | elbFillData (region : Nat) (key : RowKey) (good : Bool) (how : LineRebuild)
  /-- SNOOP (R360) -/
  | snoop (region : Nat) (key : RowKey)
  /-- ELB_TAG_PARITY_ERROR (R366) -/
  | elbTagParityError (region : Nat)
  /-- CLUSTER_HOLD_EXPIRY (R368) -/
  | clusterHoldExpiry (cluster : Nat)
  /-- REGION_HOLD_EXPIRY (R369) -/
  | regionHoldExpiry (region : Nat)
  /-- REGION_POWER_UP_DONE (R371) -/
  | regionPowerUpDone (region : Nat)
  /-- DIE_PLL_LOCK (R372) -/
  | diePllLock (die : Nat)
  /-- FAB_WATCH_WRITE (R376) -/
  | fabWatchWrite (req : Requester) (mask : Nat)
  /-- NO_SLEEP_WRITE (R373) -/
  | noSleepWrite (req : Requester)
  /-- FAB_CLR_COUNTS (R378) -/
  | fabClrCounts (req : Requester)
  /-- MOVE (R398): channel, and the 32 bytes of the instruction as a number, byte 0 lowest -/
  | move (ch : Nat) (w : BitVec 256)
  /-- MAC (R406) -/
  | mac (ch : Nat) (w : BitVec 256) (table : List Byte)
  /-- LOOP_BEGIN (R413) -/
  | loopBegin (ch : Nat) (w : BitVec 256)
  /-- LOOP_NEXT (R413) -/
  | loopNext (ch : Nat) (w : BitVec 256)
  /-- WAIT_SEM (R417) -/
  | waitSem (ch : Nat) (w : BitVec 256)
  /-- WAIT_LEVEL (R417) -/
  | waitLevel (ch : Nat) (w : BitVec 256)
  /-- WAIT_TIMER (R417) -/
  | waitTimer (ch : Nat) (w : BitVec 256)
  /-- WAIT_EVENT (R417) -/
  | waitEvent (ch : Nat) (w : BitVec 256)
  /-- WAIT_TIMER_EXPIRY (R417) -/
  | waitTimerExpiry (ch : Nat)
  /-- WAIT_TIMEOUT (R417) -/
  | waitTimeout (ch : Nat)
  /-- SIGNAL_SEM (R415) -/
  | signalSem (ch : Nat) (w : BitVec 256)
  /-- SIGNAL_IRQ (R418) -/
  | signalIrq (ch : Nat) (w : BitVec 256)
  /-- SIGNAL_COMPLETE (R418) -/
  | signalComplete (ch : Nat) (w : BitVec 256)
  /-- NOP (R420) -/
  | nop (ch : Nat) (w : BitVec 256)
  /-- END (R420) -/
  | end_ (ch : Nat) (w : BitVec 256)
  /-- TRANSFER_UNIT_DONE (R380) -/
  | transferUnitDone (ch : Nat)
  /-- CHANNEL_WATCHDOG (R422) -/
  | channelWatchdog (ch : Nat)
  /-- CHN_ABORT (R423) -/
  | chnAbort (req : Requester) (ch : Nat)
  /-- CHN_START (R430) -/
  | chnStart (req : Requester) (ch : Nat)
  /-- CHN_CLR_LEVEL (R410) -/
  | chnClrLevel (req : Requester) (ch : Nat)
  /-- CHN_SEM_WRITE (R417) -/
  | chnSemWrite (req : Requester) (ch : Nat) (sem : Nat) (value : Word)
  /-- SQ_DOORBELL (R440) -/
  | sqDoorbell (req : Requester) (q : Nat) (tail : Word)
  /-- CQ_DOORBELL (R441) -/
  | cqDoorbell (req : Requester) (q : Nat) (head : Word)
  /-- SQ_ENTRY_FETCHED (R448): the entry's 64 bytes, or none and the cause: 0 unsupported request, 1 completer abort, 2
  completion timeout, 3 poisoned -/
  | sqEntryFetched (q : Nat) (res : Option (List Byte)) (cause : Nat)
  /-- HEAD_WRITEBACK_TIMER (R453) -/
  | headWritebackTimer (q : Nat)
  /-- SQ_ABORT (R463) -/
  | sqAbort (req : Requester) (q : Nat) (cid : Nat)
  /-- SQ_ENABLE (R467) -/
  | sqEnable (req : Requester) (q : Nat)
  /-- SQ_DISABLE (R466) -/
  | sqDisable (req : Requester) (q : Nat)
  /-- RESET_IDX (R470) -/
  | resetIdx (req : Requester) (q : Nat)
  /-- CQ_ENABLE (R471) -/
  | cqEnable (req : Requester) (q : Nat)
  /-- CQ_DISABLE (R471) -/
  | cqDisable (req : Requester) (q : Nat)
  /-- CQ_MOD_TIMER (R474) -/
  | cqModTimer (q : Nat)
  /-- CREATE_IO_SQ (R486) -/
  | createIoSq (portB : Bool) (cid : Nat) (qid : Nat) (size : Nat) (cqid : Nat) (prio : Nat)
  /-- CREATE_IO_CQ (R486) -/
  | createIoCq (portB : Bool) (cid : Nat) (qid : Nat) (size : Nat) (vec : Nat) (ien : Bool)
  /-- DELETE_IO_SQ (R521) -/
  | deleteIoSq (portB : Bool) (cid : Nat) (qid : Nat)
  /-- DELETE_IO_CQ (R486) -/
  | deleteIoCq (portB : Bool) (cid : Nat) (qid : Nat)
  /-- GET_LOG_PAGE (R529) -/
  | getLogPage (portB : Bool) (cid : Nat) (lid : Nat) (nsid : Nat) (off : Nat) (len : Nat) (rae : Bool)
  /-- IDENTIFY (R500) -/
  | identify (portB : Bool) (cid : Nat) (cns : Nat) (nsid : Nat) (cntid : Nat)
  /-- ABORT (R504) -/
  | abort (portB : Bool) (cid : Nat) (sq : Nat) (target : Nat)
  /-- SET_FEATURES (R525): the APST table where the feature has one -/
  | setFeatures (portB : Bool) (cid : Nat) (fid : Nat) (nsid : Nat) (cdw11 : Nat) (save : Bool) (table : List DWord)
  /-- GET_FEATURES (R525) -/
  | getFeatures (portB : Bool) (cid : Nat) (fid : Nat) (nsid : Nat) (cdw11 : Nat) (sel : Nat)
  /-- ASYNC_EVENT_REQUEST (R500) -/
  | asyncEventRequest (portB : Bool) (cid : Nat)
  /-- FIRMWARE_IMAGE_DOWNLOAD (R523) -/
  | firmwareImageDownload (portB : Bool) (cid : Nat) (off : Nat) (bytes : List Byte)
  /-- FIRMWARE_COMMIT (R744) -/
  | firmwareCommit (portB : Bool) (cid : Nat) (slot : Nat) (action : Nat)
  /-- FORMAT_NVM (R510) -/
  | formatNvm (portB : Bool) (cid : Nat) (nsid : Nat) (lbaf : Nat) (pi : Nat) (ses : Nat) (piFirst : Bool)
  /-- SANITIZE (R514) -/
  | sanitize (portB : Bool) (cid : Nat) (action : Nat) (passes : Nat) (pattern : Nat) (ause : Bool) (invert : Bool) (noDealloc : Bool)
  /-- KEEP_ALIVE (R500) -/
  | keepAlive (portB : Bool) (cid : Nat)
  /-- FLUSH (R507) -/
  | flush (h : HostIo)
  /-- WRITE_ZEROES (R500) -/
  | writeZeroes (h : HostIo)
  /-- DATASET_MANAGEMENT (R500): AD, and the ranges: first LBA and length -/
  | datasetManagement (h : HostIo) (dealloc : Bool) (ranges : List (Nat × Nat))
  /-- VERIFY (R500) -/
  | verify (h : HostIo)
  /-- NAMESPACE_MANAGEMENT (R490) -/
  | namespaceManagement (portB : Bool) (cid : Nat)
  /-- NAMESPACE_ATTACHMENT (R490) -/
  | namespaceAttachment (portB : Bool) (cid : Nat)
  /-- INVALID_OPCODE (R500) -/
  | invalidOpcode (portB : Bool) (sq : Nat) (cid : Nat)
  /-- NVME_SQ_DOORBELL (R487) -/
  | nvmeSqDoorbell (portB : Bool) (sq : Nat) (tail : Nat)
  /-- NVME_CQ_DOORBELL (R486) -/
  | nvmeCqDoorbell (portB : Bool) (cq : Nat) (head : Nat)
  /-- CC_ENABLE (R485): CC.AMS and the admin queue sizes of AQA -/
  | ccEnable (portB : Bool) (ams : Nat) (asqs : Nat) (acqs : Nat)
  /-- READY_TIMEOUT (R485) -/
  | readyTimeout (portB : Bool)
  /-- CC_DISABLE (R521) -/
  | ccDisable (portB : Bool)
  /-- SHUTDOWN_NORMAL (R521) -/
  | shutdownNormal (portB : Bool)
  /-- SHUTDOWN_ABRUPT (R521) -/
  | shutdownAbrupt (portB : Bool)
  /-- APST_TRANSITION (R520) -/
  | apstTransition (portB : Bool)
  /-- CONFIG_WRITE (R534): function, register, value, and the bits that the byte enables select -/
  | configWrite (portB : Bool) (fn : Nat) (off : Nat) (v : Word) (enable : Word)
  /-- FLR (R560) -/
  | flr (portB : Bool) (fn : Nat)
  /-- BUS_MASTER_DISABLE (R559) -/
  | busMasterDisable (portB : Bool) (fn : Nat)
  /-- BUS_MASTER_ENABLE (R473) -/
  | busMasterEnable (portB : Bool) (fn : Nat)
  /-- DSTATE_CHANGE (R563) -/
  | dstateChange (portB : Bool) (fn : Nat) (d3hot : Bool)
  /-- HOST_PORT_RESET (R561): perst: by PERST, not by hot reset or DL_Down -/
  | hostPortReset (portB : Bool) (perst : Bool)
  /-- HOST_COMPLETION (R550) -/
  | hostCompletion (portB : Bool) (tag : Nat) (res : CplRes)
  /-- COMPLETION_TIMEOUT (R555) -/
  | completionTimeout (portB : Bool) (tag : Option Nat)
  /-- TAG_QUARANTINE_EXPIRY (R556) -/
  | tagQuarantineExpiry (portB : Bool) (tag : Nat)
  /-- BAR4_READ (R543) -/
  | bar4Read (portB : Bool) (off : Nat) (len : Nat)
  /-- BAR4_WRITE (R543) -/
  | bar4Write (portB : Bool) (off : Nat) (bytes : List Byte) (poisoned : Bool)
  /-- EXPANSION_ROM_READ (R549) -/
  | expansionRomRead (portB : Bool) (off : Nat) (len : Nat)
  /-- XLT_CLR_COUNTS (R566) -/
  | xltClrCounts (req : Requester)
  /-- PORT_PLL_LOCK_LOSS (R713): index of table 17-1 -/
  | portPllLockLoss (clock : Nat)
  /-- MEMBER_COMMAND_TIMEOUT (R590) -/
  | memberCommandTimeout (id : Nat)
  /-- MEMBER_ABORT_TIMEOUT (R590) -/
  | memberAbortTimeout (id : Nat)
  /-- MEMBER_CTRL_RESET_DONE (R590) -/
  | memberCtrlResetDone (m : Nat)
  /-- MEMBER_CTRL_RESET_TIMEOUT (R590) -/
  | memberCtrlResetTimeout (m : Nat)
  /-- MEMBER_LINK_TIMEOUT (R590) -/
  | memberLinkTimeout (m : Nat)
  /-- MEMBER_SURPRISE_REMOVAL (R593): global link, and the downstream ports to the slot -/
  | memberSurpriseRemoval (link : Nat) (ports : List Nat)
  /-- MEMBER_LINK_DOWN (R594) -/
  | memberLinkDown (link : Nat) (ports : List Nat)
  /-- MEMBER_HOTPLUG_ARRIVAL (R595): speed, width and flit mode where the link has trained -/
  | memberHotplugArrival (link : Nat) (ports : List Nat) (up : Option (Nat × Nat × Bool))
  /-- MEMBER_AER_ERROR (R596) -/
  | memberAerError (link : Nat) (ports : List Nat) (bus : Nat) (devfn : Nat) (fatal : Bool) (m : Option Nat)
  /-- MEMBER_ASYNC_EVENT (R588) -/
  | memberAsyncEvent (m : Nat) (kind : AsyncKind)
  /-- MBR_RESCAN (R578) -/
  | mbrRescan (req : Requester)
  /-- MBR_DISC_DUMP (R579): DISC_INTERNAL as written; whether the target took the list -/
  | mbrDiscDump (req : Requester) (internal : Bool) (ok : Bool)
  /-- MBR_CLR_COUNTS (R602) -/
  | mbrClrCounts (req : Requester)
  /-- MBR_FORMAT (R580) -/
  | mbrFormat (req : Requester) (ordinal : Nat) (meta16 : Bool)
  /-- SLOT_POWER_ON (R598) -/
  | slotPowerOn (req : Requester) (member : Bool) (target : Nat)
  /-- SLOT_POWER_OFF (R598) -/
  | slotPowerOff (req : Requester) (member : Bool) (target : Nat)
  /-- HEARTBEAT_RECEIVED (R633) -/
  | heartbeatReceived (view : PeerView)
  /-- PEER_LINK_DOWN (R633): PA or PB -/
  | peerLinkDown (pb : Bool)
  /-- MIRROR_COMMIT_DOORBELL (R624): the doorbell's fields, and the records that its lines spell -/
  | mirrorCommitDoorbell (first : Nat) (last : Nat) (tail : Nat) (crcOk : Bool) (recs : List JRec)
  /-- PEER_WINDOW_REQUEST (R608, R621): an address of the peer link -/
  | peerWindowRequest (write : Bool) (addr : Nat) (len : Nat)
  /-- JOIN (R644) -/
  | join (msg : JoinMsg)
  /-- KEYX (R629) -/
  | keyx (verified : Bool) (certLen : Nat)
  /-- KEY (R630) -/
  | key (op : Nat) (slot : Nat) (nsid : Nat) (keyNo : Nat)
  /-- KEY_DONE (R630) -/
  | keyDone (op : Nat) (result : Nat) (slot : Nat) (nsid : Nat)
  /-- MEMBER_EVENT (R615) -/
  | memberEvent (m : Nat) (code : Nat)
  /-- OWNERSHIP (R641) -/
  | ownership (pools : Nat) (head : Nat)
  /-- OWN_ACK (R641) -/
  | ownAck (pools : Nat)
  /-- QUIET (R641) -/
  | quiet (pools : Nat)
  /-- ADOPT_DONE (R641) -/
  | adoptDone (pools : Nat)
  /-- ARM_STAGE (R631) -/
  | armStage (epoch : Nat) (crc : Nat) (img : List Byte)
  /-- ARM_READY (R631) -/
  | armReady (epoch : Nat) (code : Nat) (draining : Bool)
  /-- ARM_SWITCH (R631) -/
  | armSwitch (epoch : Nat)
  /-- CKPT_DONE (R615) -/
  | ckptDone (seq : Nat)
  /-- MIRROR_BAD (R625) -/
  | mirrorBad (seq : Nat)
  /-- RESYNC_DONE (R615) -/
  | resyncDone (m : Nat)
  /-- NS_OP (R620) -/
  | nsOp (op : Nat) (nsid : Nat) (cdw10 : Nat) (cdw11 : Nat)
  /-- NS_DONE (R620) -/
  | nsDone (op : Nat) (status : NvStatus)
  /-- FILL_DONE (R797) -/
  | fillDone (pool : Nat) (pos : Nat) (group : Nat)
  /-- ACD_FENCE (R645) -/
  | acdFence (req : Requester)
  /-- ACD_RELEASE (R643) -/
  | acdRelease (req : Requester)
  /-- ACD_PEER_RESET (R609) -/
  | acdPeerReset (req : Requester)
  /-- ACD_CLR_COUNTS (R647) -/
  | acdClrCounts (req : Requester)
  /-- ACD_OWN_CMD (R641) -/
  | acdOwnCmd (req : Requester) (mask : DWord)
  /-- DUMP (R657, R675): time the dump took, and vault blocks that failed a program or erase in it -/
  | dump (ms : Nat) (failed : Nat)
  /-- VLT_DISCARD_DUMP (R668) -/
  | vltDiscardDump (req : Requester)
  /-- VLT_CLR_FLAGS (R664) -/
  | vltClrFlags (req : Requester)
  /-- POWER_ON (R679): whether the backup domain has kept its state -/
  | powerOn (bkp : Bool)
  /-- SOFTWARE_WARM (R679): the KEY written -/
  | softwareWarm (req : Requester) (keyw : Nat)
  /-- SOFTWARE_COLD (R693) -/
  | softwareCold (req : Requester) (keyw : Nat)
  /-- RST_CLR_HIST (R700) -/
  | rstClrHist (req : Requester) (keyw : Nat)
  /-- CRITICAL_STATE_ERROR (R679) -/
  | criticalStateError (source : Nat) (target : Nat)
  /-- DIE_PLL_LOCK_LOSS (R679) -/
  | diePllLockLoss (die : Nat)
  /-- BLOCK_RESET_CMD (R688) -/
  | blockResetCmd (req : Requester) (level : Nat) (target : Nat)
  /-- BLOCK_IDLE_REACHED (R684) -/
  | blockIdleReached (level : Nat) (target : Nat)
  /-- BLOCK_IDLE_TIMEOUT (R684) -/
  | blockIdleTimeout (level : Nat) (target : Nat)
  /-- BLOCK_RESET_EXIT (R687) -/
  | blockResetExit (level : Nat) (target : Nat) (trained : Bool)
  /-- PACKAGE_RESET_EXIT (R698, R784): units that fail the self-test, how each host link trains, and whether CLK_BKP runs -/
  | packageResetExit (failed : List Nat) (linkA : Option (Nat × Nat × Bool)) (linkB : Option (Nat × Nat × Bool)) (bkpClock : Bool)
  /-- OPTION_LOAD_DONE (R703): whether each copy could be read -/
  | optionLoadDone (okA : Bool) (okB : Bool)
  /-- THERMAL_SAMPLE (R727): 28 readings in 0.125 °C -/
  | thermalSample (readings : List Int)
  /-- RAIL_SAMPLE (R751): 12 readings in mV -/
  | railSample (readings : List Nat)
  /-- VBAT_LOW (R752) -/
  | vbatLow (mv : Nat)
  /-- POWER_CAP_AVERAGE (R729) -/
  | powerCapAverage (mw : Nat)
  /-- CPM_CLR_COUNTS (R731) -/
  | cpmClrCounts (req : Requester)
  /-- MBX_OPT_WRITE (R759) -/
  | mbxOptWrite (vaultOk : Bool)
  /-- PLDM_REQUEST_UPDATE (R746) -/
  | pldmRequestUpdate (size : Nat)
  /-- PLDM_FIRMWARE_DATA (R745) -/
  | pldmFirmwareData (bytes : List Byte)
  /-- PLDM_ACTIVATE_FIRMWARE (R745) -/
  | pldmActivateFirmware (selfContained : Bool)
  /-- PLDM_BASE_DISCOVERY (R748) -/
  | pldmBaseDiscovery (cmd : Nat) (arg : Nat)
  /-- SET_ENDPOINT_ID (R748) -/
  | setEndpointId (eid : Nat)
  /-- GET_MCTP_VERSION_SUPPORT (R748) -/
  | getMctpVersionSupport (typ : Nat)
  /-- READ_NVME_MI_DATA_STRUCTURE (R749) -/
  | readNvmeMiDataStructure (typ : Nat) (cntid : Nat)
  /-- SUBSYSTEM_HEALTH_STATUS_POLL (R749) -/
  | subsystemHealthStatusPoll (clear : Bool)
  /-- CONTROLLER_HEALTH_STATUS_POLL (R749) -/
  | controllerHealthStatusPoll (first : Nat)
  /-- CONFIGURATION_SET (R749) -/
  | configurationSet (id : Nat) (value : Nat)
  /-- CONFIGURATION_GET (R749) -/
  | configurationGet (id : Nat)
  /-- VPD_READ (R749) -/
  | vpdRead (off : Nat) (len : Nat)
  /-- MI_TUNNELLED_ADMIN (R749) -/
  | miTunnelledAdmin (tag : Nat) (cmd : TunnelCmd)
  /-- LOG_FLUSH (R753) -/
  | logFlush (req : Requester)
  /-- SNS_CLR_PEAK (R750) -/
  | snsClrPeak (req : Requester)
  /-- VBAT_RESTORED (R752) -/
  | vbatRestored (mv : Nat)
  /-- PEER_LINK_UP (R633) -/
  | peerLinkUp (pb : Bool)
  /-- HOST_PERST_RELEASE (R717) -/
  | hostPerstRelease (portB : Bool) (link : Option (Nat × Nat × Bool))
  /-- MEMBER_ADMIN_COMPLETION (R577) -/
  | memberAdminCompletion (res : AdminResult)
  /-- MESSAGE_RING_ACK (R627) -/
  | messageRingAck (ack : Nat)
  /-- ARM_COMMIT_POINT (R135) -/
  | armCommitPoint
  /-- ARM_DRAIN_END (R145) -/
  | armDrainEnd
  /-- CKPT_INTERVAL_EXPIRY (R237) -/
  | ckptIntervalExpiry
  /-- CKPT_METADATA_TRIGGER (R237) -/
  | ckptMetadataTrigger
  /-- BUF_INIT_DONE (R174) -/
  | bufInitDone
  /-- GROUP_ADMIT (R196) -/
  | groupAdmit
  /-- DRYDOWN_IDLE_EXPIRY (R212) -/
  | drydownIdleExpiry
  /-- DESTAGE_START (R214) -/
  | destageStart
  /-- SILLAGE_START (R265) -/
  | sillageStart
  /-- EXC_BATCH_EXPIRY (R267) -/
  | excBatchExpiry
  /-- SCRUB_PERIOD_EXPIRY (R271) -/
  | scrubPeriodExpiry
  /-- KEY_GENERATION (R329) -/
  | keyGeneration
  /-- ENTRY_START (R450) -/
  | entryStart
  /-- FW_ACTIVATION (R522) -/
  | fwActivation
  /-- NVM_SUBSYSTEM_RESET (R521) -/
  | nvmSubsystemReset
  /-- MEMBER_STRAY_REQUEST (R576) -/
  | memberStrayRequest
  /-- SLOT_POWER_BATCH (R597) -/
  | slotPowerBatch
  /-- MPERST_RELEASE (R600) -/
  | mperstRelease
  /-- HEARTBEAT_SEND (R633) -/
  | heartbeatSend
  /-- PARTNER_LOSS (R633) -/
  | partnerLoss
  /-- FENCE_HOLDOFF_EXPIRY (R634) -/
  | fenceHoldoffExpiry
  /-- FENCE_IN_ASSERT (R636) -/
  | fenceInAssert
  /-- FENCE_IN_RELEASE (R611) -/
  | fenceInRelease
  /-- FENCE_IN_PLACE (R635) -/
  | fenceInPlace
  /-- JOIN_WAIT_EXPIRY (R611) -/
  | joinWaitExpiry
  /-- DRAIN_MS_EXPIRY (R639) -/
  | drainMsExpiry
  /-- DUMP_FAILED_SILENCE_EXPIRY (R670) -/
  | dumpFailedSilenceExpiry
  /-- PWR_FAIL_ASSERT (R653) -/
  | pwrFailAssert
  /-- IN_PLACE_RESUME (R671) -/
  | inPlaceResume
  /-- VAULT_NAND_IDLE (R716) -/
  | vaultNandIdle
  /-- SYS_RST_N_ASSERT (R689) -/
  | sysRstNAssert
  /-- SYS_RST_STRETCH_EXPIRY (R689) -/
  | sysRstStretchExpiry
  /-- PEER_PERST (R682) -/
  | peerPerst
  /-- IOD_PLL_LOCK_LOSS (R679) -/
  | iodPllLockLoss
  /-- MGMT_WATCHDOG (R734) -/
  | mgmtWatchdog
  /-- SUPPLY_BROWNOUT (R774) -/
  | supplyBrownout
  /-- AVS_TIMEOUT (R722) -/
  | avsTimeout
  /-- VCD_LOWER_TIMER (R721) -/
  | vcdLowerTimer
  /-- MBX_NOP (R758) -/
  | mbxNop
  /-- MBX_GET_INFO (R758) -/
  | mbxGetInfo
  /-- MBX_OPT_READ (R758) -/
  | mbxOptRead
  /-- MBX_LOG_READ (R758) -/
  | mbxLogRead
  /-- MBX_FW_SELECT (R758) -/
  | mbxFwSelect
  /-- GET_ENDPOINT_ID (R748) -/
  | getEndpointId
  /-- GET_MESSAGE_TYPE_SUPPORT (R748) -/
  | getMessageTypeSupport
  /-- GET_ENDPOINT_UUID (R748) -/
  | getEndpointUuid
  /-- VPD_WRITE (R749) -/
  | vpdWrite
  /-- MI_RESET (R749) -/
  | miReset
  /-- I3C_MODE_ENTRY (R747) -/
  | i3cModeEntry
  /-- LOG_PAGE_TIMEOUT (R753) -/
  | logPageTimeout
  /-- PWR_FAIL_DEASSERT (R671) -/
  | pwrFailDeassert
deriving DecidableEq, Repr

end Sys2Proof
end

