-- ==== Sys2Proof/Decode.lean ====
section
/-!
DEFINITION. The command that a word of the opcode table spells. The table gives no row any bits, so no word spells one. The instruction
words of channel programs are operands of their rows; Machine/ChanCode.lean decodes and encodes them.
-/
namespace Sys2Proof

/-- The command that a table word spells: none, since no row of the table has bits. -/
def decodeTableWord (_nbits _w : Nat) : Option Instr := none

end Sys2Proof
end

