-- ==== Sys2Proof/Config.lean ====
section
/-!
DEFINITION. What the spec leaves to an implementation or to a published standard it does not restate, as constants with no
body: nothing in Lean can evaluate them, so a claim about them holds whatever they are.
-/
namespace Sys2Proof.Config

/-- Free values: what an instruction or event leaves undefined, drawn by counter (log entry 2). -/
opaque freeValue : Nat → Nat

/-- The AES block cipher with a 256-bit key (FIPS 197), which R319 and R324 build on: encryption, whose inverse is decryption (log entry 14). -/
opaque aes256 : BitVec 256 → Equiv.Perm (BitVec 128)
/-- The 512-bit values that the CTR_DRBG gives, in order, seeded from the on-die entropy source (R323; log entry 139). -/
opaque drbg : Nat → BitVec 512
/-- The 256-bit fuse device key of this package (R324; log entry 139). -/
opaque deviceKey : BitVec 256
/-- The input of each block of the KDF of R324: its counter, label and context, which the spec leaves to the device (log entry 139). -/
opaque kdfInput : Nat → List Byte
/-- The transport key that a join's exchange derives (R629), by the number of the join (log entry 139). -/
opaque transportKey : Nat → BitVec 256

/-- Which line of the metadata area holds a resolved row: by pool, group, epoch and segment. The spec gives the table no layout there (log
entry 140). -/
opaque rowLine : Nat → Nat → Nat → Nat → Nat

/-- The chunk CRC table of a dump (table 15-2), by its number: the model keeps the image as what it holds, not as bytes (log entry
141). -/
opaque chunkTable : Nat → List Byte

/-- SHA-384 (FIPS 180-4), its 48 bytes read little-endian, and ECDSA over P-384 (FIPS 186): a key, a hash and a signature (R738; log entry
15). -/
opaque sha384 : List Byte → Nat
opaque ecdsaOk : List Byte → Nat → List Byte → Bool
/-- The hash of the image signing key that the fuses hold (R736; log entry 15). -/
opaque keyHash : Nat

/-- The 36 characters of the UUID derived from the fuse serial number (table 16-7; log entry 16). -/
opaque uuidText : Nat → List Byte

/-- The lowest VDD_CD of a codec die, mV, as its fuse table holds it (R721; log entry 18). -/
opaque dieNeed : Nat → Nat
/-- The version words that Get MCTP Version Support gives for a message type (R748; log entry 19). -/
opaque mctpVersion : Nat → Nat
/-- The UUID that Get Endpoint UUID gives (R748; log entry 19). -/
opaque endpointUuid : List Byte
/-- The bits of the configuration ROM image (R534) that the spec does not give: by function (2 the peer link's) and register (log entry 133). -/
opaque romBits : Nat → Nat → BitVec 32
/-- The numbers that DSP0240 and NVMe-MI leave to a device: by command and field (log entry 19). -/
opaque standardValue : Nat → Nat → Nat

/-- The payload of a KEYX: an ephemeral public key, its signature and the certificate (R629), by the number of the join (log entry 139). -/
opaque keyxPayload : Nat → Nat
/-- Bytes of the attestation certificate of a package (R629; log entry 17). -/
opaque certLength : Nat

end Sys2Proof.Config
end

