-- ==== Sys2Proof/Machine/ChanCode.lean ====
section
/-!
DEFINITION. The instruction set of channel programs (tables 9-2 to 9-9): instructions, their decoding from 32 bytes with the byte
offset of the first field that fails (R395), their encoding, and the tables of MAC (R407, table 9-6).
-/
namespace Sys2Proof.Machine

/-- A channel instruction; addresses and strides as written. -/
inductive ChInstr
  /-- MOVE (table 9-4) -/
  | move (paced : Bool) (level flush : Nat) (irqFull irqHalf : Bool) (pi swap dstSpace srcSpace pacer len src dst srcStride dstStride : Nat)
  /-- MAC (table 9-5): n outputs of k sources -/
  | mac (paced : Bool) (level : Nat) (gf16 irqFull irqHalf : Bool) (n pacer k len table srcStride dstStride : Nat)
  /-- LOOP BEGIN (table 9-7) -/
  | loopBegin (level count skip : Nat)
  /-- LOOP NEXT -/
  | loopNext (level : Nat)
  /-- WAIT (table 9-8): kind 0 SEM, 1 LEVEL, 2 TIMER, 3 EVENT -/
  | wait (kind target value timeout : Nat)
  /-- SIGNAL (table 9-9): kind 0 SEM, 1 IRQ, 2 COMPLETE -/
  | signal (kind target value user : Nat)
  /-- NOP -/
  | nop
  /-- END with its user value -/
  | end_ (user : Nat)
deriving DecidableEq, Repr

/-- Byte `i` of an instruction. -/
def insByte (w : BitVec 256) (i : Nat) : Nat := bitsOf w.toNat (8 * i + 7) (8 * i)
/-- `n` bytes of an instruction from byte `i`, little-endian. -/
def insBytes (w : BitVec 256) (i n : Nat) : Nat := bitsOf w.toNat (8 * (i + n) - 1) (8 * i)

/-- The lowest offset of a failed check. -/
def firstFail (cs : List (Bool × Nat)) : Option Nat :=
  cs.foldl (fun m c => if c.1 then some (match m with | some x => min x c.2 | none => c.2) else m) none

/-- An instruction, or the offset of the first field that fails. -/
def checked (cs : List (Bool × Nat)) (i : ChInstr) : Except Nat ChInstr :=
  match firstFail cs with
  | some o => .error o
  | none => .ok i

/-- Failing bytes among `n` from byte `i` that must be zero: the first non-zero one. -/
def nonZero (w : BitVec 256) (i n : Nat) : List (Bool × Nat) := (List.range n).map fun j => (insByte w (i + j) != 0, i + j)

/-- The swap group in bytes (table 9-3). -/
def swapGroup (s : Nat) : Nat := if s = 0 then 1 else if s = 1 then 2 else 4

/-- One check: whether it fails, and the offset it names. -/
def failIf (b : Bool) (o : Nat) : Bool × Nat := (b, o)

/-- Decodes MOVE. -/
def decodeMove (w : BitVec 256) : Except Nat ChInstr :=
  let b1 := insByte w 1
  let b2 := insByte w 2
  let b3 := insByte w 3
  let len := insBytes w 4 4
  let flush := bitsOf b1 3 2
  let pi := bitsOf b2 7 6
  let swap := bitsOf b2 5 4
  let dst := bitsOf b2 3 2
  let src := bitsOf b2 1 0
  checked [failIf (4 < bitsOf b1 6 4) 1, failIf (flush = 3) 1, failIf (pi = 3) 2, failIf (pi = 1 ∧ src = 3) 2, failIf (pi = 2 ∧ dst = 3) 2, failIf (bitsOf b3 7 6 ≠ 0) 3,
      failIf (len = 0) 4, failIf (len % swapGroup swap ≠ 0) 4, failIf (pi ≠ 0 ∧ len % 4096 ≠ 0) 4]
    (.move (b1.testBit 7) (bitsOf b1 6 4) flush (b1.testBit 1) (b1.testBit 0) pi swap dst src (bitsOf b3 5 0) len
      (insBytes w 8 8) (insBytes w 16 8) (insBytes w 24 4) (insBytes w 28 4))

/-- Decodes MAC. -/
def decodeMac (w : BitVec 256) : Except Nat ChInstr :=
  let b1 := insByte w 1
  let b2 := insByte w 2
  let b3 := insByte w 3
  let h4 := insBytes w 4 2
  let len := insBytes w 8 4
  let table := insBytes w 16 8
  checked ([failIf (4 < bitsOf b1 6 4) 1, failIf (b1.testBit 3) 1, failIf (bitsOf b2 7 5 ≠ 0) 2, failIf (23 < bitsOf b2 4 0) 2, failIf (bitsOf b3 7 6 ≠ 0) 3,
      failIf (bitsOf h4 15 10 ≠ 0) 4, failIf (len = 0) 8, failIf (len % 64 ≠ 0) 8, failIf (table % 16 ≠ 0) 16] ++ nonZero w 6 2 ++ nonZero w 12 4)
    (.mac (b1.testBit 7) (bitsOf b1 6 4) (b1.testBit 2) (b1.testBit 1) (b1.testBit 0) (bitsOf b2 4 0 + 1) (bitsOf b3 5 0)
      (bitsOf h4 9 0 + 1) len table (insBytes w 24 4) (insBytes w 28 4))

/-- Decodes LOOP. -/
def decodeLoop (w : BitVec 256) : Except Nat ChInstr :=
  let b1 := insByte w 1
  let lv := bitsOf (insByte w 2) 2 0
  let count := insBytes w 4 4
  let skip := insBytes w 8 4
  let cs := [failIf (2 ≤ b1) 1, failIf (bitsOf (insByte w 2) 7 3 ≠ 0) 2, failIf (lv = 0 ∨ 4 < lv) 2] ++ nonZero w 3 1 ++ nonZero w 12 20
  if b1 % 2 = 0 then checked (cs ++ [failIf (skip = 0) 8]) (.loopBegin lv count skip)
  else checked (cs ++ [failIf (count ≠ 0) 4, failIf (skip ≠ 0) 8]) (.loopNext lv)

/-- Decodes WAIT. -/
def decodeWait (w : BitVec 256) : Except Nat ChInstr :=
  let b1 := insByte w 1
  let kind := b1 % 4
  let target := insByte w 2
  let value := insBytes w 4 4
  checked ([failIf (4 ≤ b1) 1, failIf (kind = 1 ∧ 64 ≤ target) 2, failIf (2 ≤ kind ∧ target ≠ 0) 2, failIf (kind = 3 ∧ 255 < value) 4] ++
      nonZero w 3 1 ++ nonZero w 12 20)
    (.wait kind target value (insBytes w 8 4))

/-- Decodes SIGNAL. -/
def decodeSignal (w : BitVec 256) : Except Nat ChInstr :=
  let b1 := insByte w 1
  let kind := b1 % 4
  let target := insByte w 2
  let value := insBytes w 4 4
  let user := insBytes w 8 8
  checked ([failIf (4 ≤ b1) 1, failIf (kind = 3) 1, failIf (kind ≠ 0 ∧ target ≠ 0) 2, failIf (kind ≠ 0 ∧ value ≠ 0) 4, failIf (kind ≠ 2 ∧ user ≠ 0) 8] ++
      nonZero w 3 1 ++ nonZero w 16 16)
    (.signal kind target value user)

/-- Decodes an instruction (table 9-2); the error is the offset of the first failing field. -/
def decodeIns (w : BitVec 256) : Except Nat ChInstr :=
  match insByte w 0 with
  | 0x01 => decodeMove w
  | 0x02 => decodeMac w
  | 0x03 => decodeLoop w
  | 0x04 => decodeWait w
  | 0x05 => decodeSignal w
  | 0x06 => checked (nonZero w 1 31) .nop
  | 0x07 => checked (nonZero w 1 7 ++ nonZero w 16 16) (.end_ (insBytes w 8 8))
  | _ => .error 0

/-! ### Encoding -/

/-- Bits of a list of conditions, bit 0 first. -/
def bitsFrom (bs : List Bool) : Nat := (bs.zipIdx.map fun x => if x.1 then 2 ^ x.2 else 0).foldl (· + ·) 0

/-- One bit. -/
def bit (b : Bool) : Nat := if b then 1 else 0

/-- Encodes an instruction. -/
def encodeIns : ChInstr → BitVec 256
  | .move paced level flush full half pi swap dsp ssp pacer len src dst ss ds => BitVec.ofNat 256 <|
    0x01 + 2 ^ 8 * (bit half + 2 * bit full + 4 * flush + 16 * level + 128 * bit paced) +
    2 ^ 16 * (ssp + 4 * dsp + 16 * swap + 64 * pi) + 2 ^ 24 * pacer + 2 ^ 32 * len + 2 ^ 64 * src + 2 ^ 128 * dst +
    2 ^ 192 * ss + 2 ^ 224 * ds
  | .mac paced level gf16 full half n pacer k len table ss ds => BitVec.ofNat 256 <|
    0x02 + 2 ^ 8 * (bit half + 2 * bit full + 4 * bit gf16 + 16 * level + 128 * bit paced) +
    2 ^ 16 * (n - 1) + 2 ^ 24 * pacer + 2 ^ 32 * (k - 1) + 2 ^ 64 * len + 2 ^ 128 * table + 2 ^ 192 * ss + 2 ^ 224 * ds
  | .loopBegin level count skip => BitVec.ofNat 256 <| 0x03 + 2 ^ 16 * level + 2 ^ 32 * count + 2 ^ 64 * skip
  | .loopNext level => BitVec.ofNat 256 <| 0x03 + 2 ^ 8 + 2 ^ 16 * level
  | .wait kind target value timeout => BitVec.ofNat 256 <|
    0x04 + 2 ^ 8 * kind + 2 ^ 16 * target + 2 ^ 32 * value + 2 ^ 64 * timeout
  | .signal kind target value user => BitVec.ofNat 256 <|
    0x05 + 2 ^ 8 * kind + 2 ^ 16 * target + 2 ^ 32 * value + 2 ^ 64 * user
  | .nop => BitVec.ofNat 256 0x06
  | .end_ user => BitVec.ofNat 256 <| 0x07 + 2 ^ 64 * user

/-- Whether the fields of an instruction lie in the ranges of its encoding table. -/
def ChInstr.wf : ChInstr → Bool
  | .move _ level flush _ _ pi swap dsp ssp pacer len src dst ss ds =>
    decide (level ≤ 4 ∧ flush < 3 ∧ pi < 3 ∧ swap < 4 ∧ dsp < 4 ∧ ssp < 4 ∧ pacer < 64 ∧ 0 < len ∧ len < 2 ^ 32 ∧ src < 2 ^ 64 ∧
      dst < 2 ^ 64 ∧ ss < 2 ^ 32 ∧ ds < 2 ^ 32 ∧ len % swapGroup swap = 0 ∧ (pi ≠ 0 → len % 4096 = 0) ∧
      ¬(pi = 1 ∧ ssp = 3) ∧ ¬(pi = 2 ∧ dsp = 3))
  | .mac _ level _ _ _ n pacer k len table ss ds =>
    decide (level ≤ 4 ∧ 1 ≤ n ∧ n ≤ 24 ∧ pacer < 64 ∧ 1 ≤ k ∧ k ≤ 1024 ∧ 0 < len ∧ len < 2 ^ 32 ∧ len % 64 = 0 ∧
      table < 2 ^ 64 ∧ table % 16 = 0 ∧ ss < 2 ^ 32 ∧ ds < 2 ^ 32)
  | .loopBegin level count skip => decide (1 ≤ level ∧ level ≤ 4 ∧ count < 2 ^ 32 ∧ 1 ≤ skip ∧ skip < 2 ^ 32)
  | .loopNext level => decide (1 ≤ level ∧ level ≤ 4)
  | .wait kind target value timeout =>
    decide (kind < 4 ∧ target < 256 ∧ value < 2 ^ 32 ∧ timeout < 2 ^ 32 ∧ (kind = 1 → target < 64) ∧
      (2 ≤ kind → target = 0) ∧ (kind = 3 → value ≤ 255))
  | .signal kind target value user =>
    decide (kind < 3 ∧ target < 256 ∧ value < 2 ^ 32 ∧ user < 2 ^ 64 ∧ (kind ≠ 0 → target = 0 ∧ value = 0) ∧ (kind ≠ 2 → user = 0))
  | .nop => true
  | .end_ user => decide (user < 2 ^ 64)

/-! ### The MAC table (R407) -/

/-- A descriptor of the MAC table: address, space, swap, FLUSH and XOR_INTO. -/
structure MacDesc where
  addr : Nat
  space : Nat
  swap : Nat
  flush : Nat
  xorInto : Bool
deriving DecidableEq, Repr

/-- Bytes of one coefficient row. -/
def macRowLen (k : Nat) (gf16 : Bool) : Nat := ceilDiv (k * (if gf16 then 2 else 1)) 8 * 8

/-- Bytes of the whole table. -/
def macTableLen (n k : Nat) (gf16 : Bool) : Nat := 16 * (k + n) + n * macRowLen k gf16

/-- The checks of one descriptor at table offset `o`. -/
def macDescChecks (t : List Byte) (o : Nat) (dst : Bool) : List (Bool × Nat) :=
  let b8 := leAt t (o + 8) 1
  [failIf (leAt t o 8 % 64 ≠ 0) o, failIf (b8.testBit 7) (o + 8), failIf (!dst && bitsOf b8 6 4 != 0) (o + 8),
   failIf (dst && bitsOf b8 5 4 == 3) (o + 8), failIf (dst && b8.testBit 6 && b8 % 4 != 3) (o + 8)] ++
  (List.range 7).map fun i => failIf (leAt t (o + 9 + i) 1 ≠ 0) (o + 9 + i)

/-- A descriptor read. -/
def macDesc (t : List Byte) (o : Nat) : MacDesc :=
  let b8 := leAt t (o + 8) 1
  ⟨leAt t o 8, b8 % 4, bitsOf b8 3 2, bitsOf b8 5 4, b8.testBit 6⟩

/-- The first failing byte of a MAC table, or its sources, destinations and coefficient rows. -/
def readMacTable (n k : Nat) (gf16 : Bool) (t : List Byte) : Except Nat (List MacDesc × List MacDesc × List (List Nat)) :=
  let rl := macRowLen k gf16
  let sz := if gf16 then 2 else 1
  let row0 := 16 * (k + n)
  let pads := (List.range n).flatMap fun r => (List.range (rl - k * sz)).map fun i =>
    let o := row0 + r * rl + k * sz + i
    (leAt t o 1 != 0, o)
  let cs := (List.range (k + n)).flatMap (fun i => macDescChecks t (16 * i) (decide (k ≤ i))) ++ pads
  match firstFail cs with
  | some o => .error o
  | none => .ok ((List.range k).map fun i => macDesc t (16 * i), (List.range n).map fun i => macDesc t (16 * (k + i)),
      (List.range n).map fun r => (List.range k).map fun j => leAt t (row0 + r * rl + sz * j) sz)

/-! ### Data in flight -/

/-- The swap of table 9-3 on a list of bytes. -/
def swapBytes (mode : Nat) : List Byte → List Byte
  | a :: b :: c :: e :: r =>
    (match mode with | 0 => [a, b, c, e] | 1 => [b, a, e, c] | 2 => [c, e, a, b] | _ => [e, c, b, a]) ++ swapBytes mode r
  | [a, b] => if mode = 1 then [b, a] else [a, b]
  | xs => xs

end Sys2Proof.Machine
end

