-- ==== Sys2Proof/Machine/Cipher.lean ====
section
/-!
DEFINITION. The ciphers of chapter 7 over the AES-256 block cipher, which the spec takes from its standard: AES-XTS-256 of a 4 KiB block
(R319, IEEE 1619), and the wrapping of keys, AES-KW under a key that a CMAC counter-mode KDF derives (R324). A byte string's first byte is
the least significant of its bit vector.
-/
namespace Sys2Proof

/-! ### AES-XTS-256 -/

/-- Multiplication by x in GF(2^128), the first byte least significant (IEEE 1619). -/
def gfDouble (t : BitVec 128) : BitVec 128 := (t <<< 1) ^^^ (if t.msb then 0x87#128 else 0#128)

/-- The tweak of unit `j` of a data unit, from its first. -/
def xtsTweak (t : BitVec 128) : Nat → BitVec 128
  | 0 => t
  | j + 1 => gfDouble (xtsTweak t j)

/-- A block as its 256 units of 16 bytes. -/
def blockUnits : Block ≃ (Fin 256 → BitVec 128) where
  toFun b := fun j => b.extractLsb' (128 * j) 128
  invFun f := BitVec.ofFnLE fun i : Fin 32768 => (f ⟨i / 128, by omega⟩).getLsbD (i % 128)
  left_inv b := by
    ext i hi
    simp only [BitVec.getElem_ofFnLE, BitVec.getLsbD_extractLsb']
    have h : 128 * (i / 128) + i % 128 = i := Nat.div_add_mod i 128
    have h' : i % 128 < 128 := Nat.mod_lt _ (by decide)
    simp [h, h', BitVec.getElem_eq_testBit_toNat, BitVec.testBit_toNat]
  right_inv f := by
    funext j
    ext i hi
    have h1 : (128 * (j : Nat) + i) / 128 = j := by omega
    have h2 : (128 * (j : Nat) + i) % 128 = i := by omega
    have h3 : 128 * (j : Nat) + i < 32768 := by omega
    simp [BitVec.getElem_extractLsb', h1, h2, h3, hi]

/-- Adding a tweak, which undoes itself. -/
def addTweak (t : BitVec 128) : Equiv.Perm (BitVec 128) where
  toFun x := x ^^^ t
  invFun x := x ^^^ t
  left_inv x := by simp
  right_inv x := by simp

/-- AES-XTS-256 of one block under a 512-bit key, its tweak the namespace LBA as a 128-bit little-endian integer (R319): encryption, whose
inverse is decryption. The low half of the key encrypts data and the high half the tweak. -/
def xts (key : BitVec 512) (lba : Nat) : Equiv.Perm Block :=
  let k1 := key.extractLsb' 0 256
  let k2 := key.extractLsb' 256 256
  let t := Config.aes256 k2 (BitVec.ofNat 128 lba)
  let unit := fun (j : Fin 256) => ((addTweak (xtsTweak t j)).trans (Config.aes256 k1)).trans (addTweak (xtsTweak t j))
  (blockUnits.trans (Equiv.piCongrRight unit)).trans blockUnits.symm

/-- Whether the two halves of a key are equal: such a key is regenerated (R323). -/
def halvesEqual (key : BitVec 512) : Bool := key.extractLsb' 0 256 == key.extractLsb' 256 256

/-! ### Key wrapping -/

/-- AES-256 of 16 bytes, and its inverse. -/
def aesBytes (k : BitVec 256) (bs : List Byte) : List Byte := leBytes 16 (Config.aes256 k (BitVec.ofNat 128 (leNat bs))).toNat
def aesInvBytes (k : BitVec 256) (bs : List Byte) : List Byte := leBytes 16 ((Config.aes256 k).symm (BitVec.ofNat 128 (leNat bs))).toNat

/-- Two byte strings of one length, added bit by bit. -/
def xorBytes (a b : List Byte) : List Byte := List.zipWith (· ^^^ ·) a b

/-- The doubling of CMAC: the last byte is least significant. -/
def cmacDouble (bs : List Byte) : List Byte := (leBytes 16 (gfDouble (BitVec.ofNat 128 (leNat bs.reverse))).toNat).reverse

/-- AES-256-CMAC (SP 800-38B). -/
def cmac (k : BitVec 256) (msg : List Byte) : List Byte :=
  let k1 := cmacDouble (aesBytes k (List.replicate 16 0))
  let whole := decide (msg ≠ [] ∧ msg.length % 16 = 0)
  let n := max 1 (ceilDiv msg.length 16)
  let last := msg.drop (16 * (n - 1))
  let last := if whole then xorBytes last k1
    else xorBytes (last ++ 0x80#8 :: List.replicate (15 - last.length) 0) (cmacDouble k1)
  let x := (List.range (n - 1)).foldl (fun x i => aesBytes k (xorBytes x ((msg.drop (16 * i)).take 16))) (List.replicate 16 0)
  aesBytes k (xorBytes x last)

/-- The counter-mode KDF of SP 800-108 with AES-256-CMAC, 256 bits out: its fixed input is the device's. -/
def kdf (k : BitVec 256) : BitVec 256 := BitVec.ofNat 256 (leNat (cmac k (Config.kdfInput 1) ++ cmac k (Config.kdfInput 2)))

/-- The key-encryption key of this package (R324). -/
def kek : BitVec 256 := kdf Config.deviceKey

/-- The initial value of AES-KW. -/
def kwInit : List Byte := List.replicate 8 0xA6

/-- Step `t` of AES-KW on a semiblock and those after it, and its inverse. -/
def kwStep (k : BitVec 256) (s : List Byte × List (List Byte)) (t : Nat) : List Byte × List (List Byte) :=
  match s.2 with
  | [] => s
  | r :: rs => let b := aesBytes k (s.1 ++ r); (xorBytes (b.take 8) (leBytes 8 t).reverse, rs ++ [b.drop 8])
def kwBack (k : BitVec 256) (s : List Byte × List (List Byte)) (t : Nat) : List Byte × List (List Byte) :=
  match s.2.getLast? with
  | none => s
  | some r => let b := aesInvBytes k (xorBytes s.1 (leBytes 8 t).reverse ++ r); (b.take 8, b.drop 8 :: s.2.dropLast)

/-- A key wrapped with AES-KW (SP 800-38F): 72 bytes. -/
def wrapKey (k : BitVec 256) (key : BitVec 512) : List Byte :=
  let parts := (List.range 8).map fun i => leBytes 8 (key.extractLsb' (64 * i) 64).toNat
  let (a, rs) := ((List.range 48).map (· + 1)).foldl (kwStep k) (kwInit, parts)
  a ++ rs.flatten

/-- The key that 72 wrapped bytes hold; none where they are not the work of the wrapping key. -/
def unwrapKey (k : BitVec 256) (w : List Byte) : Option (BitVec 512) :=
  let parts := (List.range 8).map fun i => (w.drop (8 * (i + 1))).take 8
  let (a, rs) := ((List.range 48).map (48 - ·)).foldl (kwBack k) (w.take 8, parts)
  if a == kwInit then some (BitVec.ofNat 512 (leNat rs.flatten)) else none

end Sys2Proof
end

