-- ==== Sys2Proof/Machine/Dev.lean ====
section
/-!
DEFINITION. The device's state without its command queue and its buffer-memory contents: every register, the journal, the
locks, operations, members, keys, codec fabric, host interface, vault and resets, each part as Machine/Parts.lean
defines it.
-/
namespace Sys2Proof.Machine

/-- Everything the device holds but the queue of waiting commands and the host area of buffer memory. -/
structure Dev where
  /-- vendor registers by BAR2 offset of the instance (port B's copies of per-port registers at + 0x200_0000);
      an unlisted register holds its initial value -/
  regs : AMap DWord
  bus : Bus
  /-- how many free values have been drawn: the model's own field, not the spec's -/
  freeCtr : Nat
  /-- microseconds since power-on: the model's own clock -/
  now : Nat
  /-- what the last command sent outside: the model's own field -/
  emitted : List Emit
  /-- next internal identifier of an operation or command: the model's own field -/
  nextId : Nat
  log : EvLog
  jnl : Jnl
  locks : List Lock
  setWait : List SetWait
  ops : List Op
  mcmds : List MCmd
  mbrs : List Mbr
  disc : List Disc
  sil : Sil
  arm : Arm
  keys : Keys
  fab : Fab
  cmds : List HostCmd
  /-- controllers of host ports A and B -/
  ctlA : NvmeCtl
  ctlB : NvmeCtl
  nvm : NvmeSub
  /-- host ports A and B with their functions -/
  ports : PortPair
  mport : MPort
  acd : Acd
  opt : Opts
  cwq : Cwq
  /-- uncorrectable lines of the host area, by line number (table 4-4) -/
  badHost : List Nat
  /-- next line of the patrol scrub (R180) -/
  scrubLine : Nat
  rst : Rst
  vlt : Vlt
  mgmt : Mgmt
deriving DecidableEq, Repr

end Sys2Proof.Machine
end

