-- ==== Sys2Proof/Machine/Ops.lean ====
section
/-!
DEFINITION. The named operations over the state: sparse maps, registers and their fields, saturating counters, what is
sent outside, event records, interrupts, and the lookups of members, operations and commands by identifier.
-/
namespace Sys2Proof.Machine

/-! ### Sparse maps -/

/-- The value at a key. -/
def AMap.get {α : Type} : AMap α → Nat → Option α
  | [], _ => none
  | (k, v) :: m, a => if k = a then some v else AMap.get m a

/-- The map without a key. -/
def AMap.erase {α : Type} : AMap α → Nat → AMap α
  | [], _ => []
  | (k, v) :: m, a => if k = a then AMap.erase m a else (k, v) :: AMap.erase m a

/-- The map with a key set, keys rising. -/
def AMap.put {α : Type} : AMap α → Nat → α → AMap α
  | [], a, x => [(a, x)]
  | (k, v) :: m, a, x =>
    if k = a then AMap.put m a x
    else if a < k then (a, x) :: (k, v) :: AMap.erase m a
    else (k, v) :: AMap.put m a x

/-- Replaces the elements of a list that satisfy a test. -/
def updWhere {α : Type} (p : α → Bool) (f : α → α) (xs : List α) : List α := xs.map fun x => if p x then f x else x

/-- Replaces element `i` of a list. -/
def updAt {α : Type} (i : Nat) (f : α → α) (xs : List α) : List α := xs.modify i f

/-! ### Registers -/

/-- The address offset between port A's and port B's copy of a per-port register (R762). -/
def portBOffset : Nat := 0x2000000

/-- The initial value of a register, port B's copies included. -/
def regInitOf (a : Nat) : DWord := if portBOffset ≤ a then regInit (a - portBOffset) else regInit a

/-- The value a register holds. -/
def Dev.reg (d : Dev) (a : Nat) : DWord := (AMap.get d.regs a).getD (regInitOf a)

/-- Sets a register; a register at its initial value is not listed. -/
def Dev.setReg (d : Dev) (a : Nat) (v : DWord) : Dev :=
  { d with regs := if v = regInitOf a then AMap.erase d.regs a else AMap.put d.regs a v }

/-- The registers of a range of addresses return to Init, and their holding latches to the low words of that (R8). -/
def Dev.clearRegs (d : Dev) (lo n : Nat) : Dev :=
  let out := fun (a : Nat) => !(decide (lo ≤ a) && decide (a < lo + n))
  { d with regs := d.regs.filter (fun r => out r.1), bus := { d.bus with wlatch := d.bus.wlatch.filter fun x => out x.2.1 } }

/-- The value of a field of instance `i`. -/
def Dev.gi (d : Dev) (f : Fld) (i : Nat) : Nat := (d.reg (f.base + i * f.stride)).bits f.hi f.lo
/-- The value of a field. -/
def Dev.g (d : Dev) (f : Fld) : Nat := d.gi f 0
/-- Sets a field of instance `i`. -/
def Dev.pi (d : Dev) (f : Fld) (i x : Nat) : Dev :=
  let a := f.base + i * f.stride
  d.setReg a ((d.reg a).withBits f.hi f.lo x)
/-- Sets a field. -/
def Dev.p (d : Dev) (f : Fld) (x : Nat) : Dev := d.pi f 0 x
/-- Whether a one-bit field is set. -/
def Dev.on (d : Dev) (f : Fld) : Bool := d.g f != 0

/-- The largest value of a field. -/
def fldMax (f : Fld) : Nat := 2 ^ (f.hi + 1 - f.lo) - 1
/-- Sets a field to a value or its largest value, whichever is less. -/
def Dev.pSat (d : Dev) (f : Fld) (x : Nat) : Dev := d.p f (min x (fldMax f))
/-- Adds to a saturating counter. -/
def Dev.incBy (d : Dev) (f : Fld) (n : Nat) : Dev := d.p f (min (d.g f + n) (fldMax f))
/-- Increments a saturating counter. -/
def Dev.inc (d : Dev) (f : Fld) : Dev := d.incBy f 1
/-- Increments a saturating counter of instance `i`. -/
def Dev.incI (d : Dev) (f : Fld) (i : Nat) : Dev := d.pi f i (min (d.gi f i + 1) (fldMax f))

/-- A field clamped to bounds: a value below acts as the lower bound, one above as the upper. -/
def Dev.gClamp (d : Dev) (f : Fld) (lo hi : Nat) : Nat := max lo (min hi (d.g f))

/-! ### What is sent outside, identifiers, free values -/

/-- Sends one thing outside. -/
def Dev.emit (d : Dev) (e : Emit) : Dev := { d with emitted := d.emitted ++ [e] }

/-- A fresh identifier. -/
def Dev.fresh (d : Dev) : Nat × Dev := (d.nextId, { d with nextId := d.nextId + 1 })

/-- The primary host port (XLT_STATUS.PRIMARY). -/
def Dev.primaryB (d : Dev) : Bool := d.on Reg.XLT_STATUS_PRIMARY

/-! ### Host ports and interrupts -/

/-- A host port. -/
def Dev.port (d : Dev) (portB : Bool) : HPort := if portB then d.ports.b else d.ports.a
/-- A host port changed. -/
def Dev.updPort (d : Dev) (portB : Bool) (f : HPort → HPort) : Dev :=
  if portB then { d with ports := { d.ports with b := f d.ports.b } }
  else { d with ports := { d.ports with a := f d.ports.a } }
/-- Function 0 or 1 of a port. -/
def HPort.fn (p : HPort) (f : Nat) : Fn := if f = 0 then p.pf0 else p.pf1
/-- A function of a port changed. -/
def Dev.updFn (d : Dev) (portB : Bool) (f : Nat) (g : Fn → Fn) : Dev :=
  d.updPort portB fun p => if f = 0 then { p with pf0 := g p.pf0 } else { p with pf1 := g p.pf1 }

/-- Whether a function may send requests: Bus Master Enable set, D0, its link up (R559, R563). -/
def Dev.canSend (d : Dev) (portB : Bool) (f : Nat) : Bool :=
  let p := d.port portB
  let fn := p.fn f
  p.up && fn.bme && !fn.d3hot

/-- Sends an MSI-X message, or sets its pending bit where the entry or the function is masked. -/
def Dev.irq (d : Dev) (portB : Bool) (f vec : Nat) : Dev :=
  let fn := (d.port portB).fn f
  if !fn.msixEn then d
  else
    let m := (AMap.get fn.table vec).getD ⟨0, 0, true⟩
    if fn.msixMask || m.masked then d.updFn portB f fun x => { x with pba := if x.pba.contains vec then x.pba else vec :: x.pba }
    else if d.canSend portB f then d.emit (.irq portB f vec)
    else d.updFn portB f fun x => { x with pba := if x.pba.contains vec then x.pba else vec :: x.pba }

/-- An interrupt of PF1 of the primary port, on a vector. -/
def Dev.irqPrimary (d : Dev) (vec : Nat) : Dev := d.irq d.primaryB 1 vec

/-! ### The event log -/

/-- Adds bytes programmed to the vault's count (R676): VLT_WRITTEN and the percentage used follow it. -/
def Dev.program (d : Dev) (n : Nat) : Dev :=
  let b := d.vlt.bytes + n
  let d := { d with vlt := { d.vlt with bytes := b } }
  (d.p Reg.VLT_WRITTEN_MIB (b / 2 ^ 20)).pSat Reg.VLT_WEAR_PERCENT_USED (100 * b / (2 ^ 39 * 50000))

/-- The log registers as the ring and the tail give them (R754). -/
def Dev.logRegs (d : Dev) : Dev :=
  let all := d.log.ring ++ d.log.tail
  let first := match all.head? with | some r => r.seq | none => 0
  let next := match all.getLast? with | some r => r.seq + 1 | none => 0
  ((d.p Reg.LOG_FIRST_SEQ_VALUE first).p Reg.LOG_NEXT_SEQ_VALUE next).p Reg.LOG_STATUS_TAIL_USED d.log.tail.length

/-- Writes the first `n` records of the tail to the vault's ring, 64 to a page of 4 KiB; the ring keeps the newest 1,048,576 (R753, R754). -/
def Dev.logPut (d : Dev) (n : Nat) : Dev :=
  let k := ceilDiv (min n d.log.tail.length) 64
  if k = 0 then d
  else
    let all := d.log.ring ++ d.log.tail.take n
    let d := { d with log := { d.log with ring := all.drop (all.length - 2 ^ 20), tail := d.log.tail.drop n } }
    (Dev.program (d.emit (.vault "event log" k)) (4096 * k)).logRegs

/-- Writes the pages of the tail that are full, unless a reset is held or a dump runs (R753, table 15-6). -/
def Dev.logFull (d : Dev) : Dev :=
  if d.log.tail.length < 64 || d.rst.reach != 0 || d.on Reg.VLT_STATUS_DUMPING then d else d.logPut (d.log.tail.length / 64 * 64)

/-- Puts a formed record into the tail, or drops and counts it where the tail is full (R753, R756). -/
def Dev.pushLog (d : Dev) (code sev : Nat) (payload : List Byte) : Dev :=
  if d.log.tail.length ≥ 4096 then
    { (d.inc Reg.LOG_DROPPED_VALUE) with log := { d.log with droppedSince := d.log.droppedSince + 1 } }
  else
    let seq := d.g Reg.LOG_NEXT_SEQ_VALUE
    let r : LogRec := ⟨seq, d.now, d.g Reg.RST_COUNT_COUNT, code, sev, payload⟩
    let d := { d with log := { d.log with tail := d.log.tail ++ [r] } }
    let d := ((d.p Reg.LOG_NEXT_SEQ_VALUE (seq + 1)).p Reg.LOG_STATUS_TAIL_USED d.log.tail.length).logFull
    if min 4 (d.g Reg.LOG_CTRL_IRQ_SEV) ≤ sev then
      let d := d.p Reg.LOG_STATUS_SEEN 1
      if d.on Reg.LOG_CTRL_IRQ_EN then d.irqPrimary (d.g Reg.LOG_CTRL_VECTOR) else d
    else d

/-- Writes one event record (R755); a record that reports earlier drops goes first when space has returned (R756). -/
def Dev.event (d : Dev) (code sev : Nat) (payload : List Byte) : Dev :=
  let d := if d.log.droppedSince ≠ 0 ∧ d.log.tail.length < 4096 then
      let n := d.log.droppedSince
      Dev.pushLog { d with log := { d.log with droppedSince := 0 } } 0x1401 2 (leBytes 4 n)
    else d
  d.pushLog code sev payload

/-- The payload "pool 1, stripe 5". -/
def stripePayload (pool stripe : Nat) : List Byte := leBytes 1 pool ++ leBytes 5 stripe

/-! ### Lookups -/

/-- What an absent member entry holds: ABSENT with no departure mark and nothing counted (R249). -/
def Mbr.blank : Mbr :=
  ⟨.absent, .none, none, false, false, 0, none, [], 0, 0, [], none, false, 0, 0, 0, 0, 0⟩

/-- Member `m`. -/
def Dev.mbr (d : Dev) (m : Nat) : Mbr := d.mbrs.getD m Mbr.blank
/-- Member `m` changed. -/
def Dev.updMbr (d : Dev) (m : Nat) (f : Mbr → Mbr) : Dev := { d with mbrs := updAt m f d.mbrs }

/-- The operation of an identifier. -/
def Dev.op (d : Dev) (id : Nat) : Option Op := d.ops.find? (·.id = id)
/-- An operation changed. -/
def Dev.updOp (d : Dev) (id : Nat) (f : Op → Op) : Dev := { d with ops := updWhere (·.id = id) f d.ops }
/-- An operation ended. -/
def Dev.dropOp (d : Dev) (id : Nat) : Dev := { d with ops := d.ops.filter (·.id ≠ id) }

/-- The host command of an internal identifier. -/
def Dev.cmd (d : Dev) (id : Nat) : Option HostCmd := d.cmds.find? (·.id = id)
/-- A host command changed. -/
def Dev.updCmd (d : Dev) (id : Nat) (f : HostCmd → HostCmd) : Dev := { d with cmds := updWhere (·.id = id) f d.cmds }

/-- The member command of an identifier. -/
def Dev.mcmd (d : Dev) (id : Nat) : Option MCmd := d.mcmds.find? (·.id = id)

/-- The active pool of a number. -/
def Dev.pool (d : Dev) (p : Nat) : Option PoolCfg := match d.arm.active with
  | some a => a.pool p | none => none

/-- The armature of a live epoch (R97). -/
def Dev.epochArm (d : Dev) (e : Nat) : Option Armature :=
  match d.arm.active with
  | some a => if a.epoch = e then some a else (match d.arm.draining with
    | some b => if b.epoch = e then some b else none | none => none)
  | none => none

/-- Epochs that have resolved rows: the live ones, and the maquette's once it is STAGED (R97, R134). -/
def Dev.rowArms (d : Dev) : List Armature :=
  let staged := d.g Reg.ARM_STATUS_MAQ_STATE
  d.arm.active.toList ++ d.arm.draining.toList ++ (if staged = 3 ∨ staged = 5 then d.arm.maquette.toList else [])

/-- The active epoch's number; 0 with none (R98). -/
def Dev.epoch (d : Dev) : Nat := match d.arm.active with | some a => a.epoch | none => 0

/-- The journal head. -/
def Dev.head (d : Dev) : Nat := d.g Reg.JNL_HEAD_SEQ_SEQ
/-- The journal tail. -/
def Dev.tail (d : Dev) : Nat := d.g Reg.JNL_TAIL_SEQ_SEQ
/-- Whether the journal is in RUN. -/
def Dev.running (d : Dev) : Bool := d.g Reg.JNL_STATUS_STATE == 2

/-- Accord state codes of table 14-2. -/
def Dev.acdState (d : Dev) : Nat := d.g Reg.ACD_STATUS_STATE
/-- Whether the accord is mirroring (R610). -/
def Dev.mirroring (d : Dev) : Bool := d.acdState == 2
/-- Whether the package is SOLO. -/
def Dev.solo (d : Dev) : Bool := d.acdState == 0
/-- Whether this package is the steward, or standalone (R615). -/
def Dev.steward (d : Dev) : Bool := d.solo || d.on Reg.ACD_STATUS_STEWARD
/-- Whether this package owns a pool (R614); a standalone package owns every pool (R494). -/
def Dev.ownsPool (d : Dev) (p : Nat) : Bool := d.solo || (d.g Reg.ACD_OWN_POOLS).testBit p

/-- Whether member writes to a pool wait out DRAIN_MS after a takeover (R639). -/
def Dev.drainHeld (d : Dev) (p : Nat) : Bool := d.acd.drainUs.isSome && d.acd.drainPools.testBit p

/-! ### The message ring of the peer link (R626, R627) -/

/-- The link that carries a message, an acknowledgement or a control block: PA where it is up (log entry 137). -/
def Dev.peerOut (d : Dev) : Bool := d.g Reg.ACD_STATUS_LINKS_UP == 2

/-- A posted write into the partner's peer window. -/
def Dev.peerPut (d : Dev) (off : Nat) (bytes : List Byte) : Dev := d.emit (.peerWrite d.peerOut off bytes)

/-- Sizes of the payload fields of a message (table 14-7); a reserved field is part of the one before it. -/
def msgSizes (typ : Nat) : List Nat :=
  match typ with
  | 0x01 => [1, 1, 2, 4, 16, 4, 4, 8]
  | 0x02 => [195 + min Config.certLength 3885]
  | 0x03 => [2, 2, 4, 72]
  | 0x04 => [1, 1, 2, 4]
  | 0x05 => [2, 2]
  | 0x06 => [8, 8]
  | 0x0A => [4, 4, 4]
  | 0x0B => [4, 2, 1, 1]
  | 0x0C => [4]
  | 0x0F => [2]
  | 0x10 => [4, 4, 4, 4, 4, 4, 4, 4]
  | 0x11 => [2, 2, 4]
  | 0x12 => [2, 2, 4]
  | _ => [8]

/-- Payload length of a message (table 14-7). -/
def msgLen (typ : Nat) : Nat := (msgSizes typ).sum

/-- Ring slots of a message with a payload of `len` bytes (R626). -/
def msgSlots (len : Nat) : Nat := if len ≤ 240 then 1 else 1 + ceilDiv (len - 240) 256

/-- Whether the ring has space for a message of so many slots (R627). -/
def Dev.ringSpace (d : Dev) (slots : Nat) : Bool :=
  decide ((d.acd.txSlots + 2 ^ 32 - d.acd.rxAck % 2 ^ 32) % 2 ^ 32 ≤ 256 - slots)

/-- Ring slots of a message. -/
def PeerMsg.slots (m : PeerMsg) : Nat := msgSlots (msgLen m.typ)

/-- The bytes of a message with a sequence number (R626, table 14-7): its header, with the CRC-32C over header and payload, and its payload. -/
def PeerMsg.bytes (m : PeerMsg) (seq : Nat) : List Byte :=
  let head := leBytes 2 m.typ ++ leBytes 1 m.slots ++ leBytes 1 0 ++ leBytes 4 seq ++ leBytes 4 (msgLen m.typ)
  let load := (List.zipWith leBytes (msgSizes m.typ) m.args).flatten
  head ++ leBytes 4 (crc32c (head ++ leBytes 4 0 ++ load)) ++ load

/-- The writes of a message into the partner's ring, slot by slot from slot (message sequence mod 256) (R626, table 14-5). -/
def PeerMsg.writes (m : PeerMsg) (portB : Bool) (seq : Nat) : List Emit :=
  (List.range m.slots).map fun i => .peerWrite portB (0x10000 + 256 * ((seq + i) % 256)) (((m.bytes seq).drop (256 * i)).take 256)

/-- Writes one message into the ring. -/
def Dev.putMsg (d : Dev) (m : PeerMsg) : Dev :=
  { d with acd := { d.acd with txSeq := d.acd.txSeq + 1, txSlots := (d.acd.txSlots + m.slots) % 2 ^ 32 },
           emitted := d.emitted ++ m.writes d.peerOut d.acd.txSeq }

/-- Sends a message of table 14-7, or keeps it until the ring has space (R627). -/
def Dev.peerSend (d : Dev) (typ : Nat) (args : List Nat) : Dev :=
  let m : PeerMsg := ⟨typ, args⟩
  if d.acd.txWait.isEmpty && d.ringSpace m.slots then d.putMsg m
  else { d with acd := { d.acd with txWait := d.acd.txWait ++ [m] } }

end Sys2Proof.Machine
end

