-- ==== Sys2Proof/Machine/Operands.lean ====
section
/-!
DEFINITION. The operand forms of register commands: who writes or reads (R23, R766), the register an address names
(R761, R762), which instance's copy it reaches, and who may write it (R436, R542).
-/
namespace Sys2Proof

/-- Whether a register's instances stand once per host port (R542). -/
def RegDesc.perPort (r : RegDesc) : Bool := r.rule == .perPort

/-- The queue number of a per-queue register instance. -/
def RegDesc.index (r : RegDesc) (inst : Nat) : Nat := if r.stride = 0 then 0 else (inst - r.base) / r.stride

namespace Machine

/-- SOURCE and REQUESTER codes (tables 19-5, 19-8). -/
def Requester.code : Requester → Nat
  | .portA => 0 | .portB => 1 | .mgmt => 2

/-- Whether a requester's register access reaches the block: a port's PF1 takes memory requests only with its link up, Memory Space Enable
set and in D0 (R563); the management core's accesses do not pass a port. -/
def Dev.reaches (d : Dev) (req : Requester) : Bool :=
  let takes := fun (p : HPort) => p.up && p.pf1.mse && !p.pf1.d3hot
  match req with
  | .mgmt => true
  | .portA => takes d.ports.a
  | .portB => takes d.ports.b

/-- Whether a requester may write global registers: the primary port or the management core (R542). -/
def Dev.writesGlobal (d : Dev) (req : Requester) : Bool :=
  match req with
  | .mgmt => true
  | .portA => !d.primaryB
  | .portB => d.primaryB

/-- Internal address of the register space (R762). -/
def regSpace : Nat := 0xF00000000000

/-- The address GCS_LAST_IGNORED records for a register (R23): the internal address for the management core. -/
def Requester.addrOf (req : Requester) (off : Nat) : Nat :=
  match req with
  | .mgmt => regSpace + off
  | _ => off

/-- The register instance an access reaches: its description, its BAR2 address, and the address its copy is held at; port B's
copies of per-port registers stand apart, and the management core reaches them at its own second range (R762). -/
structure RegRef where
  desc : RegDesc
  inst : Nat
  home : Nat
deriving DecidableEq, Repr

/-- The register of an offset for a host port, or of an offset above the register space for the management core. -/
def regRef (req : Requester) (off : Nat) : Option RegRef :=
  let second := req == .mgmt && decide (portBOffset ≤ off)
  let a := if second then off - portBOffset else off
  match findReg a regTable with
  | none => none
  | some (r, inst) =>
    if second && !r.perPort then none
    else
      let b := r.perPort && (second || req == .portB)
      some ⟨r, inst, if b then inst + portBOffset else inst⟩

/-- The port that owns a CWQ queue (R435): 0 of its bit is the primary port. -/
def Dev.queueOwnerB (d : Dev) (cq : Bool) (q : Nat) : Bool :=
  let f := if cq then Reg.CWQ_CQ_OWNER_OWNER else Reg.CWQ_SQ_OWNER_OWNER
  let other := (d.gi f (q / 32)).testBit (q % 32)
  if other then !d.primaryB else d.primaryB

/-- Whether a register address lies in the CQ registers or doorbells rather than the SQ ones. -/
def isCqAddr (inst : Nat) : Bool := decide (0xB0000 ≤ inst ∧ inst < 0xB8000 ∨ 0x101000 ≤ inst)

/-- Whether a requester may write a register instance at all (R436, R542). -/
def Dev.mayWrite (d : Dev) (req : Requester) (r : RegDesc) (inst : Nat) : Bool :=
  match r.rule with
  | .global_ => d.writesGlobal req
  | .perPort => true
  | .owner => match req with
    | .mgmt => true
    | .portA => !d.queueOwnerB (isCqAddr inst) (r.index inst)
    | .portB => d.queueOwnerB (isCqAddr inst) (r.index inst)

end Machine

end Sys2Proof
end

