-- ==== Sys2Proof/Machine/Flags.lean ====
section
/-!
DEFINITION. How a register's fields take a write (R12, R13, R18, R19; tables 0-5 and 0-6), the count of silent violations (R20,
R21, R23), and the guard that every register command with a row of its own passes.
-/
namespace Sys2Proof

/-! ### Fields -/

/-- Whether a field takes a write at all: not read-only, and not frozen while its block is enabled. -/
def FieldDesc.takes (f : FieldDesc) (enabled : Bool) : Bool :=
  match f.ty with
  | .ro => false
  | _ => !(f.attr == .frozen && enabled)

/-- A field's next value, from its old value and the value written (table 0-5); a clearing counter goes to 0 (R12). -/
def FieldDesc.next (f : FieldDesc) (clearing : Bool) (old w : Nat) : Nat :=
  match f.ty with
  | .rw => if clearing then 0 else w
  | .ro => old
  | .w1c => old - (old &&& w)
  | .wo => 0
  | .rw1s => old ||| w

/-- Bits of a register that no field holds: reserved, reading zero. -/
def RegDesc.reservedBits (r : RegDesc) (w : Nat) : Bool :=
  let kept := r.fields.foldl (fun v f => v - bitsOf v f.hi f.lo * 2 ^ f.lo) w
  kept % 2 ^ r.width != 0

/-- The value a register holds after a write, field by field (R18). -/
def RegDesc.written (r : RegDesc) (enabled may clearing : Bool) (old w : Nat) : Nat :=
  r.fields.foldl (fun v f =>
    if may && f.takes enabled then setBits v f.hi f.lo (f.next clearing (bitsOf old f.hi f.lo) (bitsOf w f.hi f.lo)) else v) old

/-- Whether a write violates some field (R19): a refused or reserved one written with a value that differs from what it
reads; `seen` is what the register reads. -/
def RegDesc.violated (r : RegDesc) (enabled may : Bool) (seen w : Nat) : Bool :=
  r.reservedBits w ||
  r.fields.any fun f => !(may && f.takes enabled) && bitsOf w f.hi f.lo != bitsOf (if f.ty = .wo then 0 else seen) f.hi f.lo

namespace Machine

/-! ### Silent violations -/

/-- Counts one violation (R20, R21) and records it in GCS_LAST_IGNORED (R23); `width` marks an access that broke R4. -/
def Dev.violation (d : Dev) (req : Requester) (off : Nat) (width : Bool) : Dev :=
  let d := d.inc Reg.GCS_IGNORED_WRITES_COUNT
  let d := d.p Reg.GCS_LAST_IGNORED_SOURCE req.code
  let d := d.p Reg.GCS_LAST_IGNORED_WIDTH (if width then 1 else 0)
  let d := d.p Reg.GCS_LAST_IGNORED_INTERNAL (if req = .mgmt then 1 else 0)
  d.p Reg.GCS_LAST_IGNORED_OFFSET (req.addrOf off)

/-- A command that is a write to a global register: it acts, or, from a port that may not write, it is a silent violation, counted where the
value written differs from the value read (R15, R17, R19, R20). -/
def Dev.globalWr (d : Dev) (req : Requester) (f : Fld) (differs : Bool) (act : Dev → Dev) : Dev :=
  if !d.reaches req then d.emit .unsupported
  else if d.writesGlobal req then act d
  else if differs then d.violation req f.base false
  else d

/-- A write of action bits, which read zero, to a global register. -/
def Dev.globalCmd (d : Dev) (req : Requester) (f : Fld) (act : Dev → Dev) : Dev := d.globalWr req f true act

end Machine

end Sys2Proof
end

