-- ==== Sys2Proof/Machine/LineCode.lean ====
section
/-!
DEFINITION. The outer code of buffer memory (R167, R168): RS(72,64) over GF(2^8), its check bytes, and the decoder that corrects up to
four bytes of the 72.
-/
namespace Sys2Proof.Machine

/-- The power 0x02^n of the field, for n below 128. -/
def alphaPow (n : Nat) : Nat := gfPowLoop 8 7 2 n 1

/-- The product of a polynomial, highest coefficient first, and (x + root). -/
def mulRoot (p : List Nat) (root : Nat) : List Nat :=
  ((p ++ [0]).zip (0 :: p)).map fun (ab : Nat × Nat) => ab.1 ^^^ gfMul 8 root ab.2

/-- The generator polynomial of R167, highest coefficient first: its roots are 0x02^0 to 0x02^7. -/
def rsGenerator : List Nat := ((List.range 8).map alphaPow).foldl mulRoot [1]

/-- One message symbol into the division by the generator polynomial `g`, its leading 1 left out. -/
def rsStep (g : List Nat) (s : List Nat) (b : Byte) : List Nat :=
  let fb := b.toNat ^^^ s.getD 0 0
  ((s.drop 1 ++ [0]).zip g).map fun (x : Nat × Nat) => x.1 ^^^ gfMul 8 fb x.2

/-- The 8 check bytes of a line of 64 bytes (R167). Symbol 0 is the highest coefficient (log entry 126). -/
def rsCheck (line : List Byte) : List Byte :=
  (line.foldl (rsStep rsGenerator.tail) (List.replicate 8 0)).map (BitVec.ofNat 8)

/-- The location of symbol `i` of 72: the power of 0x02 at which it stands. -/
def rsPlace (i : Nat) : Nat := alphaPow (71 - i)

/-- The 72 bytes taken as a polynomial, at one point. -/
def rsEval (w : List Byte) (x : Nat) : Nat := w.foldl (fun acc b => gfMul 8 acc x ^^^ b.toNat) 0

/-- The 8 syndromes of 72 bytes: their values at the generator's roots. -/
def rsSyndromes (w : List Byte) : List Nat := (List.range 8).map fun j => rsEval w (alphaPow j)

/-- The symbols that the locator polynomial of `v` errors names: none where the syndromes give no such polynomial. -/
def rsLocate (syn : List Nat) (v : Nat) : Option (List Nat) :=
  (express 8 ((List.range v).map fun l => (syn.drop l).take v) ((syn.drop v).take v)).map fun cs =>
    (List.range 72).filter fun i =>
      let x := rsPlace i
      cs.reverse.foldl (fun acc c => gfMul 8 acc x ^^^ c) 1 == 0

/-- The 72 bytes with `v` of them corrected, where errors at the located symbols account for every syndrome. -/
def rsCorrect (w : List Byte) (syn : List Nat) (v : Nat) : Option (List Byte) :=
  match rsLocate syn v with
  | none => none
  | some ps =>
    if ps.length ≠ v then none
    else (express 8 (ps.map fun i => (List.range 8).map fun j => gfPowLoop 8 3 (rsPlace i) j 1) syn).map fun es =>
      (w.zipIdx).map fun b => b.1 ^^^ BitVec.ofNat 8 (((ps.zip es).find? (·.1 = b.2)).elim 0 (·.2))

/-- The outer decoder (R168): the codeword within distance 4 of 72 bytes, or none. -/
def rsDecode (w : List Byte) : Option (List Byte) :=
  let syn := rsSyndromes w
  if syn.all (· = 0) then some w else [1, 2, 3, 4].findSome? (rsCorrect w syn)

end Sys2Proof.Machine
end

