-- ==== Sys2Proof/Machine/Memory.lean ====
section
/-!
DEFINITION. The contents of buffer memory's host area (table 4-3): a list of address and byte pairs in one canonical form, with addresses
strictly rising and no byte zero. An unlisted byte reads 0, as R174 leaves it at COLD exit. The 8 metadata bytes of each line, which hold its
check bytes, are listed above the 48-bit internal addresses.
-/
namespace Sys2Proof.Machine

/-- Bytes of the host area by internal address, and the metadata bytes of its lines. -/
abbrev Memory := List Host.Cell

/-- The byte at an address; an unlisted one is 0 (R174). -/
def Memory.read : Memory → Nat → Byte
  | [], _ => 0
  | (k, v) :: m, a => if k = a then v else Memory.read m a

/-- The memory with one byte written; a zero byte is not listed. -/
def Memory.write : Memory → Nat → Byte → Memory
  | [], a, b => if b = 0 then [] else [(a, b)]
  | (k, v) :: m, a, b =>
    if a < k then (if b = 0 then (k, v) :: m else (a, b) :: (k, v) :: m)
    else if a = k then (if b = 0 then m else (k, b) :: m)
    else (k, v) :: Memory.write m a b

/-- The memory with bytes written from an address on. -/
def Memory.writeBytes (m : Memory) : Nat → List Byte → Memory
  | _, [] => m
  | a, b :: bs => Memory.writeBytes (Memory.write m a b) (a + 1) bs

/-- Bytes from an address on. -/
def Memory.bytes (m : Memory) (a n : Nat) : List Byte := (List.range n).map fun i => Memory.read m (a + i)

/-- The canonical form: addresses strictly rising, no zero byte listed. -/
abbrev Memory.wf (m : Memory) : Prop := m.Pairwise (fun x y => x.1 < y.1) ∧ ∀ c ∈ m, c.2 ≠ 0

/-! ### Lines of the stacks (R156, R157) -/

/-- The stack that holds an internal address: bit 8 (R156). -/
def stackOf (addr : Nat) : Bool := addr.testBit 8
/-- Its offset in the stack (R156). -/
def stackOffset (addr : Nat) : Nat := addr / 512 * 256 + addr % 256

/-- Where the list keeps the metadata bytes of a line: above the internal addresses, 8 bytes for each line of each stack (R157). -/
def metaAt (line : Nat) : Nat := 2 ^ 48 + (if stackOf (64 * line) then 2 ^ 47 else 0) + stackOffset (64 * line) / 64 * 8

/-- The memory with fresh check bytes of one line (R167, R169). -/
def Memory.seal (m : Memory) (line : Nat) : Memory := Memory.writeBytes m (metaAt line) (rsCheck (Memory.bytes m (64 * line) 64))

/-- The lines that a range of addresses touches. -/
def linesIn (a n : Nat) : List Nat := if n = 0 then [] else (List.range ((a + n - 1) / 64 + 1 - a / 64)).map (a / 64 + ·)

/-- A write by the controller: the bytes, merged into their lines, and fresh check bytes of each of these (R169, R170). -/
def Memory.store (m : Memory) (a : Nat) (bs : List Byte) : Memory := (linesIn a bs.length).foldl Memory.seal (Memory.writeBytes m a bs)

/-- The 72 bytes that the stacks hold of a line: 64 data bytes and 8 check bytes. -/
def Memory.line72 (m : Memory) (line : Nat) : List Byte := Memory.bytes m (64 * line) 64 ++ Memory.bytes m (metaAt line) 8

end Sys2Proof.Machine
end

