-- ==== Sys2Proof/Machine/Hbm.lean ====
section
/-!
DEFINITION. Buffer memory as host paths and device agents address it (chapter 4): the internal address map (table 4-2), the areas of HBM
(table 4-3), reads and writes of its lines, and the relaxed ordering of payload writes.
-/
namespace Sys2Proof.Machine

/-- The areas of table 4-3. -/
inductive Area | journal | armature | working | metadata | host
deriving DecidableEq, Repr

/-- What an internal address reaches (table 4-2): HBM; the vault, at an offset of the access window; register space, at an offset; nothing. -/
inductive Space
  | hbm (a : Area)
  | vault (off : Nat)
  | registers (off : Nat)
  | unassigned
deriving DecidableEq, Repr

/-- Top of the HBM range, one past it (table 4-1). -/
def Dev.hbmTop (d : Dev) : Nat := d.g Reg.BUF_CONFIG_CAP_GIB * 2 ^ 30
/-- Base of the armature area: the end of the protected area (table 4-3). -/
def Dev.armatureBase (d : Dev) : Nat := d.g Reg.BUF_CONFIG_PA_GIB * 2 ^ 30
/-- Base of the working area (table 4-3). -/
def Dev.workingBase (d : Dev) : Nat := d.armatureBase + 192 * 2 ^ 20
/-- Base of the metadata area (table 4-3). -/
def Dev.metadataBase (d : Dev) : Nat := d.armatureBase + 1216 * 2 ^ 20
/-- Base of the host area (table 4-3). -/
def Dev.hostBase (d : Dev) : Nat := d.hbmTop - d.g Reg.BUF_CONFIG_HOST_GIB * 2 ^ 30

/-- The area that holds an HBM address (R160). -/
def Dev.area (d : Dev) (addr : Nat) : Area :=
  if addr < d.armatureBase then .journal
  else if d.hostBase ≤ addr then .host
  else if addr < d.workingBase then .armature
  else if addr < d.metadataBase then .working
  else .metadata

/-- What an internal address reaches (R158, R649). -/
def Dev.space (d : Dev) (addr : Nat) : Space :=
  if addr < d.hbmTop then .hbm (d.area addr)
  else if 0x400000000000 ≤ addr ∧ addr < 0x400100000000 then .vault (d.g Reg.VLT_WIN_BASE * 2 ^ 32 + (addr - 0x400000000000))
  else if 0xF00000000000 ≤ addr then .registers (addr - 0xF00000000000)
  else .unassigned

/-- Whether a range of internal addresses lies in the host area (R165). -/
def Dev.inHostArea (d : Dev) (addr len : Nat) : Bool := decide (d.hostBase ≤ addr ∧ addr + len ≤ d.hbmTop)

/-- Bytes that a host path reads at an internal address: those of the host area, and zero anywhere else (R159, R165). -/
def Dev.hostBytes (d : Dev) (rd : Nat → Byte) (a n : Nat) : List Byte :=
  (List.range n).map fun i => if d.inHostArea (a + i) 1 then rd (a + i) else 0

/-- Whether a range holds part of a line that is known uncorrectable, but not all of it (R170). -/
def Dev.badPart (d : Dev) (lo hi l : Nat) : Bool :=
  d.badHost.contains l && decide (lo < 64 * l + 64 ∧ 64 * l < hi) && !decide (lo ≤ 64 * l ∧ 64 * l + 64 ≤ hi)

/-- Whether a range of the host area touches a line that is known uncorrectable. -/
def Dev.badRead (d : Dev) (addr len : Nat) : Bool := d.badHost.any fun l => decide (addr < 64 * l + 64 ∧ 64 * l < addr + len)

/-- A write into HBM from a host path: only the host area takes it (R165, R387). A whole line written is good again, and a line that is
uncorrectable and written in part stays as it is (R169, R170). -/
def Dev.hbmWrite (d : Dev) (addr : Nat) (bytes : List Byte) : Dev :=
  let lo := max addr d.hostBase
  let hi := min (addr + bytes.length) d.hbmTop
  let lo := if d.badPart lo hi (lo / 64) then (lo / 64 + 1) * 64 else lo
  let hi := if d.badPart lo hi ((hi - 1) / 64) then (hi - 1) / 64 * 64 else hi
  if lo < hi then
    Dev.emit { d with badHost := d.badHost.filter fun l => !decide (lo ≤ 64 * l ∧ 64 * l + 64 ≤ hi) }
      (.hbm lo ((bytes.drop (lo - addr)).take (hi - lo)))
  else d

/-- Whether a write into HBM meets a line that is known uncorrectable and that it covers in part: the write fails as a read would (R170). -/
def Dev.writeBad (d : Dev) (addr len : Nat) : Bool :=
  len != 0 && (d.badPart addr (addr + len) (addr / 64) || d.badPart addr (addr + len) ((addr + len - 1) / 64))

/-- Whether payload writes of a function carry Relaxed Ordering: its Enable Relaxed Ordering, Device Control bit 4 (R553). -/
def Dev.relaxed (d : Dev) (portB : Bool) (fn : Nat) : Bool := (((AMap.get ((d.port portB).fn fn).cfg 0x78).getD 0x2810).toNat).testBit 4

end Sys2Proof.Machine
end

