-- ==== Sys2Proof/Machine/Placement.lean ====
section
/-!
DEFINITION. Where fragments lie once member states and exceptions are applied (R121 to R131), the resolved-row record,
fragment tags (R289 to R306), free spare slots, and the availability of fragments for a decode (R82, R257).
-/
namespace Sys2Proof.Machine

/-- DISP of a position entry (table 3-11). -/
inductive Disp | readable | writeOnly | unreadable | retired
deriving DecidableEq, Repr

/-- DISP of the positions of a member in a state (R122, R243, R244). -/
def MSt.disp : MSt → Disp
  | .online | .suspect => .readable
  | .rebuilding => .writeOnly
  | .retired => .retired
  | .absent | .failed => .unreadable

/-- The DISP of a row position: the member's, and WRITE_ONLY while the fill list names the position (R122, R797). -/
def Dev.dispAt (d : Dev) (pool group pos member : Nat) : Disp :=
  match (d.mbr member).st.disp with
  | .readable =>
    if d.arm.fills.any fun f => f.pool == pool && f.group == group && f.pos == pos then .writeOnly else .readable
  | x => x

/-- Code of a DISP (table 3-11). -/
def Disp.code : Disp → Nat
  | .readable => 0 | .writeOnly => 1 | .unreadable => 2 | .retired => 3

/-- The valid exception of a fragment (R124). -/
def Dev.exc (d : Dev) (pool stripe frag : Nat) : Option ExcEntry :=
  d.arm.excs.find? fun e => e.pool == pool && e.stripe == stripe && e.frag == frag

/-- Whether some stripe of a group has an exception at a position (the EXC bit of table 3-11). -/
def Dev.excBit (d : Dev) (c : PoolCfg) (pool group pos : Nat) : Bool :=
  d.arm.excs.any fun e => e.pool == pool && c.group e.stripe == group && c.position e.stripe e.frag == pos

/-- The 16-bit position entry of a row position (table 3-11). -/
def Dev.positionEntry (d : Dev) (c : PoolCfg) (pool group pos : Nat) : Nat :=
  let m := (c.rows.getD group []).getD pos 0
  (d.dispAt pool group pos m).code * 2 ^ 14 + (if d.excBit c pool group pos then 2 ^ 13 else 0) + m % 2 ^ 11

/-- The resolved-row record of a key (table 3-10), from the rows of its epoch and the states of now (R121, R123, R134). -/
def Dev.rowRecord (d : Dev) (k : RowKey) : Option (List Byte) :=
  match d.rowArms.find? (·.epoch = k.epoch) with
  | none => none
  | some a => match a.pool k.pool with
    | none => none
    | some c =>
      let w := c.code.width
      let n := min 24 (w - 24 * k.segment)
      let entries := (List.range 24).flatMap fun i =>
        leBytes 2 (if i < n then d.positionEntry c k.pool k.group (24 * k.segment + i) else 0xFFFF)
      some (leBytes 4 k.epoch ++ leBytes 4 k.group ++ leBytes 1 k.pool ++ leBytes 1 k.segment ++
        leBytes 1 n ++ leBytes 1 1 ++ leBytes 4 0 ++ entries)

/-- A place on a member: its slot in the pool's extent, and whether it is a spare slot. -/
structure Loc where
  member : Nat
  slot : Nat
  spare : Bool
deriving DecidableEq, Repr

/-- The outcome of resolve (R126). -/
inductive Resolved
  | readable (l : Loc)
  | writeOnly (l : Loc)
  | unreadable
deriving DecidableEq, Repr

/-- Function resolve of R126, over a pool of the operation's epoch. -/
def Dev.resolve (d : Dev) (c : PoolCfg) (pool s f : Nat) : Resolved :=
  let pl := c.place s f
  let home : Loc := ⟨pl.member, pl.slot, false⟩
  let placed := match d.dispAt pool (c.group s) pl.pos pl.member with
    | .readable => .readable home
    | .writeOnly => .writeOnly home
    | _ => .unreadable
  match d.exc pool s f with
  | some e =>
    match (d.mbr e.member).st with
    | .online | .suspect =>
      let ds := match c.extent e.member with | some x => x.dataSlots | none => 0
      .readable ⟨e.member, ds + e.spare, true⟩
    | _ => .unreadable
  | none => placed

/-- Where resolve puts a fragment that may be written. -/
def Resolved.loc? : Resolved → Option Loc
  | .readable l | .writeOnly l => some l
  | .unreadable => none

/-- Whether resolve says readable. -/
def Resolved.isReadable : Resolved → Bool
  | .readable _ => true
  | _ => false

/-! ### Spare slots (R128, R129) -/

/-- Spare slots of a member's extent that no exception names, lowest first (R128). -/
def Dev.freeSpares (d : Dev) (c : PoolCfg) (pool m : Nat) : List Nat :=
  match c.extent m with
  | none => []
  | some e => (List.range e.spareSlots).filter fun i =>
      !d.arm.excs.any fun x => x.pool == pool && x.member == m && x.spare == i

/-- Whether the device sends a member I/O in a state (table 6-1). -/
def MSt.active : MSt → Bool
  | .online | .suspect | .rebuilding => true
  | _ => false

/-- Members of an epoch's table; the active epoch's where there is one. -/
def Dev.memberTable (d : Dev) : List ArmMember := match d.arm.active with | some a => a.members | none => []

/-- How many of the members `ms` share a failure domain with `m` at a level. -/
def Dev.domainCountOf (d : Dev) (level : Nat) (ms : List Nat) (m : Nat) : Nat :=
  domainCount d.memberTable level ms m

/-- Whether a relocation in progress writes to a spare slot that no exception names yet (log entry 73). -/
def Dev.spareInUse (d : Dev) (pool m i : Nat) : Bool :=
  d.ops.any fun o => o.pool == pool && o.targets.any fun t => t.2.1 == m && t.2.2.1 == i

/-- Inserts a number into a rising list. -/
def insertNat (x : Nat) : List Nat → List Nat
  | [] => [x]
  | y :: ys => if x ≤ y then x :: y :: ys else y :: insertNat x ys

/-- Function choose_spare of R129; `taken` are the targets already chosen in this pass. Answers member, spare slot
and RELAXED. -/
def Dev.chooseSpare (d : Dev) (c : PoolCfg) (pool s f : Nat) (taken : List (Nat × Nat)) : Option (Nat × Nat × Bool) :=
  let others := ((List.range c.code.width).filterMap fun g =>
      if g = f then none else ((d.resolve c pool s g).loc?).map (·.member)) ++ taken.map (·.1)
  let free := fun m => (d.freeSpares c pool m).filter fun i => !taken.contains (m, i) && !d.spareInUse pool m i
  let base := (c.extents.map (·.member)).foldl (fun ms m => insertNat m ms) [] |>.filter fun m =>
    !(others.contains m || (d.mbr m).st != .online || (free m).isEmpty)
  let pass1 := base.filter fun m =>
    c.spareLevel == 0 || decide (d.domainCountOf c.spareLevel (others ++ [m]) m ≤ c.maxPerDomain)
  let pick := fun (elig : List Nat) (rel : Bool) =>
    match elig[(s * c.code.width + f) % elig.length]? with
    | none => none
    | some m => (free m).head?.map fun i => (m, i, rel)
  if pass1.isEmpty then pick base true else pick pass1 false

/-- Function home_of of R282: the stripe and fragment a data slot of a member holds. -/
def PoolCfg.homeOf (c : PoolCfg) (m slot : Nat) : Nat × Nat :=
  let u := rowCount c.rows m
  let cyc := slot / u
  let holders := (List.range c.rows.length).filter fun q => (c.rows.getD q []).contains m
  let q := holders.getD (slot % u) 0
  let pos := ((c.rows.getD q []).findIdx? (· = m)).getD 0
  let w := c.code.width
  (cyc * c.groups + q, (pos + w - cyc % w) % w)

/-! ### Redundancy (R261) -/

/-- Losses a code always survives (table 2-1). -/
def Code.tolerance (c : Code) : Nat :=
  match c.family with
  | .rs8 | .rs16 => c.m
  | .lrc8 => c.r + 1
  | .mirror => c.c - 1

/-- Fragments of a stripe that resolve unreadable. -/
def Dev.unreadableFrags (d : Dev) (c : PoolCfg) (pool s : Nat) : List Nat :=
  (List.range c.code.width).filter fun f => d.resolve c pool s f == .unreadable

/-- Remaining redundancy of a stripe (R261), 0 where more fragments are unreadable than the code tolerates (log entry 129, DESIGN CHOICE). -/
def Dev.redundancy (d : Dev) (c : PoolCfg) (pool s : Nat) : Nat :=
  c.code.tolerance - (d.unreadableFrags c pool s).length

/-! ### What sillage finds pending -/

/-- Whether a pool is initialising (R308). -/
def Dev.initialising (d : Dev) (pool : Nat) : Bool :=
  d.arm.zeroing.any fun z => z.pool == pool && z.ns == 0 && !z.finished

/-- Whether sillage may work on a pool at all: it is owned here and not initialising (R308, R614). -/
def Dev.silPool (d : Dev) (p : Nat) : Bool := d.ownsPool p && !d.initialising p && !d.drainHeld p

/-- Active pools sillage may work on, ascending. -/
def Dev.silPools (d : Dev) : List (Nat × PoolCfg) :=
  match d.arm.active with
  | none => []
  | some a => a.poolNums.filterMap fun p => if d.silPool p then (a.pool p).map fun c => (p, c) else none

/-- Stripes of a pool with an unreadable fragment. -/
def Dev.hurtStripes (d : Dev) (p : Nat) (c : PoolCfg) : List Nat :=
  (List.range c.stripes).filter fun s => !(d.unreadableFrags c p s).isEmpty

/-- Whether a stripe has remaining redundancy 0 (R261). -/
def Dev.isCritical (d : Dev) (p : Nat) (c : PoolCfg) (s : Nat) : Bool :=
  !(d.unreadableFrags c p s).isEmpty && d.redundancy c p s == 0

/-- Whether CRITICAL work is pending in a pool (R262, R277). -/
def Dev.critPending (d : Dev) (p : Nat) (c : PoolCfg) : Bool :=
  d.jnl.marked.any (·.1 = p) || (d.hurtStripes p c).any (d.isCritical p c)

/-- SIL_STATUS.CRITICAL: CRITICAL work is pending in a pool that this package owns. -/
def Dev.silCriticalFlag (d : Dev) : Bool := d.silPools.any fun pc => d.critPending pc.1 pc.2

/-- Anchor blocks of a row (R226). -/
def Code.isAnchor (c : Code) (f : Nat) : Bool :=
  match c.family with
  | .rs8 | .rs16 => decide (c.k ≤ f)
  | .lrc8 => decide (c.k + c.g ≤ f)
  | .mirror => true

/-- Indices of the anchors of a stripe. -/
def Code.anchors (c : Code) : List Nat := (List.range c.width).filter c.isAnchor

/-! ### Where a block lies on its member (R120, R300) -/

/-- LBA of data block `b` of an extent. -/
def lbaOfBlock (tagSect : Bool) (base b : Nat) : Nat := if tagSect then base + b + b / 255 else base + b

/-- LBA of the tag block of tag group `i` of an extent of `n` data blocks (R300). -/
def lbaOfTagBlock (base n i : Nat) : Nat := base + 256 * i + min 255 (n - 255 * i)

/-- Whether a member uses tag-sector mode. -/
def Dev.tagSect (d : Dev) (m : Nat) : Bool := match d.memberTable[m]? with | some a => a.tagSect | none => false
/-- Whether a member's entry has ROT set (R584). -/
def Dev.rot (d : Dev) (m : Nat) : Bool := match d.memberTable[m]? with | some a => a.rot | none => false

/-! ### Fragment tags (chapter 7) -/

/-- Flags of a fragment tag (table 7-2). -/
def tagFlags (c : Code) (f : Nat) (spare lostZero : Bool) : Nat :=
  (if c.family = .rs16 ∧ c.width > 256 then (f / 256) % 4 * 2 ^ 14 else 0) +
  (if spare then 4 else 0) + (if lostZero then 2 else 0) + (if c.isAnchor f then 1 else 0)

/-- Tag bytes 0x04 to 0x0F (table 7-1). -/
def tagTail (c : Code) (pool s f gen : Nat) (spare lostZero : Bool) : List Byte :=
  leBytes 4 s ++ leBytes 4 gen ++ leBytes 1 pool ++ leBytes 1 f ++ leBytes 2 (tagFlags c f spare lostZero)

/-- The fragment tag of a block (R289, R290). -/
def mkTag (c : Code) (pool s f gen : Nat) (spare lostZero : Bool) (b : Block) : BitVec 128 :=
  let t := tagTail c pool s f gen spare lostZero
  BitVec.ofNat 128 (leNat (leBytes 4 (crc32c (blockBytes b ++ t)) ++ t))

/-- The result of the checks 1 to 4 of table 7-3 on one block: blank, good, or the failing kind
(0 CRC, 1 IDENTITY, 2 ROLE). -/
inductive TagResult
  | blank
  | good (gen : Nat) (lostZero : Bool)
  | bad (kind : Nat)
deriving DecidableEq, Repr

/-- Checks 1 to 4 of table 7-3, in order (R293); the index compared is the full 10-bit one of every tag (R60). -/
def checkTag (c : Code) (pool s f : Nat) (spare : Bool) (b : Block) (t : BitVec 128) : TagResult :=
  if b = 0#32768 ∧ t = 0#128 then .blank
  else
    let tb := leBytes 16 t.toNat
    if leAt tb 0 4 ≠ crc32c (blockBytes b ++ tb.drop 4) then .bad 0
    else
      let flags := leAt tb 14 2
      let idx := leAt tb 13 1 + flags / 2 ^ 14 * 256
      if leAt tb 4 4 ≠ s % 2 ^ 32 ∨ leAt tb 12 1 ≠ pool ∨ idx ≠ f then .bad 1
      else if flags.testBit 0 ≠ c.isAnchor f ∨ flags.testBit 2 ≠ spare then .bad 2
      else .good (leAt tb 8 4) (flags.testBit 1)

/-- Whether a tag block is usable for its group (R302): all zero, or magic, group number and CRC-32C right. -/
def tagBlockOk (i : Nat) (b : Block) : Bool :=
  b == 0#32768 ||
  (let bs := blockBytes b
   leAt bs 0 4 == 0x4B424754 && leAt bs 4 4 == i && leAt bs 0xC 4 == crc32c (bs.drop 0x10))

/-- Entry `j` of a tag block. -/
def tagBlockEntry (b : Block) (j : Nat) : BitVec 128 := BitVec.ofNat 128 (b.toNat >>> (8 * (0x10 + 16 * j)))

/-- A tag block with entries set: (j, tag) pairs merged into the current one (R304). -/
def tagBlockMerge (i : Nat) (cur : Block) (es : List (Nat × BitVec 128)) : Block :=
  let body := (List.range 255).flatMap fun j =>
    leBytes 16 (match es.find? (·.1 = j) with | some e => e.2.toNat | none => (tagBlockEntry cur j).toNat)
  blockOfBytes (leBytes 4 0x4B424754 ++ leBytes 4 i ++ leBytes 4 0 ++ leBytes 4 (crc32c body) ++ body)

/-! ### Which fragments a decode may use (R82, R91, R257) -/

/-- Whether fragment `f` resolves readable on a member that is ONLINE, or, in the second pass, ONLINE or SUSPECT. -/
def Dev.fragAvailable (d : Dev) (c : PoolCfg) (pool s : Nat) (pass2 : Bool) (f : Nat) : Bool :=
  match d.resolve c pool s f with
  | .readable l => (d.mbr l.member).st == .online || (pass2 && (d.mbr l.member).st == .suspect)
  | _ => false

/-- Commands outstanding at a member: its queue depth (R88). A timed-out command whose identifier is held has failed (R590) and is not
counted (log entry 114, DESIGN CHOICE). -/
def Dev.queueDepth (d : Dev) (m : Nat) : Nat :=
  (d.mcmds.filter fun c => c.member == m && c.phase == .outstanding).length

/-- The copy a MIRROR read takes (R88): least queue depth, then lower member number. -/
def Dev.mirrorPick (d : Dev) (c : PoolCfg) (pool s : Nat) (avail : Nat → Bool) : Option Nat :=
  let cands := ((List.range c.code.width).filter avail).filterMap fun f =>
    match d.resolve c pool s f with
    | .readable l => some (f, d.queueDepth l.member, l.member)
    | _ => none
  (cands.foldl (fun (best : Option (Nat × Nat × Nat)) x => match best with
    | none => some x
    | some b => if x.2.1 < b.2.1 ∨ (x.2.1 = b.2.1 ∧ x.2.2 < b.2.2) then some x else some b) none).map (·.1)

end Sys2Proof.Machine
end

