-- ==== Sys2Proof/Machine/HostCpl.lean ====
section
/-!
DEFINITION. Posting to the host: NVMe completions and their error log entries (R502), asynchronous event notices (R527),
MSI-X messages through a function's table, and the end of a host command.
-/
namespace Sys2Proof.Machine

/-- The controller of a port. -/
def Dev.ctl (d : Dev) (portB : Bool) : NvmeCtl := if portB then d.ctlB else d.ctlA
/-- The controller of a port changed. -/
def Dev.updCtl (d : Dev) (portB : Bool) (f : NvmeCtl → NvmeCtl) : Dev :=
  if portB then { d with ctlB := f d.ctlB } else { d with ctlA := f d.ctlA }
/-- Sends a PME message of PF1 and sets PME_Status, where PME_En is set and PME_Status clear (R564). -/
def Dev.sendPme (d : Dev) (portB : Bool) : Dev :=
  let fn := (d.port portB).pf1
  if ((AMap.get fn.cfg 0x44).getD 0).toNat.testBit 8 && !fn.pmePending then
    (d.updFn portB 1 fun x => { x with pmePending := true }).emit (.pme portB)
  else d

/-- Entries a completion queue can still take: one slot stays free (NVMe ring rule). -/
def NCq.full (q : NCq) : Bool := (q.tail + 1) % q.size == q.head

/-- Whether the device posts no completion at all: sealed (table 15-5) or fenced (R636). -/
def Dev.postStopped (d : Dev) : Bool := d.g Reg.JNL_STATUS_STATE == 3 || d.acdState == 4

/-- Identifiers from here on are those of admin commands that the management endpoint tunnels (R749); a host's are below. -/
def tunnelCid : Nat := 0x10000

/-- Posts one completion on its queue, or holds it where the queue is full or the function may not send (R563). A tunnelled command's goes
to the management bus. -/
def Dev.postCpl (d : Dev) (portB : Bool) (c : Cpl) : Dev :=
  if tunnelCid ≤ c.cid then d.emit (.cpl portB c.sq c.cid c.status c.status.dnr c.dw0)
  else
  let ctl := d.ctl portB
  let cqid := match ctl.sqs.find? (·.id = c.sq) with | some s => s.cq | none => 0
  match ctl.cqs.find? (·.id = cqid) with
  | none => d
  | some q =>
    if q.full || !q.held.isEmpty || !d.canSend portB 0 || d.postStopped then
      d.updCtl portB fun x => { x with cqs := updWhere (·.id = cqid) (fun y => { y with held := y.held ++ [c] }) x.cqs }
    else
      let d := d.updCtl portB fun x =>
        { x with cqs := updWhere (·.id = cqid) (fun y => { y with tail := (y.tail + 1) % y.size }) x.cqs }
      let d := d.emit (.cpl portB c.sq c.cid c.status c.status.dnr c.dw0)
      if q.ien then d.irq portB 0 q.vec else d

/-- Posts the completions a queue holds, as far as there is room, oldest first (`fuel` at most). -/
def Dev.drainCq (d : Dev) (portB : Bool) (cqid : Nat) : Nat → Dev
  | 0 => d
  | n + 1 =>
    match (d.ctl portB).cqs.find? (·.id = cqid) with
    | none => d
    | some q =>
      match q.held with
      | [] => d
      | c :: rest =>
        if q.full || !d.canSend portB 0 || d.postStopped then d
        else
          let pop := fun (y : NCq) => { y with held := rest, tail := (y.tail + 1) % y.size }
          let d := d.updCtl portB fun x => { x with cqs := updWhere (·.id = cqid) pop x.cqs }
          let d := d.emit (.cpl portB c.sq c.cid c.status c.status.dnr c.dw0)
          let d := if q.ien then d.irq portB 0 q.vec else d
          Dev.drainCq d portB cqid n

/-- Statuses that add no Error Information entry (R502). -/
def NvStatus.quiet : NvStatus → Bool
  | .success | .commandAbortRequested | .abortedSqDeletion | .anaInaccessible | .anaTransition => true
  | _ => false

/-- Completes a command of a port by its queue and identifier, with its error log entry (R502). -/
def Dev.complete (d : Dev) (portB : Bool) (sq cid : Nat) (st : NvStatus) (dw0 lba nsid : Nat) : Dev :=
  let d := if st.quiet then d else d.updCtl portB fun x =>
    { x with errCount := x.errCount + 1,
             errLog := (⟨x.errCount + 1, sq, cid, st, lba, nsid⟩ :: x.errLog).take 256 }
  let d := if st == .unrecoveredReadError then { d with nvm := { d.nvm with mediaErrors := d.nvm.mediaErrors + 1 } } else d
  d.postCpl portB ⟨sq, cid, st, dw0⟩

/-- A deleted SQ whose last command has ended leaves, and its Delete I/O SQ completes (table 11-10). -/
def Dev.sqDeleteCheck (d : Dev) (portB : Bool) (sq : Nat) : Dev :=
  match (d.ctl portB).deleting.find? (·.1 = sq) with
  | none => d
  | some (_, cid) =>
    if d.cmds.any fun c => c.portB == portB && c.sq == sq && !c.detached then d
    else
      let d := d.updCtl portB fun x =>
        { x with sqs := x.sqs.filter (·.id ≠ sq), deleting := x.deleting.filter (·.1 ≠ sq) }
      d.complete portB 0 cid .success 0 0 0

/-- A normal shutdown is complete when its commands have ended and its barrier has been passed (R521). -/
def Dev.shutdownCheck (d : Dev) (portB : Bool) : Dev :=
  let c := d.ctl portB
  let past := match c.shutBarrier with | some h => decide (h < d.tail) | none => true
  if c.shst == 1 && !(d.cmds.any fun x => x.portB == portB && !x.detached) && past then
    d.updCtl portB fun x => { x with shst := 2, shutBarrier := none }
  else d

/-- Ends a host command with a status; a command whose controller was reset ends without a completion (table 11-10). -/
def Dev.finish (d : Dev) (id : Nat) (st : NvStatus) (lba : Nat) : Dev :=
  match d.cmd id with
  | none => d
  | some c =>
    let d := { d with cmds := d.cmds.filter (·.id ≠ id) }
    if c.detached then d
    else ((d.complete c.portB c.sq c.cid st 0 lba c.nsid).sqDeleteCheck c.portB c.sq).shutdownCheck c.portB

/-- Whether the device is held not ready (R485): P_MISMATCH, defaulted options, recovery mode, or replay waiting. -/
def Dev.heldNotReady (d : Dev) : Bool :=
  d.on Reg.VLT_STATUS_P_MISMATCH || d.on Reg.RST_STATUS_OPTIONS_DEFAULTED || d.on Reg.MBX_STATUS_RECOVERY ||
  d.g Reg.JNL_STATUS_STATE == 1

/-- Makes a controller that is enabled ready once the buffer is initialised and the journal runs (R485). -/
def Dev.readyOne (d : Dev) (portB : Bool) : Dev :=
  let c := d.ctl portB
  if c.en && !c.rdy && !c.cfs && d.running && d.on Reg.BUF_STATUS_INIT_DONE && !d.heldNotReady then
    d.updCtl portB fun x => { x with rdy := true }
  else d

/-- Makes both controllers ready where they may be. -/
def Dev.readyCheck (d : Dev) : Dev := (d.readyOne false).readyOne true

/-- Posts what every queue of a controller holds, as far as there is room. -/
def Dev.drainCqs (d : Dev) (portB : Bool) : Dev :=
  (d.ctl portB).cqs.foldl (fun (d : Dev) q => d.drainCq portB q.id (q.held.length + 1)) d

/-- Delivers an asynchronous event notice to a controller: to a waiting request, or kept until one comes. -/
def Dev.notice (d : Dev) (portB : Bool) (typ info page : Nat) : Dev :=
  let ctl := d.ctl portB
  match ctl.aers with
  | [] => d.updCtl portB fun x =>
      { x with notices := if x.notices.contains (typ, info, page) then x.notices else x.notices ++ [(typ, info, page)] }
  | cid :: rest =>
    let d := d.updCtl portB fun x => { x with aers := rest }
    let d := d.emit (.aen portB typ info page)
    d.complete portB 0 cid .success (typ + info * 256 + page * 65536) 0 0

/-- A feature's current value on a controller. -/
def NvmeCtl.feat (c : NvmeCtl) (fid : Nat) : DWord := (AMap.get c.feats fid).getD 0

/-- A vendor event (R527): information 0 member state, 1 unrecoverable mark, 2 CRITICAL, 3 epoch; sent on each
controller that enables it through feature 0xC1. -/
def Dev.vendorEvent (d : Dev) (info : Nat) : Dev :=
  let d := { d with nvm := { d.nvm with lastVendorEvent := info } }
  [false, true].foldl (fun d b =>
    if (((d.ctl b).feat 0xC1).toNat).testBit info then d.notice b 7 info 0xC0 else d) d

/-- The vendor event of CRITICAL work (R527): where it was not pending before and is now. -/
def Dev.criticalNotice (d : Dev) (was : Bool) : Dev := if !was && d.silCriticalFlag then d.vendorEvent 2 else d

/-- A Namespace Attribute Changed notice on both controllers (R492). -/
def Dev.nsChanged (d : Dev) (nsid : Nat) : Dev :=
  [false, true].foldl (fun d b =>
    (d.updCtl b fun x => { x with changedNs := (x.changedNs ++ [nsid]).eraseDups }).notice b 2 0 4) d

/-- An Asymmetric Namespace Access Change notice on both controllers (R496). -/
def Dev.anaChanged (d : Dev) : Dev := [false, true].foldl (fun d b => d.notice b 2 3 0xC) d

end Sys2Proof.Machine
end

