-- ==== Sys2Proof/Machine/Tags.lean ====
section
/-!
DEFINITION. Reads that a host port issues: the tags of its functions and their shares (R550, R551), the splitting of reads (R552),
reads that wait, and quarantine (R556).
-/
namespace Sys2Proof.Machine

/-- PF0_LIMIT of a port (table 12-15). -/
def Dev.pf0Limit (d : Dev) (portB : Bool) : Nat :=
  d.gClamp (if portB then Reg.XLT_TAGSB_PF0_LIMIT else Reg.XLT_TAGSA_PF0_LIMIT) 256 3840

/-- The share of a function (R550). -/
def Dev.tagShare (d : Dev) (portB : Bool) (fn : Nat) : Nat := if fn = 0 then d.pf0Limit portB else 4096 - d.pf0Limit portB

/-- Requests of a function outstanding. -/
def HPort.outstanding (p : HPort) (fn : Nat) : Nat := (p.tags.filter fun t => t.fn == fn && !t.quarantined).length

/-- The lowest tag value neither outstanding nor quarantined; none where all 16,384 are taken. -/
def HPort.freeTag (p : HPort) : Option Nat := (List.range 16384).find? fun n => !p.tags.any (·.tag = n)

/-- Max_Read_Request_Size of a function: Device Control bits [14:12] (offset 0x78). -/
def Fn.mrrs (f : Fn) : Nat := min 4096 (128 * 2 ^ (((AMap.get f.cfg 0x78).getD 0x2810).toNat / 4096 % 8))

/-- Max_Payload_Size of a function: Device Control bits [7:5], 512 bytes at most (R532). -/
def Fn.mps (f : Fn) : Nat := 128 * 2 ^ min 2 (((AMap.get f.cfg 0x78).getD 0x2810).toNat / 32 % 8)

/-- A read cut at Max_Read_Request_Size and at 4 KiB boundaries (R552): offset, address and length of each request. -/
def splitRead (mrrs : Nat) : Nat → Nat → Nat → Nat → List (Nat × Nat × Nat)
  | 0, _, _, _ => []
  | fuel + 1, off, addr, len =>
    if len = 0 then []
    else
      let n := min len (min mrrs (4096 - addr % 4096))
      (off, addr, n) :: splitRead mrrs fuel (off + n) (addr + n) (len - n)

/-- A payload write of PF1 to host memory, cut at Max_Payload_Size and at 4 KiB boundaries, with Relaxed Ordering where it is enabled
(R552, R553). -/
def Dev.payloadWrite (d : Dev) (portB : Bool) (a : Nat) (bytes : List Byte) : Dev :=
  (splitRead ((d.port portB).fn 1).mps (bytes.length + 1) 0 a bytes.length).foldl (fun (d : Dev) x =>
    d.emit (.dma portB (d.relaxed portB 1) x.2.1 ((bytes.drop x.1).take x.2.2))) d

/-- Sends a read with a tag, if its function may send and has a tag of its share free. -/
def Dev.tryRead (d : Dev) (portB : Bool) (r : ReadReq) : Option Dev :=
  let p := d.port portB
  if d.canSend portB r.fn && decide (p.outstanding r.fn < d.tagShare portB r.fn) then
    match p.freeTag with
    | some n => some ((d.updPort portB fun p => { p with tags := p.tags ++ [TagUse.mk n r.fn r.user r.len false] }).emit
        (.dmaRead portB n r.addr r.len))
    | none => none
  else none

/-- Issues a read, or keeps it waiting behind its function's earlier ones (R550). -/
def Dev.sendRead (d : Dev) (portB : Bool) (r : ReadReq) : Dev :=
  let wait := fun (p : HPort) => { p with waiting := p.waiting ++ [r] }
  if (d.port portB).waiting.any (·.fn = r.fn) then d.updPort portB wait
  else match d.tryRead portB r with
    | some d => d
    | none => d.updPort portB wait

/-- Issues the reads of a function that wait, in order, as far as they can go. -/
def Dev.pumpReads (d : Dev) (portB : Bool) (fn : Nat) : Dev :=
  (d.port portB).waiting.foldl (fun (d : Dev) r =>
    if r.fn = fn ∧ ((d.port portB).waiting.find? (·.fn = fn)) = some r then
      match d.tryRead portB r with
      | some d => d.updPort portB fun p => { p with waiting := p.waiting.erase r }
      | none => d
    else d) d

/-- A tag in use. -/
def Dev.tagUse (d : Dev) (portB : Bool) (tag : Nat) : Option TagUse := (d.port portB).tags.find? (·.tag = tag)

/-- Frees a tag; reads that waited go out. -/
def Dev.freeTag (d : Dev) (portB : Bool) (t : TagUse) : Dev :=
  (d.updPort portB fun p => { p with tags := p.tags.filter (·.tag ≠ t.tag) }).pumpReads portB t.fn

/-- Quarantines a tag (R556). -/
def Dev.quarantine (d : Dev) (portB : Bool) (t : TagUse) : Dev :=
  let q := fun (x : TagUse) => { x with quarantined := true }
  (d.updPort portB fun p => { p with tags := updWhere (fun (x : TagUse) => x.tag == t.tag) q p.tags }).pumpReads portB t.fn

/-- Reads of a requester are no longer wanted: those that wait are dropped, and the data of those outstanding is discarded. -/
def Dev.forgetReads (d : Dev) (portB : Bool) (mine : ReadUser → Bool) : Dev :=
  let drop := fun (x : TagUse) => { x with user := .none }
  d.updPort portB fun p =>
    { p with waiting := p.waiting.filter fun r => !mine r.user,
             tags := updWhere (fun (x : TagUse) => mine x.user && !x.quarantined) drop p.tags }

/-- The oldest outstanding tag of a requester, over both ports. -/
def Dev.findTag (d : Dev) (user : ReadUser) : Option (Bool × TagUse) :=
  match d.ports.a.tags.find? fun t => t.user == user && !t.quarantined with
  | some t => some (false, t)
  | none => (d.ports.b.tags.find? fun t => t.user == user && !t.quarantined).map fun t => (true, t)

/-- Frees the oldest outstanding tag of a requester. -/
def Dev.freeUser (d : Dev) (user : ReadUser) : Dev :=
  match d.findTag user with
  | some (b, t) => d.freeTag b t
  | none => d

end Sys2Proof.Machine
end

