-- ==== Sys2Proof/Machine/Journal.lean ====
section
/-!
DEFINITION. The journal engine (chapter 5): record headers, occupancy, admission of groups, publication and commitment,
the journal index, retirement and the tail, barriers, and the held lost ranges (R233, R234).
-/
namespace Sys2Proof.Machine

/-! ### Record headers -/

/-- Record type codes of table 5-4. -/
def RecType.code : RecType → Nat
  | .write => 0x01 | .zero => 0x02 | .recon => 0x03 | .excInsert => 0x10 | .excDelete => 0x11
  | .memberState => 0x12 | .lost => 0x13

/-- Member state codes of table 6-1. -/
def MSt.code : MSt → Nat
  | .absent => 0 | .online => 1 | .suspect => 2 | .failed => 3 | .rebuilding => 4 | .retired => 5

/-- FAILED cause codes of SIL_MBR_STATE.CAUSE. -/
def Cause.code : Cause → Nat
  | .none => 0 | .timeout => 1 | .media => 2 | .slow => 3 | .reported => 4 | .host => 5 | .absentTimeout => 6

/-- Whether a record is metadata: types 0x10 to 0x13 (R191). -/
def RecType.isMeta : RecType → Bool
  | .write | .zero | .recon => false
  | _ => true

/-- Bytes 0x00–0x0F of an exception entry (table 3-12). -/
def ExcEntry.bytes (e : ExcEntry) : List Byte :=
  leBytes 8 (e.stripe % 2 ^ 40 + e.pool % 64 * 2 ^ 40 + e.frag % 1024 * 2 ^ 46) ++
  leBytes 2 (e.member % 2 ^ 11 + 2 ^ 11 + (if e.relaxed then 2 ^ 12 else 0) + (if e.reclaiming then 2 ^ 13 else 0)) ++
  leBytes 2 0 ++ leBytes 4 e.spare

/-- The 16 bytes of a metadata entry (R191, table 5-5). -/
def MetaEntry.bytes : MetaEntry → List Byte
  | .exc e => e.bytes
  | .mst m st rd lp c mark =>
    leBytes 2 m ++ leBytes 1 st.code ++ leBytes 1 ((if rd then 1 else 0) + (if lp then 2 else 0)) ++
    leBytes 1 (if st = .failed then c.code else 0) ++ leBytes 3 0 ++ leBytes 8 mark
  | .lost n f l clr rep =>
    leBytes 2 n ++ leBytes 2 ((if clr then 1 else 0) + (if rep then 2 else 0)) ++ leBytes 4 l ++ leBytes 8 f

/-- Payload blocks a record takes in the payload ring. -/
def JRec.payBlocks (r : JRec) : Nat :=
  match r.typ with
  | .write | .recon => r.len
  | .zero => 0
  | _ => ceilDiv (r.entries.length * 16) 4096

/-- The payload of a record, as bytes (R189, R191). -/
def JRec.payload (r : JRec) : List Byte :=
  if r.typ.isMeta then
    let b := r.entries.flatMap MetaEntry.bytes
    b ++ List.replicate (r.payBlocks * 4096 - b.length) 0
  else r.blocks.flatMap blockBytes

/-- Stripe generation of a sequence number: its low 32 bits (R225). -/
def genOf (seq : Nat) : Nat := seq % 2 ^ 32

/-- Header bytes 0x00–0x3B (table 5-3). -/
def JRec.header0 (r : JRec) : List Byte :=
  leBytes 4 0x4345524A ++ leBytes 1 r.typ.code ++ leBytes 1 (if r.fua then 1 else 0) ++ leBytes 2 r.count ++
  leBytes 8 r.seq ++ leBytes 8 r.first ++
  leBytes 8 (if r.typ.isMeta then r.entries.length else r.pos) ++ leBytes 4 r.nsid ++
  leBytes 2 (if r.typ.isMeta then r.payBlocks else r.len) ++ leBytes 2 (r.seq - r.first) ++ leBytes 4 (genOf r.seq) ++
  leBytes 4 r.epoch ++ leBytes 5 r.stripe ++ leBytes 1 r.pool ++ leBytes 2 0 ++ leBytes 4 r.payIdx

/-- The 64-byte record header with its CRC-32C over header and payload (table 5-3). -/
def JRec.header (r : JRec) : List Byte :=
  r.header0 ++ leBytes 4 (crc32c (r.header0 ++ leBytes 4 0 ++ r.payload))

/-- The order of two generations (R229): `a` is later than `b`. -/
def genLater (a b : Nat) : Bool :=
  let x := (a + 2 ^ 32 - b % 2 ^ 32) % 2 ^ 32
  decide (1 ≤ x ∧ x < 2 ^ 31)

/-! ### The control block (R187, R188) -/

/-- Tail sequence of the control block. -/
def Jnl.cbTail (j : Jnl) : Nat := leAt j.cb 0x10 8
/-- Seal sequence of the control block. -/
def Jnl.sealSeq (j : Jnl) : Nat := leAt j.cb 0x18 8
/-- Seal flags of the control block: bit 0 SEALED, bit 1 MIRRORING at the seal, bit 2 MIRROR_VALID (R654). -/
def Jnl.sealFlags (j : Jnl) : Nat := leAt j.cb 0x20 4
/-- Whether the control block says SEALED. -/
def Jnl.sealed (j : Jnl) : Bool := j.sealFlags.testBit 0
/-- Number of the newest durable journal checkpoint, 0 where none is known. -/
def Jnl.cbJckpt (j : Jnl) : Nat := leAt j.cb 0x24 8
/-- Number of the newest durable exception checkpoint, 0 where none is known. -/
def Jnl.cbEckpt (j : Jnl) : Nat := leAt j.cb 0x2C 8

/-- Whether a control block's magic and CRC-32C are right (R240). -/
def Jnl.cbValid (j : Jnl) : Bool := leAt j.cb 0 4 == 0x42434E4A && leAt j.cb 0x3C 4 == crc32c (j.cb.take 0x3C)

/-- The 64 bytes of a control block (table 5-2): geometry, tail, seal and checkpoint numbers, with its CRC-32C. -/
def ctrlBlock (slots pay tail sealSeq flags jck eck : Nat) : List Byte :=
  let b := leBytes 4 0x42434E4A ++ leBytes 2 1 ++ leBytes 2 0 ++ leBytes 4 slots ++ leBytes 4 pay ++ leBytes 8 tail ++
    leBytes 8 sealSeq ++ leBytes 4 flags ++ leBytes 8 jck ++ leBytes 8 eck ++ leBytes 8 0
  b ++ leBytes 4 (crc32c b)

/-- Writes the control block, and while mirroring its image in the partner's mirror area (R622). In an accord a package that is not the steward
writes 0 in both checkpoint fields (R188). -/
def Dev.putCtrl (d : Dev) (tail sealSeq flags jck eck : Nat) : Dev :=
  let own := fun (n : Nat) => if d.steward then n else 0
  let b := ctrlBlock (d.g Reg.JNL_HDR_SLOTS_COUNT) (d.g Reg.JNL_PAY_BLOCKS_COUNT) tail sealSeq flags (own jck) (own eck)
  let d := { d with jnl := { d.jnl with cb := b } }
  if d.mirroring then d.peerPut 0x100000000 b else d

/-- Writes a new tail sequence into the control block (R188). -/
def Dev.putTail (d : Dev) (t : Nat) : Dev := d.putCtrl t d.jnl.sealSeq d.jnl.sealFlags d.jnl.cbJckpt d.jnl.cbEckpt

/-! ### Occupancy and status -/

/-- Payload blocks in use: those of every record at or above the tail. -/
def Dev.payUsed (d : Dev) : Nat := (d.jnl.recs.map JRec.payBlocks).foldl (· + ·) 0

/-- Occupancy (R212), a percentage rounded down. -/
def Dev.occupancy (d : Dev) : Nat :=
  let hs := d.g Reg.JNL_HDR_SLOTS_COUNT
  let pb := d.g Reg.JNL_PAY_BLOCKS_COUNT
  max ((d.head + 1 - d.tail) * 100 / hs) (d.payUsed * 100 / pb)

/-- Whether a barrier is pending (R223). -/
def Dev.barrierPending (d : Dev) : Bool := d.on Reg.JNL_STATUS_BARRIER_PENDING

/-- A percent level whose 0 acts as 1 and whose values above 100 act as 100 (tables 5-14, 6-10). -/
def Dev.percent (d : Dev) (f : Fld) : Nat := d.gClamp f 1 100

/-- Whether drydown is urgent (R213). -/
def Dev.urgent (d : Dev) : Bool := decide (d.percent Reg.JNL_DRY_CFG_HIGH_WATER ≤ d.occupancy)

/-- Whether the idle trigger of R212 holds: no group has been admitted for IDLE_US, where that is not 0. -/
def Dev.idleTrigger (d : Dev) : Bool := d.g Reg.JNL_DRY_CFG_IDLE_US != 0 && d.jnl.idle

/-- Whether non-operational power states pause background work (R518); set by the power-state chapter. -/
def Dev.nonOperational (d : Dev) : Bool := 3 ≤ min d.ctlA.pstate d.ctlB.pstate

/-- Whether NOPPME lets background work run in a non-operational state (R518). -/
def Dev.noppme (d : Dev) : Bool :=
  ((d.ctlA.feat 0x11).toNat).testBit 0 || ((d.ctlB.feat 0x11).toNat).testBit 0

/-- Whether drydown runs (R212); it starts none before replay has finished (R239) and pauses under R518. -/
def Dev.drydown (d : Dev) : Bool :=
  d.running && (!d.nonOperational || d.noppme) &&
  (decide (d.percent Reg.JNL_DRY_CFG_DRY_START ≤ d.occupancy) || d.idleTrigger || d.barrierPending)

/-- Brings JNL_STATUS, JNL_OCCUPANCY and the lock and lost counts up to date. -/
def Dev.jnlStatus (d : Dev) : Dev :=
  let o := d.occupancy
  let d := (d.p Reg.JNL_OCCUPANCY_PERCENT (min o 127)).p Reg.JNL_OCCUPANCY_PEAK (min (max o (d.g Reg.JNL_OCCUPANCY_PEAK)) 127)
  let d := (d.p Reg.JNL_STATUS_URGENT (if d.urgent then 1 else 0)).p Reg.JNL_STATUS_DRYING (if d.drydown then 1 else 0)
  d.p Reg.JNL_LOST_COUNT_RANGES d.jnl.lost.length

/-! ### Index and lookups -/

/-- Whether a record covers a block of a namespace. -/
def JRec.covers (r : JRec) (nsid lba : Nat) : Bool :=
  (r.typ == .write || r.typ == .zero) && r.nsid == nsid && decide (r.pos ≤ lba ∧ lba < r.pos + r.len)

/-- Whether a record's group is published (R200). -/
def Dev.published (d : Dev) (r : JRec) : Bool :=
  d.jnl.groups.any fun g => g.first == r.first && g.published

/-- The newest published unretired record that covers a block, of the local and the adopted journal (R204, R637). -/
def Dev.indexRec (d : Dev) (nsid lba : Nat) : Option JRec :=
  ((d.jnl.recs.filter d.published ++ d.acd.adopted).filter fun r => !r.retired && r.covers nsid lba).foldl
    (fun (best : Option JRec) r => match best with
      | none => some r
      | some b => if b.seq < r.seq then some r else some b) none

/-- Whether a held lost range contains a block. -/
def LostRange.has (l : LostRange) (nsid lba : Nat) : Bool :=
  l.nsid == nsid && decide (l.first ≤ lba) && (l.len == 0 || decide (lba < l.first + l.len))

/-- Whether a block reads as lost (R233): a held range contains it, or its record was lost. A newer record that was
admitted after the marking serves the block. -/
def Dev.isLost (d : Dev) (nsid lba : Nat) : Bool :=
  let cov := d.indexRec nsid lba
  (match cov with | some r => r.lost | none => false) ||
  d.jnl.lost.any fun l => l.has nsid lba && (match cov with
    | some r => decide (r.seq ≤ l.mark) | none => true)

/-- What the journal says of a block: its record's block, zero, lost, or nothing (R204, R233). -/
def Dev.journalBlock (d : Dev) (nsid lba : Nat) : Option BlkRes :=
  if d.isLost nsid lba then some .lost
  else match d.indexRec nsid lba with
    | none => none
    | some r => match r.typ with
      | .zero => some .zero
      | _ => (r.blocks[lba - r.pos]?).map BlkRes.cipher

/-! ### Admission (R192 to R197) -/

/-- Splits a range of a namespace into runs within one stripe (R192): (stripe, first LBA, length). -/
def stripeRuns (n : ArmNs) (p : PoolCfg) : Nat → Nat → Nat → List (Nat × Nat × Nat)
  | 0, _, _ => []
  | fuel + 1, l, cnt =>
    if cnt = 0 then []
    else
      let sb := p.stripeBlocks
      let room := sb - l % sb
      let k := min room cnt
      (n.first + l / sb, l, k) :: stripeRuns n p fuel (l + k) (cnt - k)

/-- Splits a host write into consecutive groups of 512 blocks (R193): (first LBA, length). -/
def groupRuns : Nat → Nat → Nat → List (Nat × Nat)
  | 0, _, _ => []
  | fuel + 1, l, cnt => if cnt = 0 then [] else (l, min 512 cnt) :: groupRuns fuel (l + 512) (cnt - 512)

/-- A record not yet admitted. -/
def newRec (d : Dev) (typ : RecType) (fua : Bool) (pos nsid len stripe pool : Nat) (blocks : List Block)
    (entries : List MetaEntry) : JRec :=
  { seq := 0, typ := typ, fua := fua, first := 0, count := 1, pos := pos, nsid := nsid, len := len,
    epoch := d.epoch, stripe := stripe, pool := pool, payIdx := 0, blocks := blocks, entries := entries,
    inPlace := false, retired := false, lost := false, admitUs := d.now }

/-- Free header slots. -/
def Dev.freeSlots (d : Dev) : Nat := d.g Reg.JNL_HDR_SLOTS_COUNT - (d.head + 1 - d.tail)
/-- Free payload blocks. -/
def Dev.freePay (d : Dev) : Nat := d.g Reg.JNL_PAY_BLOCKS_COUNT - d.payUsed

/-- Whether a group fits (R196). -/
def Dev.fits (d : Dev) (rs : List JRec) : Bool :=
  decide (rs.length ≤ d.freeSlots) && decide ((rs.map JRec.payBlocks).foldl (· + ·) 0 ≤ d.freePay)

/-- Admits one record as the next of its group: sequence, payload index, epoch (R186, R194, R143). -/
def Dev.admitRec (d : Dev) (first count : Nat) (r : JRec) : Dev :=
  let seq := d.head + 1
  let pb := r.payBlocks
  let r := { r with seq := seq, first := first, count := count, epoch := d.epoch, admitUs := d.now,
                    payIdx := if pb = 0 then 0 else d.jnl.payNext }
  let ring := d.g Reg.JNL_PAY_BLOCKS_COUNT
  let d := d.p Reg.JNL_HEAD_SEQ_SEQ seq
  { d with jnl := { d.jnl with recs := d.jnl.recs ++ [r], payNext := (d.jnl.payNext + pb) % ring } }

/-- Sets RESYNC_DRL for every member whose departure mark the head has passed by 2^30 or more before it is written again (R232); a member
that the device writes, in the states of table 6-1 and identified, is left as it is. -/
def Dev.resyncMarks (d : Dev) : Dev :=
  let far := fun (x : Mbr) => match x.mark with
    | some k => if k + 2 ^ 30 ≤ d.head ∧ (!x.st.active || x.awaitId) then { x with resyncDrl := true } else x
    | none => x
  { d with mbrs := d.mbrs.map far }

/-- The writes that place a record in the partner's mirror area: its header, and its payload block by block, at the offsets that they have in
the local journal (R622, table 5-1). -/
def Dev.recWrites (d : Dev) (portB : Bool) (r : JRec) : List Emit :=
  let slots := d.g Reg.JNL_HDR_SLOTS_COUNT
  let ring := d.g Reg.JNL_PAY_BLOCKS_COUNT
  let base := 0x100000000 + 0x100000
  .peerWrite portB (base + 64 * (r.seq % slots)) r.header :: (List.range r.payBlocks).map fun i =>
    .peerWrite portB (base + 64 * slots + 4096 * ((r.payIdx + i) % ring)) ((r.payload.drop (4096 * i)).take 4096)

/-- The COMMIT doorbell (table 14-6). -/
def doorbell (first last tail : Nat) : List Byte :=
  let b := leBytes 8 first ++ leBytes 8 last ++ leBytes 8 tail
  b ++ leBytes 4 (crc32c b) ++ leBytes 4 0

/-- The link that the next group goes by: the links that are up take turns (R623). -/
def Dev.groupLink (d : Dev) : Bool := if d.g Reg.ACD_STATUS_LINKS_UP = 3 then d.acd.nextB else d.peerOut

/-- Sends records and the doorbell that follows them by one link (R622, R623). -/
def Dev.sendRecs (d : Dev) (rs : List JRec) (first last : Nat) : Dev :=
  let b := d.groupLink
  { d with acd := { d.acd with nextB := !b },
           emitted := d.emitted ++ rs.flatMap (d.recWrites b) ++ [Emit.peerWrite b 0 (doorbell first last d.tail)] }

/-- Sends records to the partner's mirror area, and the doorbell that follows (R622, R623). A doorbell starts one above the last
sequence named before it, so that numbers the head skipped under R618 leave no gap (log entry 70). -/
def Dev.sendMirror (d : Dev) (rs : List JRec) (last : Nat) : Dev :=
  let first := match rs with | r :: _ => r.seq | [] => last + 1
  let from_ := if d.acd.sentTo = 0 then first else d.acd.sentTo + 1
  let d := d.sendRecs rs from_ last
  { d with acd := { d.acd with sentTo := last } }

/-- Admits a group whole (R196), sending it to the partner's mirror area while mirroring (R199, R622, R623). -/
def Dev.admitGroup (d : Dev) (w : WaitGroup) : Dev :=
  let first := d.head + 1
  let n := w.recs.length
  let d : Dev := w.recs.foldl (fun (d : Dev) r => d.admitRec first n r) d
  let d := { d with jnl := { d.jnl with groups := d.jnl.groups ++ [JGroup.mk first n w.use false false], lastAdmitUs := d.now,
                                         idle := false,
                                         settled := d.jnl.settled.filter fun x => !w.recs.any fun r => r.pool == x.1 && r.stripe == x.2 } }
  let d := if d.mirroring then
      d.sendMirror (d.jnl.recs.filter (·.first = first)) (first + n - 1)
    else d
  d.resyncMarks.jnlStatus

/-- Marks the host command a group belongs to as admitted (table 11-5). -/
def Dev.noteAdmitted (d : Dev) (u : GroupUse) : Dev :=
  match u with
  | .host c => d.updCmd c fun x => { x with admitted := true }
  | _ => d

/-- Offers a group for admission: it is admitted at once, or waits behind earlier ones or for space (R196, R197). -/
def Dev.offer (d : Dev) (rs : List JRec) (u : GroupUse) : Dev :=
  if rs.isEmpty then d
  else if d.jnl.waiting.isEmpty && d.fits rs && d.running then (d.admitGroup ⟨rs, u⟩).noteAdmitted u
  else { (d.p Reg.JNL_STATUS_FULL_SEEN 1) with jnl := { d.jnl with waiting := d.jnl.waiting ++ [WaitGroup.mk rs u] } }

/-- Admits the first waiting group, where it now fits (R197). -/
def Dev.admitWaiting (d : Dev) : Dev :=
  match d.jnl.waiting with
  | [] => d
  | w :: rest =>
    if d.fits w.recs && d.running then
      (Dev.admitGroup { d with jnl := { d.jnl with waiting := rest } } w).noteAdmitted w.use
    else d

/-- The entries of metadata records in runs of at most 1,024 (R191). -/
def entryRuns : Nat → List MetaEntry → List (List MetaEntry)
  | 0, es => [es]
  | fuel + 1, es => if es.length ≤ 1024 then [es] else es.take 1024 :: entryRuns fuel (es.drop 1024)

/-- Admits the metadata records of entries, as one group (R191, R193). -/
def Dev.offerMeta (d : Dev) (typ : RecType) (es : List MetaEntry) (u : GroupUse) : Dev :=
  d.offer ((entryRuns (es.length / 1024) es).map fun x => newRec d typ false 0 0 0 0 0 [] x) u

/-! ### Lost ranges (R233, R234) -/

/-- Last block of a range; an open range reaches `top`, the last block of its namespace. -/
def LostRange.last (l : LostRange) (top : Nat) : Nat := if l.len = 0 then top else l.first + l.len - 1

/-- The range from `a` to `b`: stored with length 0 where it exceeds 0xFFFF_FFFF blocks (R234). -/
def mkRange (nsid a b : Nat) (rep : Bool) (mark : Nat) : LostRange :=
  ⟨nsid, a, if b + 1 - a > 0xFFFFFFFF then 0 else b + 1 - a, rep, mark⟩

/-- The range that covers two ranges and what lies between them; REPAIR passes on (R234). -/
def joinRange (top : Nat) (x y : LostRange) : LostRange :=
  let a := min x.first y.first
  let b := max (x.last top) (y.last top)
  let m := mkRange x.nsid a b (x.repair || y.repair) (max x.mark y.mark)
  if x.len = 0 ∨ y.len = 0 then { m with len := 0 } else m

/-- Blocks between two ranges of one namespace; 0 where they touch or overlap. -/
def gapOf (top : Nat) (x y : LostRange) : Nat :=
  if x.last top < y.first then y.first - x.last top - 1
  else if y.last top < x.first then x.first - y.last top - 1 else 0

/-- Whether two ranges of a namespace share a block. -/
def overlaps (top : Nat) (x y : LostRange) : Bool :=
  x.nsid == y.nsid && decide (x.first ≤ y.last top ∧ y.first ≤ x.last top)

/-- What a range keeps when the blocks of another are taken out of it. -/
def cutRange (top : Nat) (x l : LostRange) : List LostRange :=
  (if l.first < x.first then [mkRange l.nsid l.first (x.first - 1) l.repair l.mark] else []) ++
  (if x.last top < l.last top then
    [{ mkRange l.nsid (x.last top + 1) (l.last top) l.repair l.mark with
        len := if l.len = 0 then 0 else l.last top - x.last top }] else [])

/-- Order of ranges: NSID, then first LBA. -/
def rangeLt (x y : LostRange) : Bool := decide (x.nsid < y.nsid ∨ (x.nsid = y.nsid ∧ x.first < y.first))

/-- Inserts a range in order. -/
def insertRange (x : LostRange) : List LostRange → List LostRange
  | [] => [x]
  | y :: ys => if rangeLt x y then x :: y :: ys else y :: insertRange x ys

/-- The union of a range with the ranges held (R234): it joins the ranges it overlaps that were marked at the same head; a range marked
earlier keeps its other blocks under its own mark, so that a record admitted since still clears them (R233; log entry 74). Ranges that only
touch stay apart. -/
def unionRange (top : Nat) (ls : List LostRange) (x : LostRange) : List LostRange :=
  let hit := ls.filter (overlaps top x)
  let y := (hit.filter (·.mark == x.mark)).foldl (joinRange top) x
  let y : LostRange := { y with repair := y.repair || hit.any (·.repair) }
  insertRange y (ls.flatMap fun l => if overlaps top y l then cutRange top y l else [l])

/-- Neighbouring pairs of ranges of one namespace, in order. -/
def rangePairs : List LostRange → List (LostRange × LostRange)
  | x :: y :: rest => (if x.nsid = y.nsid then [(x, y)] else []) ++ rangePairs (y :: rest)
  | _ => []

/-- Merges the closest pair of all held ranges; a tie goes to the lower NSID, then the lower first LBA (R234). -/
def mergeClosest (topOf : Nat → Nat) (ls : List LostRange) : List LostRange :=
  let best := (rangePairs ls).foldl (fun (b : Option (Nat × LostRange × LostRange)) xy =>
    let g := gapOf (topOf xy.1.nsid) xy.1 xy.2
    match b with
    | none => some (g, xy.1, xy.2)
    | some q => if g < q.1 then some (g, xy.1, xy.2) else some q) none
  match best with
  | none => ls
  | some (_, x, y) => insertRange (joinRange (topOf x.nsid) x y) (ls.filter fun l => l != x && l != y)

/-- The range of a namespace nearest to a new one; a tie goes to the lower first LBA (R234). -/
def nearestRange (top : Nat) (ls : List LostRange) (x : LostRange) : Option LostRange :=
  ((ls.filter (·.nsid = x.nsid)).foldl (fun (b : Option (Nat × LostRange)) l =>
    let g := gapOf top l x
    match b with
    | none => some (g, l)
    | some q => if g < q.1 then some (g, l) else some q) none).map (·.2)

/-- The most lost ranges held (R234). -/
def maxLost : Nat := 4096

/-- Adds a range, keeping the limit (R234). -/
def addRange (topOf : Nat → Nat) (ls : List LostRange) (x : LostRange) : List LostRange :=
  let u := unionRange (topOf x.nsid) ls x
  if u.length ≤ maxLost then u
  else match nearestRange (topOf x.nsid) ls x with
    | some l => unionRange (topOf x.nsid) (ls.filter (· != l)) (joinRange (topOf x.nsid) l x)
    | none => insertRange x (mergeClosest topOf ls)

/-- Takes the blocks `a … b` of a namespace out of the ranges that `older` accepts (R233). -/
def cutBlocks (topOf : Nat → Nat) (older : LostRange → Bool) (ls : List LostRange) (nsid a b : Nat) : List LostRange :=
  ls.flatMap fun l =>
    if !older l ∨ l.nsid ≠ nsid ∨ b < l.first ∨ l.last (topOf nsid) < a then [l]
    else
      (if l.first < a then [mkRange nsid l.first (a - 1) l.repair l.mark] else []) ++
      (if b < l.last (topOf nsid) then
        [{ mkRange nsid (b + 1) (l.last (topOf nsid)) l.repair l.mark with
            len := if l.len = 0 then 0 else l.last (topOf nsid) - b }] else [])

/-- Keeps the limit over every range held: one too many merges the closest pair (R234). -/
def keepLimit (topOf : Nat → Nat) (ls : List LostRange) : List LostRange :=
  if ls.length ≤ maxLost then ls else mergeClosest topOf ls

/-- Last LBA of a namespace of the active epoch. -/
def Dev.nsTop (d : Dev) (nsid : Nat) : Nat :=
  match d.arm.active with
  | none => 0
  | some a => match a.ns nsid with
    | none => 0
    | some n => match a.pool n.pool with
      | some c => n.capacity c - 1
      | none => 0

/-- The held ranges changed, and JNL_LOST_COUNT with them. -/
def Dev.setLost (d : Dev) (ls : List LostRange) : Dev :=
  ({ d with jnl := { d.jnl with lost := ls } }).p Reg.JNL_LOST_COUNT_RANGES ls.length

/-- The entries that describe the ranges of `new` which `old` does not already hold, REPAIR flag included (R234). -/
def Dev.lostEntries (d : Dev) (old new : List LostRange) : List MetaEntry :=
  let holds := fun (x y : LostRange) => y.nsid == x.nsid && decide (y.first ≤ x.first ∧ x.last (d.nsTop x.nsid) ≤ y.last (d.nsTop x.nsid)) &&
    (y.repair || !x.repair)
  (new.filter fun x => !old.any (holds x)).map fun x => .lost x.nsid x.first x.len false x.repair

/-- Marks blocks lost and admits the LOST entries that describe the resulting ranges (R233, R234, R260, R804). Blocks that the ranges
held already cover are described as they are. -/
def Dev.markLost (d : Dev) (rs : List (Nat × Nat × Nat)) (rep : Bool) (use : GroupUse) : Dev :=
  if rs.isEmpty then d
  else
    let old := d.jnl.lost
    let d := d.setLost (rs.foldl (fun ls x =>
      addRange d.nsTop ls (mkRange x.1 x.2.1 (x.2.1 + x.2.2 - 1) rep d.head)) old)
    let es := d.lostEntries old d.jnl.lost
    d.offerMeta .lost (if es.isEmpty then rs.map fun x => .lost x.1 x.2.1 x.2.2 false rep else es) use

/-- Applies a LOST entry, as replay does (R234): union, or removal with CLEAR. -/
def Dev.applyLost (d : Dev) (nsid first len : Nat) (clear rep : Bool) (mark : Nat) : Dev :=
  let last := if len = 0 then d.nsTop nsid else first + len - 1
  d.setLost (if clear then keepLimit d.nsTop (cutBlocks d.nsTop (fun _ => true) d.jnl.lost nsid first last)
    else addRange d.nsTop d.jnl.lost ⟨nsid, first, len, rep, mark⟩)

/-! ### Retirement, the tail and barriers (R222 to R224) -/

/-- The lowest sequence not retired: the first unretired record's, or one above the head. -/
def Dev.firstUnretired (d : Dev) : Nat :=
  match d.jnl.recs.find? (fun r => !r.retired) with
  | some r => r.seq
  | none => d.head + 1

/-- Whether a host read still takes data from a payload block of a record below a sequence (R205). -/
def Dev.tailBlocked (d : Dev) (upTo : Nat) : Option Nat :=
  (d.jnl.readers.filter (· < upTo)).foldl (fun (m : Option Nat) s => match m with
    | none => some s | some x => some (min x s)) none

/-- Completes the Flushes whose target the tail has passed (R507). -/
def Dev.flushDone (d : Dev) : Dev :=
  let ready := d.jnl.flushes.filter fun f => decide (f.2 < d.tail)
  let d := { d with jnl := { d.jnl with flushes := d.jnl.flushes.filter fun f => !decide (f.2 < d.tail) } }
  ready.foldl (fun (d : Dev) f => d.finish f.1 .success 0) d

/-- Ends a barrier that the tail has passed (R223). -/
def Dev.barrierCheck (d : Dev) : Dev :=
  if d.barrierPending && decide (d.g Reg.JNL_BARRIER_SEQ_SEQ < d.tail) then
    (d.p Reg.JNL_STATUS_BARRIER_PENDING 0).p Reg.JNL_STATUS_BARRIER_DONE 1
  else d

/-- Advances the tail over retired records (R224), writes it to the control block (R188), ends barriers it has passed
(R223) and lets waiting groups in. -/
def Dev.advanceTail (d : Dev) : Dev :=
  let t0 := d.firstUnretired
  let t := match d.tailBlocked t0 with | some s => min s t0 | none => t0
  if t ≤ d.tail then d
  else
    let d := d.p Reg.JNL_TAIL_SEQ_SEQ t
    let d := { d with jnl := { d.jnl with
      recs := d.jnl.recs.filter (t ≤ ·.seq), groups := d.jnl.groups.filter fun g => decide (t < g.first + g.count) } }
    let d := (d.putTail t).barrierCheck
    (((d.flushDone).shutdownCheck false).shutdownCheck true).jnlStatus

/-- Completes host writes with FUA (R202, R509): those whose records have all retired. -/
def Dev.fuaDone (d : Dev) : Dev :=
  let waiting := d.cmds.filter fun c => c.fua && c.admitted && c.groupsLeft == 0 &&
    (c.kind == .write || c.kind == .zeroes || c.kind == .dealloc) &&
    !(d.jnl.recs.any fun r => !r.retired && d.jnl.groups.any fun g =>
        g.first == r.first && g.use == .host c.id) &&
    !(d.jnl.waiting.any fun w => w.use == .host c.id)
  waiting.foldl (fun (d : Dev) c => d.finish c.id .success 0) d

/-- The parts of the held ranges marked before a record's admission that its retirement clears (R233): first LBA and length. -/
def clearedParts (top : Nat) (r : JRec) (ls : List LostRange) : List (Nat × Nat) :=
  (ls.filter fun l => l.nsid == r.nsid && decide (l.mark < r.seq ∧ l.first < r.pos + r.len ∧ r.pos ≤ l.last top)).map fun l =>
    (max l.first r.pos, min (l.last top + 1) (r.pos + r.len) - max l.first r.pos)

/-- The blocks a retiring record clears of the held ranges it was admitted after (R233): LOST entries with CLEAR for exactly them, and an
entry for the range that the limit made of the closest pair (R234). -/
def Dev.clearLostFor (d : Dev) (r : JRec) : Dev :=
  let parts := if r.typ == .write || r.typ == .zero then clearedParts (d.nsTop r.nsid) r d.jnl.lost else []
  if parts.isEmpty then d
  else
    let cut := cutBlocks d.nsTop (fun l => decide (l.mark < r.seq)) d.jnl.lost r.nsid r.pos (r.pos + r.len - 1)
    let d := d.setLost (keepLimit d.nsTop cut)
    d.offerMeta .lost ((parts.map fun x => .lost r.nsid x.1 x.2 true false) ++ d.lostEntries cut d.jnl.lost) .other

/-- Retires records by sequence number, then advances the tail (R222, R224). -/
def Dev.retire (d : Dev) (seqs : List Nat) : Dev :=
  let rs := d.jnl.recs.filter fun r => seqs.contains r.seq && !r.retired
  let d := { d with jnl := { d.jnl with recs := updWhere (fun r => seqs.contains r.seq) (fun r => { r with retired := true }) d.jnl.recs } }
  let d : Dev := rs.foldl (fun (d : Dev) r => if r.lost then d else d.clearLostFor r) d
  (d.fuaDone).advanceTail

/-- The tail of an adopted journal, in the control block of the mirror area, passes what has retired (R224, R638). -/
def Dev.adoptedTail (d : Dev) (seqs : List Nat) : Dev :=
  let last := (seqs.map (· + 1)).foldl max d.acd.mirrorTail
  let t := match d.acd.adopted with
    | [] => last
    | r :: rs => (rs.map (·.seq)).foldl min r.seq
  { d with acd := { d.acd with mirrorTail := max d.acd.mirrorTail t } }

/-- Retires records of the adopted journal; when none is left ADOPTED clears, and the receiver of a planned transfer tells
the giver once those of its pools have retired (R638, R641 step 5). -/
def Dev.retireAdopted (d : Dev) (seqs : List Nat) : Dev :=
  if seqs.isEmpty then d
  else
    let rs := d.acd.adopted.filter fun r => seqs.contains r.seq
    let d : Dev := rs.foldl (fun (d : Dev) r => d.clearLostFor r) d
    let gone := fun (r : JRec) => { r with retired := true }
    let d : Dev := { d with acd := { d.acd with adopted := d.acd.adopted.filter fun r => !seqs.contains r.seq,
                                                mirror := updWhere (fun r => seqs.contains r.seq) gone d.acd.mirror } }
    let d : Dev := if d.acdState = 3 then d.adoptedTail seqs else d
    let over_ := fun (t : Transfer) => !t.giver && !d.acd.adopted.any fun r => t.pools.testBit r.pool
    let told := d.acd.transfers.filter over_
    let d := { d with acd := { d.acd with transfers := d.acd.transfers.filter fun t => !over_ t } }
    let d := if d.acd.adopted.isEmpty then
        let d := (d.p Reg.ACD_STATUS_ADOPTED 0).emit (.vault "accord record" 0)
        { d with acd := { d.acd with record := d.acd.record.map fun r => { r with adopted := false } } }
      else d
    told.foldl (fun (d : Dev) t => d.peerSend 0x09 [t.pools]) d

/-- Sets a barrier at the current head (R223); it is at once past where nothing is unretired. -/
def Dev.barrier (d : Dev) : Dev :=
  let d := d.p Reg.JNL_BARRIER_SEQ_SEQ d.head
  if d.head < d.tail then (d.p Reg.JNL_STATUS_BARRIER_PENDING 0).p Reg.JNL_STATUS_BARRIER_DONE 1
  else (d.p Reg.JNL_STATUS_BARRIER_PENDING 1).jnlStatus

end Sys2Proof.Machine
end

