-- ==== Sys2Proof/Machine/Locks.lean ====
section
/-!
DEFINITION. The stripe lock table (R206 to R210): sets of 16 ways, SHARED and EXCLUSIVE holders, requests in arrival order,
and waits for a free way.
-/
namespace Sys2Proof.Machine

/-- The set a stripe's lock lives in (R206). -/
def lockSet (pool s : Nat) : Nat := (s ^^^ (s >>> 14) ^^^ (s >>> 28) ^^^ (pool * 0x2D5)) &&& 0x3FFF

/-- Ways of a set in use. -/
def Dev.waysUsed (d : Dev) (set : Nat) : Nat := (d.locks.filter fun l => lockSet l.pool l.stripe == set).length

/-- Brings JNL_LOCKS up to date (table 5-19). -/
def Dev.lockRegs (d : Dev) : Dev :=
  let w := (d.locks.map (·.queue.length)).foldl (· + ·) 0 + d.setWait.length
  (d.p Reg.JNL_LOCKS_IN_USE d.locks.length).p Reg.JNL_LOCKS_WAITING (min w 8191)

/-- A lock request (R208, R209): it joins the stripe's queue, takes a free way of the set, or waits for one. -/
def Dev.lockRequest (d : Dev) (op pool s : Nat) (excl : Bool) : Dev :=
  let here := fun (l : Lock) => l.pool == pool && l.stripe == s
  let d :=
    if d.locks.any here then
      { d with locks := updWhere here (fun l => { l with queue := l.queue ++ [(op, excl)] }) d.locks }
    else if d.waysUsed (lockSet pool s) < 16 then
      { d with locks := d.locks ++ [Lock.mk pool s false [] [(op, excl)]] }
    else { (d.p Reg.JNL_STATUS_LOCK_SET_FULL 1) with setWait := d.setWait ++ [SetWait.mk op pool s excl] }
  d.lockRegs

/-- Whether the first request that waits on a stripe can be granted (R207, R208). -/
def Lock.grantable (l : Lock) : Bool :=
  match l.queue with
  | [] => false
  | (_, excl) :: _ => l.holders.isEmpty || (!l.excl && !excl)

/-- Frees the ways nobody holds or awaits, and gives each to the first request that waits on its set (R209). -/
def Dev.freeWays (d : Dev) : Dev :=
  let d := { d with locks := d.locks.filter fun l => !(l.holders.isEmpty && l.queue.isEmpty) }
  let d : Dev := d.setWait.foldl (fun (d : Dev) w =>
    let here := fun (l : Lock) => l.pool == w.pool && l.stripe == w.stripe
    if d.locks.any here then
      { d with locks := updWhere here (fun l => { l with queue := l.queue ++ [(w.op, w.excl)] }) d.locks,
               setWait := d.setWait.erase w }
    else if d.waysUsed (lockSet w.pool w.stripe) < 16 then
      { d with locks := d.locks ++ [Lock.mk w.pool w.stripe false [] [(w.op, w.excl)]], setWait := d.setWait.erase w }
    else d) d
  d.lockRegs

/-- An operation releases its lock, or withdraws its request. -/
def Dev.lockRelease (d : Dev) (op : Nat) : Dev :=
  Dev.freeWays { d with
    locks := d.locks.map fun l =>
      { l with holders := l.holders.filter (· ≠ op), queue := l.queue.filter (·.1 ≠ op) }
    setWait := d.setWait.filter (·.op ≠ op) }

/-- Grants the first request that waits on a stripe (R208): the lock table after, and the operation granted. -/
def Dev.lockGrant (d : Dev) (pool s : Nat) : Option (Nat × Dev) :=
  match d.locks.find? fun l => l.pool == pool && l.stripe == s with
  | none => none
  | some l =>
    if !l.grantable then none
    else match l.queue with
      | [] => none
      | (op, excl) :: rest =>
        let here := fun (x : Lock) => x.pool == pool && x.stripe == s
        let take := fun (x : Lock) => { x with excl := excl, holders := x.holders ++ [op], queue := rest }
        some (op, Dev.lockRegs { d with locks := updWhere here take d.locks })

end Sys2Proof.Machine
end

