-- ==== Sys2Proof/Machine/MemberCmd.lean ====
section
/-!
DEFINITION. Member commands (R585 to R587): submission under the outstanding-command limit, issue, and the dirty-region
log of blocks a member misses (R278 to R281).
-/
namespace Sys2Proof.Machine

/-- The outstanding-command limit of a member (R586, table 13-12). -/
def Dev.qdLimit (d : Dev) (m : Nat) : Nat :=
  if d.rot m then d.gClamp Reg.MBR_QD_ROT_QD 1 64 else max 1 (d.g Reg.MBR_QD_FLASH_QD)

/-- The command timeout of a member, in ms (R589, table 13-11). -/
def Dev.cmdTimeoutMs (d : Dev) (m : Nat) : Nat :=
  if d.rot m then d.gClamp Reg.MBR_TIMEOUT_ROT_MS 100 60000 else d.gClamp Reg.MBR_TIMEOUT_FLASH_MS 100 60000

/-- Whether a command is an I/O command under the limit of R586. -/
def MKind.isIo : MKind → Bool
  | .read | .tagRead | .write | .tagWrite | .zeroes | .label | .plinthRead => true
  | _ => false

/-- Whether two commands update one tag block. -/
def MCmd.sameTagBlock (c x : MCmd) : Bool :=
  c.kind == .tagWrite && x.kind == .tagWrite && x.member == c.member && x.pool == c.pool && x.block == c.block

/-- Whether a tag block update must wait for an earlier one of the same block, which may be waiting, outstanding or held (R305). -/
def Dev.tagBusy (d : Dev) (c : MCmd) : Bool := (d.mcmds.takeWhile (·.id != c.id)).any c.sameTagBlock

/-- A member command not yet submitted, for a given identifier. -/
def MCmd.new (member : Nat) (kind : MKind) (user : MUser) (pool stripe block count : Nat) (spare : Bool)
    (refs : List BlkRef) (data : List (Block × BitVec 128)) (sillage : Bool) (id : Nat) : MCmd :=
  ⟨id, member, kind, .waiting, user, pool, stripe, block, count, 0, 0, spare, refs, data, [], none, sillage, 0⟩

/-- The extent of a pool on a member, by the active epoch: its base LBA and its data blocks. -/
def Dev.extentOf (d : Dev) (pool m : Nat) : Nat × Nat :=
  match d.pool pool with
  | none => (0, 0)
  | some c => match c.extent m with
    | none => (0, 0)
    | some e => (e.base, c.extentBlocks e)

/-- The LBAs of a run of data blocks on a member: the first, and how many. In tag-sector mode a read takes the tag blocks within the run, and
the one next to its end (R303); a write of data blocks names them one tag group at a time. -/
def Dev.runLbas (d : Dev) (pool m block count : Nat) (read : Bool) : Nat × Nat :=
  let (base, n) := d.extentOf pool m
  let ts := d.tagSect m
  let lo := lbaOfBlock ts base block
  let hi := lbaOfBlock ts base (block + count - 1)
  let next := ts && read && ((block + count) % 255 == 0 || block + count == n)
  (lo, hi + 1 - lo + (if next then 1 else 0))

/-- The LBAs that a command names. -/
def Dev.cmdLbas (d : Dev) (c : MCmd) : Nat × Nat :=
  match c.kind with
  | .read | .plinthRead => d.runLbas c.pool c.member c.block c.count true
  | .write => d.runLbas c.pool c.member c.block c.count false
  | .tagRead | .tagWrite =>
    let (base, n) := d.extentOf c.pool c.member
    (lbaOfTagBlock base n c.block, 1)
  | .zeroes | .label => (c.block, c.count)
  | _ => (0, 0)

/-- Sillage commands outstanding at a member. -/
def Dev.silOut (d : Dev) (m : Nat) : Nat := (d.mcmds.filter fun c => c.member == m && c.sillage && c.phase == .outstanding).length

/-- Accounts the time since the count of a member's outstanding sillage commands last changed (R263). -/
def Dev.silAccount (d : Dev) (m : Nat) : Dev :=
  let n := d.silOut m
  d.updMbr m fun x =>
    let t := d.now - x.silSinceUs
    { x with silSinceUs := d.now, silBusyUs := x.silBusyUs + (if n = 0 then 0 else t), silSumUs := x.silSumUs + n * t }

/-- The most LBAs that one command moves to or from a member: its controller's MDTS (R587), or the 65,536 of a 16-bit block count. -/
def Dev.mdts (d : Dev) (m : Nat) : Nat :=
  match d.disc.find? fun x => x.status == 0 && x.member == m with
  | some x => if x.mdts = 0 then 65536 else x.mdts
  | none => 65536

/-- Cuts a run of data blocks of a member's extent into the runs that one command each moves (R587): as many as MDTS allows, the tag blocks
that a read takes with them included; a write in tag-sector mode stops before each tag block (R300, R304). -/
def Dev.cutRun (d : Dev) (m : Nat) (write : Bool) : Nat → Nat → Nat → List (Nat × Nat)
  | 0, _, _ => []
  | fuel + 1, b, n =>
    let top := d.mdts m
    let most := max 1 (if d.tagSect m then top - top / 255 - 2 else top)
    let len := min n (if write && d.tagSect m then min most (255 - b % 255) else most)
    if n = 0 then [] else (b, len) :: Dev.cutRun d m write fuel (b + len) (n - len)

/-- The controller that serves a member, by the first namespace discovered through it: namespaces reached by one link and one path of switch
ports share it, and its queue pair (R577, R585). -/
def Dev.ctlOf (d : Dev) (m : Nat) : Option Nat :=
  match d.disc.find? fun x => x.status == 0 && x.member == m with
  | some x => (d.disc.zipIdx.find? fun y => y.1.link == x.link && y.1.ports == x.ports).map (·.2)
  | none => none

/-- I/O commands that a controller has in its queue pair. -/
def Dev.inRing (d : Dev) (k : Nat) : Nat :=
  (d.mcmds.filter fun c => c.kind.isIo && (c.phase == .outstanding || c.phase == .held) && d.ctlOf c.member == some k).length

/-- Whether the ring of a member's controller has a free entry: 256 entries, of which one stays empty (table 13-3, R587). -/
def Dev.ringFree (d : Dev) (m : Nat) : Bool :=
  match d.ctlOf m with
  | some k => decide (d.inRing k < 255)
  | none => true

/-- The tail of a member's submission ring moves past one entry (R587). -/
def Dev.ringPut (d : Dev) (m : Nat) : Dev :=
  match d.ctlOf m with
  | some k => { d with mport := { d.mport with sqTails := AMap.put d.mport.sqTails k (((AMap.get d.mport.sqTails k).getD 0 + 1) % 256) } }
  | none => d

/-- Issues one waiting command, if its member's limit and its controller's ring allow and its state lets the device send it I/O (table 6-1, R592). -/
def Dev.issueOne (d : Dev) (id : Nat) : Dev :=
  match d.mcmd id with
  | none => d
  | some c =>
    if c.phase == .waiting && !(d.mbr c.member).awaitId &&
        (!c.kind.isIo || ((d.mbr c.member).resetting == 0 && (c.kind == .label || (d.mbr c.member).st.active))) &&
        (!c.kind.isIo || (decide (d.queueDepth c.member < d.qdLimit c.member) && d.ringFree c.member)) && !d.tagBusy c then
      let d := if c.kind.isIo then d.ringPut c.member else d
      let d := if c.sillage then d.silAccount c.member else d
      let (lba, n) := d.cmdLbas c
      let c' := { c with phase := .outstanding, submitUs := d.now, lba := lba, lbas := n }
      Dev.emit { d with mcmds := updWhere (·.id = id) (fun _ => c') d.mcmds } (.member c')
    else d

/-- Issues the waiting commands of a member, and of the members that share its controller, oldest first, as far as the limits allow (R586). -/
def Dev.pump (d : Dev) (m : Nat) : Dev :=
  let near := fun (c : MCmd) => c.member == m || ((d.ctlOf m).isSome && d.ctlOf c.member == d.ctlOf m)
  (d.mcmds.filter fun c => c.phase == .waiting && near c).foldl (fun (d : Dev) c => d.issueOne c.id) d

/-- Submits a member command: its identifier, and the state with it waiting or issued. -/
def Dev.submit (d : Dev) (mk : Nat → MCmd) : Nat × Dev :=
  let (id, d) := d.fresh
  (id, Dev.issueOne { d with mcmds := d.mcmds ++ [mk id] } id)

/-- Whether the tag block of a read's last group neither lies in its run nor next to it, so that a further command reads it (R303). -/
def Dev.needsPair (d : Dev) (c : MCmd) : Bool :=
  d.tagSect c.member && (c.block + c.count) % 255 != 0 && c.block + c.count != (d.extentOf c.pool c.member).2

/-- Submits a member read, with the further command for a tag block that it needs. -/
def Dev.submitRead (d : Dev) (mk : Nat → MCmd) : Nat × Dev :=
  let (id, d) := d.submit mk
  match d.mcmd id with
  | none => (id, d)
  | some c =>
    if d.needsPair c then
      let (t, d) := d.submit (MCmd.new c.member .tagRead c.user c.pool c.stripe ((c.block + c.count - 1) / 255) 1 c.spare [] [] c.sillage)
      let note := fun (x : MCmd) => { x with pair := some t }
      (id, { d with mcmds := updWhere (fun (x : MCmd) => x.id == id) note d.mcmds })
    else (id, d)

/-- Removes a member command whose identifier is released, and lets the next one go. -/
def Dev.release (d : Dev) (c : MCmd) : Dev :=
  let d := if c.sillage then d.silAccount c.member else d
  Dev.pump { d with mcmds := d.mcmds.filter (·.id ≠ c.id) } c.member

/-- Region size of a new dirty-region log: the larger of 2^REGION_LOG2 bytes and the smallest power of two whose
262,144 regions hold the member's capacity (R278). -/
def Dev.drlLog2 (d : Dev) (m : Nat) : Nat :=
  let cap := match d.memberTable[m]? with | some a => a.capacity | none => 0
  let need := ((List.range 48).find? fun l => decide (cap * 4096 ≤ 262144 * 2 ^ l)).getD 48
  max (d.gClamp Reg.SIL_DRL_CFG_REGION_LOG2 26 34) need

/-- Gives a member with a new departure mark its dirty-region log, while fewer than 256 are held (R278, R281). -/
def Dev.drlOpen (d : Dev) (m : Nat) : Dev :=
  if (d.mbr m).drl.isSome then d
  else if 256 ≤ (d.mbrs.filter (·.drl.isSome)).length then d.p Reg.SIL_STATUS_DRL_FULL 1
  else
    let lg := d.drlLog2 m
    d.updMbr m fun x => { x with drl := some ⟨lg, []⟩ }

/-- Sets the dirty-region bits of blocks a member was not written with (R279): LBAs `lba … lba + n - 1`. -/
def Dev.drlSet (d : Dev) (m lba n : Nat) : Dev :=
  match (d.mbr m).drl with
  | none => d
  | some g =>
    let per := 2 ^ (g.regionLog2 - 12)
    let i0 := lba / per
    let i1 := (lba + n - 1) / per
    let new := ((List.range (i1 + 1 - i0)).map (i0 + ·)).filter fun i => !g.bits.contains i
    if n = 0 || new.isEmpty then d
    else (d.updMbr m fun x => { x with drl := some { g with bits := g.bits ++ new } }).emit (.vault "DRL" m)

/-- LBA of a data block of a pool's extent on a member, by the active epoch. -/
def Dev.blockLba (d : Dev) (pool m b : Nat) : Nat := lbaOfBlock (d.tagSect m) (d.extentOf pool m).1 b

/-- Records a block a member missed, by its place in the pool's extent (R279). -/
def Dev.missed (d : Dev) (pool m b : Nat) : Dev := d.drlSet m (d.blockLba pool m b) 1

/-- Runs of consecutive numbers in a rising list: (first, length). -/
def runsOf : List Nat → List (Nat × Nat)
  | [] => []
  | x :: xs =>
    match runsOf xs with
    | [] => [(x, 1)]
    | (y, n) :: rest => if y = x + 1 then (x, n + 1) :: rest else (x, 1) :: (y, n) :: rest

end Sys2Proof.Machine
end

