-- ==== Sys2Proof/Machine/FabricOps.lean ====
section
/-!
DEFINITION. Shared operations on the codec fabric (chapter 8): which clusters are in service, the choice of a cluster for an
item (R109, R339, R375), power of regions and dies (R371, R372), the ELB with its tree pseudo-LRU (R352 to R358).
-/
namespace Sys2Proof.Machine

/-- Region of a cluster and die of a region (R32). -/
def regionOf (cluster : Nat) : Nat := cluster / 4
/-- Die of a region (R32). -/
def dieOf (region : Nat) : Nat := region / 4

/-- Whether a block reset covers a region or a block of it. -/
def BlockReset.touches (b : BlockReset) (r : Nat) : Bool :=
  match b.level with
  | 0 => b.target / 32 == r
  | 1 => b.target / 4 == r
  | 2 => b.target == r
  | _ => b.target == r / 4

/-- Whether a block reset of a region, of its die or of a block of it is asked for or in progress: the region does not power down (R45). -/
def Dev.regionInReset (d : Dev) (r : Nat) : Bool := d.rst.blocks.any fun b => b.touches r

/-- Region `r`. -/
def Dev.region (d : Dev) (r : Nat) : Region := d.fab.regions.getD r ⟨.off, [], [], [], [], 0, 0, 0, 0, 0, 0, false⟩
/-- Region `r` changed. -/
def Dev.updRegion (d : Dev) (r : Nat) (f : Region → Region) : Dev :=
  { d with fab := { d.fab with regions := updAt r f d.fab.regions } }
/-- Cluster `c`. -/
def Dev.cluster (d : Dev) (c : Nat) : Cluster := d.fab.clusters.getD c ⟨true, 0, 15⟩
/-- Cluster `c` changed. -/
def Dev.updCluster (d : Dev) (c : Nat) (f : Cluster → Cluster) : Dev :=
  { d with fab := { d.fab with clusters := updAt c f d.fab.clusters } }

/-- A cluster wakes: its clock is no longer gated (R368). -/
def Dev.wakeCluster (d : Dev) (c : Nat) : Dev := d.updCluster c fun x => { x with gated := false }

/-- Global units of a cluster in service, ascending. -/
def Dev.unitsIn (d : Dev) (c : Nat) : List Nat :=
  ((List.range 8).map (c * 8 + ·)).filter fun u => !d.fab.retired.contains u

/-- Whether a cluster is in service: a unit in service, not in reset, its die not offline (R339). -/
def Dev.inService (d : Dev) (c : Nat) : Bool :=
  !(d.unitsIn c).isEmpty && !d.fab.inReset.contains c && !d.fab.offline.contains (dieOf (regionOf c))

/-- Channels of a cluster that are not IDLE. -/
def Dev.busyChannels (d : Dev) (c : Nat) : Nat :=
  ((List.range 16).filter fun i => d.gi Reg.CHN_STATUS_STATE (c * 16 + i) != 0).length

/-- Of some clusters, the one in service with the fewest busy channels, a tie going to the lower (R109, R110). -/
def Dev.leastBusy (d : Dev) (cs : List Nat) : Option Nat :=
  ((cs.filter d.inService).foldl (fun (b : Option (Nat × Nat)) c =>
    let n := d.busyChannels c
    match b with
    | none => some (n, c)
    | some x => if n < x.1 then some (n, c) else some x) none).map (·.2)

/-- The cluster of an internal item of a pool (R109, R339). -/
def Dev.itemCluster (d : Dev) (pool : Nat) : Option Nat :=
  match d.pool pool with
  | none => d.leastBusy (List.range 32)
  | some c =>
    if d.inService c.primary then some c.primary
    else match d.leastBusy ((List.range 32).filter fun i => c.clusters.getLsbD i) with
      | some x => some x
      | none => d.leastBusy (List.range 32)

/-- The cluster of a CWQ entry: its route, or, for 0xFF or a cluster out of service, the least busy (R110, R339). -/
def Dev.routeCluster (d : Dev) (route : Nat) : Option Nat :=
  if route < 32 ∧ d.inService route then some route else d.leastBusy (List.range 32)

/-- Operations that wait for a channel of a cluster. -/
def Dev.itemsWaiting (d : Dev) (c : Nat) : Nat :=
  (d.ops.filter fun o => o.phase == .waitChannel && o.cluster == c).length

/-- Whether a region is powered. -/
def Dev.powered (d : Dev) (r : Nat) : Bool := (d.region r).power == .on

/-- Whether a region is in FAB_WATCH.MASK. -/
def Dev.watched (d : Dev) (r : Nat) : Bool := (d.g Reg.FAB_WATCH_MASK).testBit r

/-- Sets bit `i` of a register field. -/
def Dev.pBit (d : Dev) (f : Fld) (i : Nat) (b : Bool) : Dev :=
  let v := d.g f
  d.p f (if b then v ||| 2 ^ i else v - (v &&& 2 ^ i))

/-- The package's power state: the lower-numbered of its controllers' (R517). -/
def Dev.pkgState (d : Dev) : Nat := min d.ctlA.pstate d.ctlB.pstate

/-- The limit on powered regions in force (tables 11-8 and 17-5). -/
def Dev.regionLimit (d : Dev) : Nat :=
  let byLevel := match d.g Reg.CPM_STATUS_LEVEL with | 0 => 8 | 1 => 4 | 2 => 2 | _ => 1
  let byState := match d.pkgState with | 0 => 8 | 1 => 4 | 2 => 2 | _ => 0
  min byLevel byState

/-- The regions that stay powered under the limit: watch regions first, then powered ones, ascending (R725). -/
def Dev.keptRegions (d : Dev) : List Nat :=
  (((List.range 8).filter d.watched ++ (List.range 8).filter d.powered).eraseDups).take d.regionLimit

/-- Whether a region may take new work and power under the limit (R725); CRITICAL work in a non-operational state draws up to
PS2 (R518). -/
def Dev.regionAllowed (d : Dev) (r : Nat) : Bool :=
  d.keptRegions.contains r || decide (d.keptRegions.length < d.regionLimit) || d.regionLimit == 0

/-- Starts the power-up of a region that is off (R371), with its die's PLL where that has stopped (R372). -/
def Dev.wakeRegion (d : Dev) (r : Nat) (forRead : Bool) : Dev :=
  match (d.region r).power with
  | .off =>
    let die := dieOf r
    let d := d.updRegion r fun x => { x with power := .up, forRead := forRead }
    if d.fab.pll.getD die false || d.fab.pllLocking.contains die then d
    else { d with fab := { d.fab with pllLocking := die :: d.fab.pllLocking } }
  | _ => d

/-- Whether a dump, or the wait for an in-place resume, is in progress (table 15-6, R671). -/
def Dev.dumpHeld (d : Dev) : Bool := d.on Reg.VLT_STATUS_DUMPING || d.vlt.dumpDone

/-- Whether R374 allows a watch region to be powered: it is in the mask, not in reset, with a cluster in service, within the limit, the
package is operational, and no dump or wait for a resume is in progress. -/
def Dev.watchMay (d : Dev) (r : Nat) : Bool :=
  d.watched r && d.keptRegions.contains r && decide (d.pkgState < 3) && !d.dumpHeld && !d.regionInReset r &&
  (List.range 4).any fun i => d.inService (4 * r + i)

/-- The watch regions that R374 allows to be powered power up (R371). -/
def Dev.watchUp (d : Dev) : Dev :=
  ((List.range 8).filter d.watched).foldl (fun (d : Dev) r => if d.watchMay r then d.wakeRegion r false else d) d

/-- The cluster an item goes to under a region limit (R725): its own, or a permitted powered one in the order of R375. -/
def Dev.limitCluster (d : Dev) (mask : BitVec 32) (c : Nat) : Nat :=
  if d.powered (regionOf c) || d.regionAllowed (regionOf c) then c
  else
    let cands := (List.range 32).filter fun x => d.inService x && d.powered (regionOf x) && d.keptRegions.contains (regionOf x)
    let key := fun (x : Nat) => (if mask.getLsbD x then 0 else 10000) + d.itemsWaiting x
    (cands.foldl (fun (b : Option Nat) x => match b with
      | none => some x
      | some y => if key x < key y then some x else some y) none).getD c

/-- The cluster a degraded read goes to (R375). -/
def Dev.readCluster (d : Dev) (pool : Nat) : Option Nat :=
  match d.itemCluster pool with
  | none => none
  | some b =>
    if d.powered (regionOf b) then some b
    else
      let mask := match d.pool pool with | some c => c.clusters | none => 0
      let cands := (List.range 32).filter fun c => d.inService c && d.powered (regionOf c) && d.watched (regionOf c)
      let better := fun (x y : Nat) =>
        let kx := (if mask.getLsbD x then 0 else 1, d.itemsWaiting x)
        let ky := (if mask.getLsbD y then 0 else 1, d.itemsWaiting y)
        decide (kx.1 < ky.1 ∨ (kx.1 = ky.1 ∧ kx.2 < ky.2))
      some ((cands.foldl (fun (best : Option Nat) c => match best with
        | none => some c
        | some x => if better c x then some c else some x) none).getD b)

/-! ### The ELB (R351 to R358) -/

/-- Nodes and directions of the path to entry `e` in the tree (function touch of R357). -/
def treePath (e : Nat) : List (Nat × Bool) :=
  ((List.range 6).foldl (fun (acc : List (Nat × Bool) × Nat) l =>
    let b := e.testBit (5 - l)
    (acc.1 ++ [(acc.2, b)], 2 * acc.2 + 1 + (if b then 1 else 0))) (([] : List (Nat × Bool)), 0)).1

/-- Function touch of R357 on the list of tree bits that are 1: each node of the path points away from the entry. -/
def touchTree (tree : List Nat) (e : Nat) : List Nat :=
  (treePath e).foldl (fun t nb => if nb.2 then t.filter (· ≠ nb.1) else if t.contains nb.1 then t else nb.1 :: t) tree

/-- Function victim of R357. -/
def victimOf (tree : List Nat) : Nat :=
  ((List.range 6).foldl (fun (xe : Nat × Nat) _ =>
    let b := if tree.contains xe.1 then 1 else 0
    (2 * xe.1 + 1 + b, 2 * xe.2 + b)) (0, 0)).2

/-- The entry an install takes: the lowest invalid one, or the victim (R357). -/
def Region.slotFor (r : Region) : Nat :=
  ((List.range 64).find? fun e => (AMap.get r.elb e).isNone).getD (victimOf r.tree)

/-- Installs a record (R357). -/
def Region.install (r : Region) (x : ElbEntry) : Region :=
  let e := r.slotFor
  { r with elb := AMap.put r.elb e x, tree := touchTree r.tree e }

/-- HBM address of the line of the resolved-row table that holds a key's record: in the metadata area, where the spec does not say. -/
def Dev.rowLineAddr (d : Dev) (k : RowKey) : Nat := d.metadataBase + 64 * Config.rowLine k.pool k.group k.epoch k.segment

/-- An entry whose data parity fails on a hit is invalid from then on, and counts (R366). -/
def Dev.elbDrop (d : Dev) (r : Nat) (k : RowKey) : Dev :=
  if (d.region r).elb.any (·.2.key = k) then
    d.updRegion r fun x => { x with elb := x.elb.filter (·.2.key ≠ k), dataErrs := min (x.dataErrs + 1) 0xFFFF }
  else d

/-- One lookup by operation `op` (R352, R353): hit, or a fill issued, joined or waited for. Answers whether it hit. -/
def Dev.elbLookup (d : Dev) (r op : Nat) (k : RowKey) : Bool × Dev :=
  let reg := d.region r
  match reg.elb.find? (·.2.key = k) with
  | some (e, _) =>
    (true, d.updRegion r fun x => { x with tree := touchTree x.tree e, hits := (x.hits + 1) % 2 ^ 64 })
  | none =>
    let d := d.updRegion r fun x => { x with misses := (x.misses + 1) % 2 ^ 64 }
    if reg.fills.any (·.key = k) then
      (false, d.updRegion r fun x => { x with fills := updWhere (·.key = k) (fun f => { f with waiters := f.waiters ++ [op] }) x.fills })
    else if reg.fills.length < 16 then
      (false, d.updRegion r fun x => { x with fills := x.fills ++ [Fill.mk k false [op] false] })
    else (false, d.updRegion r fun x => { x with fillWait := x.fillWait ++ [(op, k)] })

/-- Looks up every segment of an operation's row; answers whether all hit. The entries of the keys `errs` fail their data parity. -/
def Dev.elbLookupAll (d : Dev) (r op : Nat) (ks errs : List RowKey) : Bool × Dev :=
  ks.foldl (fun (acc : Bool × Dev) k =>
    let (h, d') := (if errs.contains k then acc.2.elbDrop r k else acc.2).elbLookup r op k
    (acc.1 && h, d')) (true, d)

/-- Whether an operation still waits for a fill of a region. -/
def Region.awaits (r : Region) (op : Nat) : Bool :=
  r.fills.any (fun f => f.waiters.contains op) || r.fillWait.any (·.1 = op)

/-! ### Writes of resolved rows (R123, R359 to R361) -/

/-- The line of an epoch's resolved-row table that holds a position. -/
def rowLine (pool group epoch pos : Nat) : RowKey := ⟨pool, group, epoch, pos / 24⟩

/-- The lines, in every live epoch and the maquette, whose rows place a member (R123). -/
def Dev.linesOfMember (d : Dev) (m : Nat) : List RowKey :=
  (d.rowArms.flatMap fun a => a.poolNums.flatMap fun p => match a.pool p with
    | none => []
    | some c => c.rows.zipIdx.flatMap fun r =>
      (r.1.zipIdx.filter (·.1 = m)).map fun x => rowLine p r.2 a.epoch x.2).eraseDups

/-- Every line of an epoch's rows. -/
def Armature.lines (a : Armature) : List RowKey :=
  a.poolNums.flatMap fun p => match a.pool p with
    | none => []
    | some c => c.rows.zipIdx.flatMap fun r => (List.range (rowSegments c.code.width)).map fun n => ⟨p, r.2, a.epoch, n⟩

/-- Whether an uncorrectable line that a stripe needs is being rebuilt (table 4-4): one of its resolved row, or one of the exception table
that names its pool. -/
def Dev.stripeHeld (d : Dev) (pool s epoch : Nat) : Bool :=
  let group := match (d.rowArms.find? fun a => a.epoch == epoch).bind fun a => a.pool pool with
    | some c => c.group s
    | none => 0
  (d.fab.rowWrites.any fun w => match w.act with
    | .rebuilt k => k.pool == pool && k.group == group && k.epoch == epoch
    | _ => false) ||
  d.arm.fixes.any fun f => f.keys.any fun k => k.1 == pool

/-- Writes lines of the resolved-row table: a snoop of each goes to every powered region (R359), and `act` waits until all of them have
acknowledged (R361). With no line or no powered region the write is globally visible at once, and `act` is due. -/
def Dev.writeRows (d : Dev) (ks : List RowKey) (act : RowAct) : Dev :=
  let rs := (List.range 8).filter d.powered
  let left := ks.flatMap fun k => rs.map fun r => (k, r)
  if left.isEmpty && act == .none then d
  else { d with fab := { d.fab with rowWrites := d.fab.rowWrites ++ [RowWrite.mk left act] } }

/-- A region acknowledges the snoop of a line: the oldest write of it that waits for the region (R360). -/
def Dev.rowAck (d : Dev) (r : Nat) (k : RowKey) : Dev :=
  let rec ack : List RowWrite → List RowWrite
    | [] => []
    | w :: ws => if w.left.contains (k, r) then { w with left := w.left.erase (k, r) } :: ws else w :: ack ws
  let done := fun (w : RowWrite) => !(w.left.isEmpty && w.act == .none)
  { d with fab := { d.fab with rowWrites := (ack d.fab.rowWrites).filter done } }

/-- A region that loses its ELB acknowledges nothing more: no write waits for it. -/
def Dev.rowForget (d : Dev) (r : Nat) : Dev :=
  let drop := fun (w : RowWrite) => { w with left := w.left.filter (·.2 ≠ r) }
  let keep := fun (w : RowWrite) => !(w.left.isEmpty && w.act == .none)
  { d with fab := { d.fab with rowWrites := (d.fab.rowWrites.map drop).filter keep } }

/-- The statistics of the region FAB_SEL names, as their registers show them (R378's read views). -/
def Dev.selRegion (d : Dev) : Region := d.region (d.g Reg.FAB_SEL_REGION)

/-- Staging blocks of a cluster: 4 MiB of 4 KiB blocks (table 1-2). -/
def stagingBlocks : Nat := 1024

/-- Marks an internal channel busy or idle. -/
def Dev.setChannel (d : Dev) (ch : Nat) (busy : Bool) : Dev :=
  if ch ≥ 512 then d
  else (d.pi Reg.CHN_STATUS_STATE ch (if busy then 1 else 0)).pi Reg.CHN_STATUS_INTERNAL ch (if busy then 1 else 0)

end Sys2Proof.Machine
end

