-- ==== Sys2Proof/Machine/HostRead.lean ====
section
/-!
DEFINITION. How the blocks of a host read reach the host: what a block means to it (R294, R297, R810), protection information (R314 to
R317), decryption (R318, R321), and the completion of the command once every block has its result.
-/
namespace Sys2Proof.Machine


/-- Whether a block is all zero. -/
def Block.isZero (b : Block) : Bool := b == 0#32768

/-- What a block read or decoded means to the host: blank, cleared and all-zero blocks read as zero (R294, R297, R810). -/
def hostBlock (b : Block) (zero : Bool) : BlkRes := if zero || Block.isZero b then .zero else .cipher b

/-- Metadata bytes of a format, and whether its guard is 64-bit (table 11-2). -/
def NsFmt.metaBytes (f : NsFmt) : Nat := if f.fmt = 1 then 8 else if f.fmt = 2 then 16 else if f.fmt = 0 then 0 else 64
/-- Whether the guard is the 64-bit one. -/
def NsFmt.wide (f : NsFmt) : Bool := f.fmt == 2 || f.fmt == 4
/-- Bytes of the PI field of a format. -/
def NsFmt.piBytes (f : NsFmt) : Nat := if f.wide then 16 else 8

/-- The guard, tag checks and data of one block returned to the host, and the failing field where PRCHK finds a
mismatch (R314, R315): the application tag first where both differ (log entry 130, DESIGN CHOICE). -/
def Dev.hostPiError (d : Dev) (c : HostCmd) (i : Nat) : Option NvStatus :=
  let f := (AMap.get d.nvm.fmts c.nsid).getD ⟨0, 0, false⟩
  if f.pi = 0 ∨ (c.kind = .read ∧ c.pract ∧ f.metaBytes = f.piBytes) then none
  else
    let w := if f.fmt = 2 ∨ f.fmt = 4 then 2 ^ 48 else 2 ^ 32
    let lba := c.slba + i
    let gen := if f.pi = 1 then lba % w else if f.pi = 2 then (c.reftag + i) % w else w - 1
    let app := (AMap.get d.nvm.appTags c.nsid).getD 0
    let exp := if f.pi = 3 then gen else (c.reftag + i) % w
    if c.prchk.testBit 1 && (app &&& c.appmask != c.apptag &&& c.appmask) then some .appTagCheckError
    else if c.prchk.testBit 0 && f.pi != 3 && gen != exp then some .refTagCheckError
    else none

/-- The metadata a read returns with one block: generated PI at its place, every other byte zero (R314, R498). -/
def Dev.hostMetadata (d : Dev) (c : HostCmd) (i : Nat) (plain : Block) : List Byte :=
  let f := (AMap.get d.nvm.fmts c.nsid).getD ⟨0, 0, false⟩
  if f.metaBytes = 0 ∨ (f.pi ≠ 0 ∧ c.pract ∧ f.metaBytes = f.piBytes) then []
  else if f.pi = 0 then List.replicate f.metaBytes 0
  else
    let lba := c.slba + i
    let app := (AMap.get d.nvm.appTags c.nsid).getD 0
    let ref := fun w => if f.pi = 1 then lba % w else if f.pi = 2 then (c.reftag + i) % w else w - 1
    let beb := fun n v => (leBytes n v).reverse
    let pi := if f.wide then beb 8 (guard64 plain) ++ beb 2 app ++ beb 6 (ref (2 ^ 48))
      else beb 2 (guard16 plain) ++ beb 2 app ++ beb 4 (ref (2 ^ 32))
    let rest := List.replicate (f.metaBytes - pi.length) 0
    if f.piFirst then pi ++ rest else rest ++ pi

/-- The key of a namespace: that of its one ACTIVE slot (R322). -/
def Dev.nsKey (d : Dev) (nsid : Nat) : BitVec 512 :=
  match d.keys.slots.find? fun s => s.nsid == nsid && s.st == .active with
  | some s => s.key
  | none => 0

/-- Counts a PI failure (table 7-14). -/
def Dev.countPi (d : Dev) (st : NvStatus) : Dev :=
  match st with
  | .guardCheckError => d.inc Reg.ITG_PI_ERRS_GUARD
  | .appTagCheckError => d.inc Reg.ITG_PI_ERRS_APP
  | .refTagCheckError => d.inc Reg.ITG_PI_ERRS_REF
  | _ => d

/-- A PI failure on a read: counted, and logged as an internal fault (R317). -/
def Dev.readPiFailed (d : Dev) (st : NvStatus) (nsid lba : Nat) : Dev :=
  let d := ((d.countPi st).p Reg.ITG_STATUS_PI_ERR_SEEN 1).event 0x0501 3 (leBytes 4 nsid ++ leBytes 8 lba)
  { d with nvm := { d.nvm with mediaErrors := d.nvm.mediaErrors + 1 } }

/-- A mismatch of the two copies of an AES-XTS engine is logged (R318). -/
def Dev.xtsMismatch (d : Dev) (nsid lba : Nat) : Dev := d.event 0x0502 3 (leBytes 4 nsid ++ leBytes 8 lba)

/-- Whether a block of a host read is decrypted (R321). -/
def BlkRes.isCipher : BlkRes → Bool
  | .cipher _ => true
  | _ => false

/-- Returns the blocks of a host read and completes it, once every block has its result (R260, R314, R317, R318). -/
def Dev.hostReadDone (d : Dev) (cmd : Nat) : Dev :=
  match d.cmd cmd with
  | none => d
  | some c =>
    if c.got.length < c.nlb then d
    else
      let at_ := fun i => (c.got.find? (·.1 = c.slba + i)).map (·.2)
      match (List.range c.nlb).find? fun i => at_ i == some .lost with
      | some i => d.finish cmd .unrecoveredReadError (c.slba + i)
      | none =>
        match (List.range c.nlb).find? fun i => c.xtsFaults.contains i && ((at_ i).map BlkRes.isCipher).getD false with
        | some i => (d.xtsMismatch c.nsid (c.slba + i)).finish cmd .dataTransferError 0
        | none =>
        match (List.range c.nlb).find? fun i => (d.hostPiError c i).isSome with
        | some i =>
          let st := (d.hostPiError c i).getD .refTagCheckError
          (d.readPiFailed st c.nsid (c.slba + i)).finish cmd st (c.slba + i)
        | none =>
          let key := d.nsKey c.nsid
          let d : Dev := if c.kind == HKind.verify || c.detached then d else
            (List.range c.nlb).foldl (fun (d : Dev) i =>
              let plain := match at_ i with
                | some (.cipher b) => (xts key (c.slba + i)).symm b
                | _ => 0#32768
              let d := d.emit (.hostData c.portB (d.relaxed c.portB 0) c.sq c.cid (c.slba + i) plain)
              match d.hostMetadata c i plain with
              | [] => d
              | md => d.emit (.hostMeta c.portB (d.relaxed c.portB 0) c.sq c.cid (c.slba + i) md)) d
          let d := { d with nvm := { d.nvm with blocksRead := d.nvm.blocksRead + (if c.kind == HKind.verify then 0 else c.nlb) } }
          d.finish cmd .success 0

/-- One block of a host read gets its result; a block that already has one keeps it (R256). -/
def Dev.deliver (d : Dev) (cmd lba : Nat) (res : BlkRes) : Dev :=
  let d := d.updCmd cmd fun c =>
    if c.got.any (·.1 = lba) then c else { c with got := c.got ++ [(lba, res)] }
  d.hostReadDone cmd

end Sys2Proof.Machine
end

