-- ==== Sys2Proof/Machine/Engine.lean ====
section
/-!
DEFINITION. The operations the IOD runs over stripes: destages (R214 to R222), degraded reads (R255 to R260), relocations,
fills and resynchronisation (R267 to R286), scrubs and repairs (R271 to R277, R333). One operation advances row by row:
the reads a row needs, what they answer, the blocks computed, and the member writes. Machine/Start.lean starts operations,
Machine/IoDone.lean follows the member commands.
-/
namespace Sys2Proof.Machine

/-! ### Epochs and rows -/

/-- The armature of an epoch that an operation or command has taken (R141); the active one before it has taken any. -/
def Dev.armOf (d : Dev) (e : Nat) : Option Armature :=
  match d.epochArm e with
  | some a => some a
  | none => d.arm.active

/-- The pool of a number in an epoch. -/
def Dev.poolOf (d : Dev) (e p : Nat) : Option PoolCfg :=
  match d.armOf e with
  | some a => a.pool p
  | none => none

/-- The pool of an operation in its epoch. -/
def Dev.opPool (d : Dev) (o : Op) : Option PoolCfg := d.poolOf o.epoch o.pool

/-- What the namespaces of an epoch say of a data block of a stripe: its namespace and LBA (R112). Every copy of a MIRROR stripe holds the
blocks of its one data fragment. -/
def Dev.blockOwner (d : Dev) (e : Nat) (c : PoolCfg) (pool s f row : Nat) : Option (Nat × Nat) :=
  let j := if c.code.family = .mirror then 0 else f
  match d.armOf e with
  | none => none
  | some a => (a.namespaces.find? fun n => n.pool == pool && decide (n.first ≤ s ∧ s < n.first + n.count)).map fun n =>
      (n.nsid, (s - n.first) * c.stripeBlocks + j * c.fragBlocks + row)

/-- Row `row` of an operation. -/
def Op.row (o : Op) (row : Nat) : Option RowWork := o.rows.find? (·.row = row)
/-- A row of an operation changed. -/
def Dev.updRow (d : Dev) (oid row : Nat) (f : RowWork → RowWork) : Dev :=
  d.updOp oid fun o => { o with rows := updWhere (·.row = row) f o.rows }

/-- A row with nothing read yet. -/
def freshRow (row : Nat) (m : Method) (changed : List (Nat × Option Block)) (want : List Nat) : RowWork :=
  ⟨row, m, changed, want, [], [], [], [], false, false, 0, false⟩

/-- Rows of a stripe with one method and the fragments wanted. -/
def allRows (c : PoolCfg) (m : Method) (want : List Nat) : List RowWork :=
  (List.range c.fragBlocks).map fun row => freshRow row m [] want

/-- Data fragments of a row that a destage does not change. -/
def RowWork.unchanged (r : RowWork) (c : Code) : List Nat :=
  (List.range c.k).filter fun j => !r.changed.any (·.1 = j)

/-- Whether a fragment can be read for a row, or has been: it resolves readable and has not failed there. -/
def Dev.rowReadable (d : Dev) (c : PoolCfg) (o : Op) (r : RowWork) (f : Nat) : Bool :=
  r.got.any (·.frag = f) || (!r.bad.contains f && d.fragAvailable c o.pool o.stripe true f)

/-- Whether a decode of a row may use a fragment (R82, R93, R257): one read good in the row is used again; one that has failed in the
operation is not selected. -/
def Dev.rowAvail (d : Dev) (c : PoolCfg) (o : Op) (r : RowWork) (pass2 : Bool) (f : Nat) : Bool :=
  r.got.any (·.frag = f) ||
  (!r.bad.contains f && !o.failed.contains f && d.fragAvailable c o.pool o.stripe pass2 f)

/-- The copy of a MIRROR stripe that an operation reads: the one it selected first, while that is available, or the choice of R88. -/
def Dev.opCopy (d : Dev) (c : PoolCfg) (o : Op) (av : Nat → Bool) : Option Nat :=
  match o.copy with
  | some f => if av f then some f else d.mirrorPick c o.pool o.stripe av
  | none => d.mirrorPick c o.pool o.stripe av

/-- The decode plan of fragments of a row, in the two passes of R257. -/
def Dev.rowPlan (d : Dev) (c : PoolCfg) (o : Op) (r : RowWork) (want : List Nat) : Option DecodePlan :=
  let av := fun p f => !want.contains f && d.rowAvail c o r p f
  let plan := fun p => c.code.decodePlan (av p) (d.opCopy c o (av p)) want
  match plan false with
  | some x => some x
  | none => plan true

/-- Whether the fragments of a row that can be read determine its data (R81). -/
def Dev.rowRecoverable (d : Dev) (c : PoolCfg) (o : Op) (r : RowWork) : Bool :=
  (List.range c.code.width).all (d.rowReadable c o r) || c.code.recoverable (d.rowReadable c o r)

/-- Parity fragments the delta method updates (R216). -/
def deltaParities (c : Code) (changed : List Nat) : List Nat :=
  match c.family with
  | .rs8 | .rs16 => (List.range c.m).map (c.k + ·)
  | .lrc8 => ((changed.map c.groupOf).eraseDups.map (c.k + ·)) ++ (List.range c.r).map (c.k + c.g + ·)
  | .mirror => []

/-- One readable anchor of the row at a position other than those wanted, where the plan reads none (R807). -/
def Dev.extraAnchor (d : Dev) (c : PoolCfg) (o : Op) (r : RowWork) (reads : List Nat) : List Nat :=
  if reads.any c.code.isAnchor then []
  else ((c.code.anchors.filter fun f => !r.want.contains f && d.rowAvail c o r true f).take 1)

/-- Whether an operation writes the blocks it reconstructs with the row generation (R807). -/
def OpKind.writesRow : OpKind → Bool
  | .relocate | .resync _ | .fill _ | .unrecRepair => true
  | _ => false

/-- Whether the resynchronisation of a member has reached its copy-back pass (R283). -/
def Dev.copyingBack (d : Dev) (m : Nat) : Bool := d.sil.resync.any fun x => x.member == m && x.copyBack

/-- Whether a row of resynchronisation belongs to a data slot of member `m` whose generation tells if it missed a write: no
exception holds the fragment, and RESYNC_DRL is clear (R283). -/
def Dev.resyncJudged (d : Dev) (o : Op) (r : RowWork) : Option Nat :=
  match o.kind with
  | .resync m =>
    if r.method == .decode && !(d.mbr m).resyncDrl && r.want.all fun f => (d.exc o.pool o.stripe f).isNone then some m else none
  | _ => none

/-- Unchanged data fragments of a row that cannot be read and that REWRITE decodes (R218). -/
def Dev.rowLost (d : Dev) (c : PoolCfg) (o : Op) (r : RowWork) : List Nat :=
  (r.unchanged c.code).filter fun j => !d.rowReadable c o r j

/-- The fragments a row's computation reads; none where it is unrecoverable. -/
def Dev.rowReads (d : Dev) (c : PoolCfg) (o : Op) (r : RowWork) : Option (List Nat) :=
  match r.method with
  | .full => some []
  | .delta => let ch := r.changed.map (·.1); some (ch ++ deltaParities c.code ch)
  | .rewrite =>
    let there := (r.unchanged c.code).filter (d.rowReadable c o r)
    let lost := d.rowLost c o r
    if lost.isEmpty then some there
    else (d.rowPlan c o r lost).map fun p => (there ++ p.reads).eraseDups
  | .decode =>
    (d.rowPlan c o r r.want).map fun p =>
      if o.kind.writesRow then p.reads ++ d.extraAnchor c o r p.reads else p.reads
  | .copy => some r.want
  | .compare => some (List.range c.code.width)

/-- Staging blocks that a row's decode reserves: the fragments selected and those reconstructed (R259). -/
def Dev.decodeNeed (d : Dev) (c : PoolCfg) (o : Op) (r : RowWork) : Nat :=
  let of_ := fun (want : List Nat) => match d.rowPlan c o r want with
    | some p => p.reads.length + want.length
    | none => 0
  match r.method with
  | .decode => of_ r.want
  | .rewrite => if (d.rowLost c o r).isEmpty then 0 else of_ (d.rowLost c o r)
  | _ => 0

/-- The generation of a row (R226), where an anchor has been read; blank anchors stand at generation 0. -/
def RowWork.generation (r : RowWork) (c : Code) : Option Nat :=
  let as := r.got.filter fun g => c.isAnchor g.frag && !r.want.contains g.frag
  match as.find? fun g => !g.blank with
  | some g => some g.gen
  | none => if as.isEmpty then none else some 0

/-- Whether resynchronisation skips a row: its generation is not later than the departure mark less the header slots (R283). -/
def Dev.resyncSkips (d : Dev) (c : PoolCfg) (o : Op) (r : RowWork) : Bool :=
  match d.resyncJudged o r, r.generation c.code with
  | some m, some g =>
    !genLater g (genOf ((d.mbr m).mark.getD 0 + (2 ^ 64 - d.g Reg.JNL_HDR_SLOTS_COUNT)))
  | _, _ => false

/-- The fragments a row must read next: an anchor that judges a row of resynchronisation comes first (R283). -/
def Dev.rowNeeds (d : Dev) (c : PoolCfg) (o : Op) (r : RowWork) : Option (List Nat) :=
  let probe := if (d.resyncJudged o r).isSome && (r.generation c.code).isNone then d.extraAnchor c o r [] else []
  if !probe.isEmpty then some probe
  else if d.resyncSkips c o r then some []
  else d.rowReads c o r

/-- The block of a fragment that a row has read. -/
def RowWork.gotBlock (r : RowWork) (f : Nat) : Option GotBlock := r.got.find? (·.frag = f)

/-- Whether the anchors a row has read carry one generation, blank ones left out (check 5 of table 7-3). -/
def RowWork.anchorsAgree (r : RowWork) (c : Code) : Bool :=
  let gs := (r.got.filter fun g => c.isAnchor g.frag && !g.blank).map (·.gen)
  match gs with
  | [] => true
  | g :: rest => rest.all (· = g)

/-- The good copy with the latest generation of a MIRROR row, ties to the lowest index (R274). -/
def RowWork.latestCopy (r : RowWork) : Option GotBlock :=
  r.got.foldl (fun (b : Option GotBlock) g => match b with
    | none => some g
    | some x => if genLater g.gen x.gen || (g.gen == x.gen && decide (g.frag < x.frag)) then some g else some x) none

/-- The generation written by R807: the row's, or the low 32 bits of the head at the lock grant. -/
def Op.rowGen (o : Op) (c : Code) (r : RowWork) : Nat := (r.generation c).getD (genOf o.headAtGrant)

/-- The blocks a row reconstructs from what it has read (R78, R79). -/
def Dev.decodeRow (d : Dev) (c : PoolCfg) (o : Op) (r : RowWork) (want : List Nat) : List (Nat × Block) :=
  match d.rowPlan c o r want with
  | none => []
  | some p =>
    let bs := p.reads.map fun f => match r.gotBlock f with | some g => g.data | none => 0#32768
    p.outs.map fun fc => (fc.1, linComb c.code.family.symBits fc.2 bs)

/-- Whether a row read whole may use a fragment: it is good, and it is no anchor where the anchors disagree (R91, R227). A MIRROR row uses
its latest copy (R274). -/
def RowWork.usable (r : RowWork) (c : Code) (f : Nat) : Bool :=
  r.got.any (·.frag = f) && (c.family == .mirror || !c.isAnchor f || r.anchorsAgree c)

/-- The blocks a row reconstructs from nothing but what it has read good. -/
def RowWork.decodeGot (r : RowWork) (c : PoolCfg) (want : List Nat) : List (Nat × Block) :=
  let av := fun f => !want.contains f && r.usable c.code f
  match c.code.decodePlan av ((r.latestCopy).map (·.frag)) want with
  | none => []
  | some p =>
    let bs := p.reads.map fun f => match r.gotBlock f with | some g => g.data | none => 0#32768
    p.outs.map fun fc => (fc.1, linComb c.code.family.symBits fc.2 bs)

/-- What is left of data fragment `j` of a row: the block read, or the one its survivors give; none where it is lost. -/
def RowWork.survivor (r : RowWork) (c : PoolCfg) (j : Nat) : Option Block :=
  if c.code.family = .mirror then r.latestCopy.map (·.data)
  else match r.gotBlock j with
    | some g => some g.data
    | none => ((r.decodeGot c [j]).find? (·.1 = j)).map (·.2)

/-- The data of a row with its lost blocks taken as zero (R275). -/
def RowWork.zeroedRow (r : RowWork) (c : PoolCfg) : List Block :=
  (List.range c.code.k).map fun j => (r.survivor c j).getD 0#32768

/-- The new data block `j` of a row of a destage: changed, read, or decoded. -/
def RowWork.newData (r : RowWork) (j : Nat) : Block :=
  match r.changed.find? (·.1 = j) with
  | some (_, b) => b.getD 0#32768
  | none => match r.outs.find? (·.1 = j) with
    | some (_, b) => b
    | none => match r.gotBlock j with | some g => g.data | none => 0#32768

/-! ### Exceptions -/

/-- Writes an exception entry (R127, R268): it replaces the fragment's earlier one. Where that frees a spare slot, relocations without a
spare try again (R130). -/
def Dev.putExc (d : Dev) (e : ExcEntry) : Dev :=
  let frees := match d.exc e.pool e.stripe e.frag with
    | some x => x.member != e.member || x.spare != e.spare
    | none => false
  let d := if frees then { d with sil := { d.sil with noSpare := d.sil.noSpare.filter (·.1 ≠ e.pool) } } else d
  { d with arm := { d.arm with excs := (d.arm.excs.filter fun x =>
      !(x.pool == e.pool && x.stripe == e.stripe && x.frag == e.frag)) ++ [e] } }

/-- Clears an exception entry (R127) and lets relocations without a spare try again (R130). -/
def Dev.delExc (d : Dev) (e : ExcEntry) : Dev :=
  let d := { d with sil := { d.sil with noSpare := d.sil.noSpare.filter (·.1 ≠ e.pool) } }
  { d with arm := { d.arm with excs := d.arm.excs.filter fun x =>
      !(x.pool == e.pool && x.stripe == e.stripe && x.frag == e.frag) } }

/-- Whether a fragment's placed position is the one that an operation copies it back to (R139, R283). -/
def Dev.comesHome (d : Dev) (o : Op) (f : Nat) : Bool :=
  match o.kind, d.opPool o with
  | .resync m, some c => d.copyingBack m && (c.place o.stripe f).member == m
  | .fill _, _ => true
  | _, _ => false

/-- The valid exceptions of the fragments that an operation copies back to their placed slots. -/
def Dev.homeExcs (d : Dev) (o : Op) : List ExcEntry :=
  (o.rows.flatMap (·.want)).eraseDups.filterMap fun f => if d.comesHome o f then d.exc o.pool o.stripe f else none

/-- Sets RECLAIMING of the exceptions that an operation copies back (table 3-12). -/
def Dev.reclaiming (d : Dev) (o : Op) (on : Bool) : Dev :=
  let mark := fun (x : ExcEntry) => { x with reclaiming := on }
  (d.homeExcs o).foldl (fun (d : Dev) e => d.putExc (mark e)) d

/-! ### Starting and ending -/

/-- Starts an operation: it requests its stripe's lock (table 5-7). -/
def Dev.startOp (d : Dev) (kind : OpKind) (pool s : Nat) (excl : Bool) (rows : List RowWork) : Dev :=
  let (id, d) := d.fresh
  let o : Op := { id := id, kind := kind, pool := pool, stripe := s, epoch := 0, phase := .waitLock, cluster := 0,
                  channel := 512, recs := [], arecs := [], rows := rows, targets := [], headAtGrant := 0, gen := 0, writes := [],
                  sent := false, reissued := false, failed := [], copy := none, recons := 0, found := [], stage := 0, arrived := 0,
                  skipped := [], pass2 := false }
  Dev.lockRequest { d with ops := d.ops ++ [o] } id pool s excl

/-- Staging blocks that the rows of an operation reserve. -/
def Op.staged (o : Op) : Nat := (o.rows.map (·.staged)).foldl (· + ·) 0

/-- Sets what a row reserves of its cluster's staging buffer (R259). -/
def Dev.setStaged (d : Dev) (o : Op) (r : RowWork) (n : Nat) : Dev :=
  let d := d.updCluster o.cluster fun x => { x with staged := x.staged - r.staged + n }
  d.updRow o.id r.row fun r => { r with staged := n }

/-- Frees an operation's channel and staging. -/
def Dev.freeChannel (d : Dev) (o : Op) : Dev :=
  let d := d.setChannel o.channel false
  if o.channel < 512 then
    let d := d.updCluster o.cluster fun x => { x with staged := x.staged - o.staged }
    let none_ := fun (r : RowWork) => { r with staged := 0, waits := false }
    d.updOp o.id fun o => { o with channel := 512, rows := o.rows.map none_ }
  else d

/-- Ends an operation: channel, lock and itself; an exception whose copy back did not end is no longer RECLAIMING. -/
def Dev.endOp (d : Dev) (o : Op) : Dev := (((d.reclaiming o false).freeChannel o).lockRelease o.id).dropOp o.id

/-- An operation's wait for a commitment or a record: its channel is free meanwhile. -/
def Dev.toGather (d : Dev) (o : Op) : Dev := (d.freeChannel o).updOp o.id fun o => { o with phase := .gather }

/-! ### Marks and findings -/

/-- Marks a stripe for unrecoverable repair (R219, R260, R276). -/
def Dev.markStripe (d : Dev) (pool s : Nat) : Dev :=
  if d.jnl.marked.contains (pool, s) then d
  else
    let was := d.silCriticalFlag
    let d := { d with jnl := { d.jnl with marked := d.jnl.marked ++ [(pool, s)] } }
    let d := (d.p Reg.SIL_STATUS_UNRECOV_SEEN 1).pSat Reg.SIL_UNRECOV_COUNT d.jnl.marked.length
    (d.vendorEvent 1).criticalNotice was

/-- Removes the mark of a stripe that has been repaired (R275). -/
def Dev.unmarkStripe (d : Dev) (pool s : Nat) : Dev :=
  let d := { d with jnl := { d.jnl with marked := d.jnl.marked.filter (· ≠ (pool, s)) } }
  d.pSat Reg.SIL_UNRECOV_COUNT d.jnl.marked.length

/-- Admits LOST entries with REPAIR for data blocks of a row that lie in namespaces and that no unretired record covers, where no held range
with REPAIR has them yet (R260, R275, R804). -/
def Dev.loseBlocks (d : Dev) (e : Nat) (c : PoolCfg) (pool s row : Nat) (frags : List Nat) : Dev :=
  let blocks := frags.filterMap fun f => match d.blockOwner e c pool s f row with
    | some (n, l) =>
      if (d.indexRec n l).isSome || (d.jnl.lost.any fun x => x.repair && x.has n l) then none else some (n, l, 1)
    | none => none
  d.markLost blocks true .other

/-- Whether a stripe holds unretired host-data records. -/
def Dev.hasRecords (d : Dev) (pool s : Nat) : Bool :=
  (d.jnl.recs ++ d.acd.adopted).any fun r => !r.retired && !r.typ.isMeta && r.pool == pool && r.stripe == s

/-- Rows of a stripe whose anchors have been found to disagree and whose decodes are held (R228). -/
def Dev.heldRows (d : Dev) (pool s : Nat) : List Nat :=
  (d.jnl.disagree.filter fun x => x.1 == pool && x.2.1 == s).map (·.2.2)

/-- Starts the scrub with repair of R228 where a stripe with held rows holds no unretired record and no such repair runs. -/
def Dev.repairHeld (d : Dev) (pool s : Nat) : Dev :=
  let repair := fun (o : Op) => match o.kind with | .scrubRepair _ => true | _ => false
  if (d.heldRows pool s).isEmpty || d.hasRecords pool s || d.ops.any (fun o => repair o && o.pool == pool && o.stripe == s) then d
  else d.startOp (.scrubRepair true) pool s true []

/-- A disagreement of anchors is found (R228): the row is held, and remembered for a forced REWRITE. -/
def Dev.disagreed (d : Dev) (pool s row : Nat) : Dev :=
  let d := if d.jnl.disagree.contains (pool, s, row) then d
    else { d with jnl := { d.jnl with disagree := d.jnl.disagree ++ [(pool, s, row)] } }
  d.repairHeld pool s

/-- Holds an operation's decode (R228): it gives back its channel and its lock, so that the work it waits for can be granted (R210). -/
def Dev.hold (d : Dev) (o : Op) : Dev :=
  ((d.freeChannel o).updOp o.id fun o => { o with phase := .held }).lockRelease o.id

/-- A row begun again: nothing asked, read or computed. A degraded read leaves its own fragments out (R255). -/
def RowWork.again (r : RowWork) (k : OpKind) : RowWork :=
  let out := match k with | .degraded _ => r.want | _ => []
  { freshRow r.row r.method r.changed r.want with bad := out }

/-- The hold of rows of a stripe ends (R228): operations that no row of theirs holds any more ask for the lock again, and a stripe that
still has held rows is seen to. -/
def Dev.resumeHeld (d : Dev) (pool s : Nat) (rows : List Nat) : Dev :=
  let keep := fun (x : Nat × Nat × Nat) => !(x.1 == pool && x.2.1 == s && rows.contains x.2.2)
  let d := { d with jnl := { d.jnl with disagree := d.jnl.disagree.filter keep } }
  let left := d.heldRows pool s
  let free := (d.ops.filter fun o => o.phase == .held && o.pool == pool && o.stripe == s &&
    !o.rows.any fun r => left.contains r.row).map (·.id)
  let d : Dev := free.foldl (fun (d : Dev) oid =>
    (d.updOp oid fun o => { o with phase := .waitLock, pass2 := true, targets := [], rows := o.rows.map fun r => r.again o.kind }).lockRequest
      oid pool s false) d
  d.repairHeld pool s

/-! ### Reads of a row -/

/-- Where an operation reads a fragment: where it resolves readable, or a REBUILDING member's own spare slot during its
copy-back (table 6-1). -/
def Dev.readLoc (d : Dev) (c : PoolCfg) (o : Op) (f : Nat) : Option Loc :=
  let own := match o.kind, d.exc o.pool o.stripe f with
    | .resync m, some e =>
      if e.member = m then some (⟨m, (match c.extent m with | some x => x.dataSlots | none => 0) + e.spare, true⟩ : Loc) else none
    | _, _ => none
  match own with
  | some l => some l
  | none => match d.resolve c o.pool o.stripe f with
    | .readable l => some l
    | _ => none

/-- Where resynchronisation of member `m` writes a fragment: its spare slot on `m` where an exception names one, or its
placed slot, which the copy-back pass writes (R283). -/
def Dev.resyncLoc (d : Dev) (c : PoolCfg) (o : Op) (m f : Nat) : Loc :=
  let pl := c.place o.stripe f
  let home : Loc := ⟨pl.member, pl.slot, false⟩
  match d.exc o.pool o.stripe f with
  | some e =>
    if e.member = m && !d.copyingBack m then ⟨m, (match c.extent m with | some x => x.dataSlots | none => 0) + e.spare, true⟩ else home
  | none => home

/-- Submits the member reads of fragments of one row, where they resolve readable; one that does not is bad. -/
def Dev.askFrags (d : Dev) (c : PoolCfg) (oid : Nat) (row : Nat) (fs : List Nat) : Dev :=
  fs.foldl (fun (d : Dev) f =>
    match d.op oid with
    | none => d
    | some o =>
      let bad := d.updRow oid row fun r => { r with bad := r.bad ++ [f] }
      let go := fun (l : Loc) =>
        let mk := MCmd.new l.member .read .op o.pool o.stripe (c.blockOf l.slot row) 1 l.spare [BlkRef.mk oid row f] []
          (match o.kind with | .destage | .degraded _ => false | _ => true)
        (Dev.submitRead d mk).2.updRow oid row fun r => { r with asked := r.asked ++ [f] }
      match d.readLoc c o f with
      | some l => go l
      | none => bad) d

/-- Whether every row of an operation is ready. -/
def Op.allReady (o : Op) : Bool := o.rows.all (·.ready)

/-- Whether an operation works row by row; a destage and an overwrite start every row at once. -/
def OpKind.rowByRow : OpKind → Bool
  | .destage | .overwrite _ => false
  | _ => true

/-- A row's work ends: its staging is free. -/
def Dev.rowReady (d : Dev) (o : Op) (r : RowWork) (f : RowWork → RowWork) : Dev :=
  (d.setStaged o r 0).updRow o.id r.row fun r => { f r with ready := true, waits := false }

/-- Reserves a row's staging, where its cluster has it free, or nothing else is reserved there (R259). -/
def Dev.reserve (d : Dev) (o : Op) (r : RowWork) (need : Nat) : Option Dev :=
  let held := (d.cluster o.cluster).staged
  if held - r.staged + need ≤ stagingBlocks ∨ held = r.staged then
    some ((d.setStaged o r need).updRow o.id r.row fun r => { r with waits := false })
  else none

/-- A row waits for staging space (R259). -/
def Dev.waitStaging (d : Dev) (o : Op) (r : RowWork) : Dev :=
  (d.setStaged o r 0).updRow o.id r.row fun r => { r with waits := true }

/-- One step of a row (`fuel` bounds the changes of method): asks for what is missing, or computes the row. -/
def Dev.advanceRow : Nat → Dev → Nat → Nat → Dev
  | 0, d, _, _ => d
  | fuel + 1, d, oid, row =>
    match d.op oid with
    | none => d
    | some o =>
      match d.opPool o, o.row row with
      | some c, some r =>
        if o.phase != .reading || r.ready || !r.asked.isEmpty then d
        else
          let unrec := fun (d : Dev) => d.rowReady o r fun r => { r with unrec := true }
          let method := fun (d : Dev) (m : Method) => Dev.advanceRow fuel (d.updRow oid row fun r => { r with method := m }) oid row
          let ask := fun (d : Dev) (fs : List Nat) => Dev.advanceRow fuel (d.askFrags c oid row fs) oid row
          let decoding := fun (k : Dev → Dev) => match d.reserve o r (d.decodeNeed c o r) with
            | some d => k d
            | none => d.waitStaging o r
          let ends := o.pass2 && d.jnl.marked.contains (o.pool, o.stripe)
          if o.kind == .destage && !d.rowRecoverable c o r then unrec d
          else match d.rowNeeds c o r with
          | none => unrec d
          | some needs =>
            let missing := needs.filter fun f => !r.got.any (·.frag = f)
            let failed := missing.filter r.bad.contains
            match r.method with
            | .full => d.rowReady o r id
            | .delta =>
              if !failed.isEmpty then method d .rewrite
              else if !missing.isEmpty then ask d missing
              else if r.anchorsAgree c.code then d.rowReady o r id
              else
                let note := fun (o : Op) => { o with found := o.found ++ [row] }
                method ((d.updOp oid note).disagreed o.pool o.stripe row) .rewrite
            | .rewrite =>
              if (d.rowLost c o r).isEmpty then (if !missing.isEmpty then ask d missing else d.rowReady o r id)
              else decoding fun d =>
                if !missing.isEmpty then ask d missing
                else if !r.anchorsAgree c.code then unrec d
                else
                  let outs := d.decodeRow c o r (d.rowLost c o r)
                  d.rowReady o r fun r => { r with outs := outs }
            | .decode =>
              if (d.heldRows o.pool o.stripe).contains row then (if ends then unrec d else d.hold o)
              else decoding fun d =>
                if !missing.isEmpty then
                  let d := if c.code.family == .mirror then d.updOp oid fun o => { o with copy := missing.head? } else d
                  ask d missing
                else if d.resyncSkips c o r then d.rowReady o r fun r => { r with outs := [] }
                else if !r.anchorsAgree c.code then
                  (if ends then unrec d else (d.hold o).disagreed o.pool o.stripe row)
                else
                  let outs := d.decodeRow c o r r.want
                  d.rowReady o r fun r => { r with outs := outs }
            | .copy =>
              if !failed.isEmpty then method d .decode
              else if !missing.isEmpty then ask d missing
              else d.rowReady o r fun r => { r with outs := r.got.map fun g => (g.frag, g.data) }
            | .compare =>
              let open_ := missing.filter fun f => !r.bad.contains f
              if !open_.isEmpty then ask d open_ else d.rowReady o r id
      | _, _ => d

/-- Rounds one row can need: its fragments, and the changes of method. -/
def rowFuel (c : PoolCfg) : Nat := 2 * c.code.width + 8

/-! ### Writes -/

/-- One block an operation writes: fragment, row, data, tag, and where. -/
structure OutBlock where
  frag : Nat
  row : Nat
  data : Block
  tag : BitVec 128
  loc : Loc
deriving DecidableEq, Repr

/-- Submits the member writes of blocks, one command for each run of rows of a fragment that one command moves (R220, R587). -/
def Dev.sendBlocks (d : Dev) (c : PoolCfg) (oid : Nat) (sill : Bool) (bs : List OutBlock) : Dev :=
  let keys := (bs.map fun b => (b.frag, b.loc.member, b.loc.slot)).eraseDups
  keys.foldl (fun (d : Dev) k =>
    let mine := bs.filter fun b => (b.frag, b.loc.member, b.loc.slot) = k
    let base := c.blockOf k.2.2 0
    let runs := (runsOf (mine.map (·.row))).flatMap fun x => d.cutRun k.2.1 true x.2 (base + x.1) x.2
    runs.foldl (fun (d : Dev) run =>
      let part := mine.filter fun b => decide (run.1 ≤ base + b.row ∧ base + b.row < run.1 + run.2)
      match d.op oid, part with
      | some o, b0 :: _ =>
        let mk := MCmd.new b0.loc.member .write .op o.pool o.stripe run.1 run.2 b0.loc.spare
          (part.map fun b => BlkRef.mk oid b.row b.frag) (part.map fun b => (b.data, b.tag)) sill
        let (id, d) := Dev.submit d mk
        d.updOp oid fun o => { o with writes := o.writes ++ [id] }
      | _, _ => d) d) d

/-- The block written for fragment `f`: blank for a zero data block, otherwise with its tag (R289, R803, R810). -/
def outBlock (c : PoolCfg) (pool s f row gen : Nat) (l : Loc) (b : Block) (blankOk lostZero : Bool) : OutBlock :=
  if blankOk && Block.isZero b && !lostZero then ⟨f, row, 0#32768, 0#128, l⟩
  else ⟨f, row, b, mkTag c.code pool s f gen l.spare lostZero b, l⟩

/-- Fragments whose zero blocks are written blank: data blocks, and every copy of a MIRROR stripe (R803, R810). -/
def PoolCfg.zeroIsBlank (c : PoolCfg) (f : Nat) : Bool := c.code.family == .mirror || decide (f < c.code.k)

/-- The block that sillage writes for a fragment: a copied one keeps its generation and LOSTZERO (R291), a decoded one carries the row
generation. -/
def RowWork.movedBlock (r : RowWork) (c : PoolCfg) (o : Op) (f : Nat) (l : Loc) (b : Block) : OutBlock :=
  match r.method, r.gotBlock f with
  | .copy, some g => outBlock c o.pool o.stripe f r.row g.gen l b g.blank g.lostZero
  | _, _ => outBlock c o.pool o.stripe f r.row (o.rowGen c.code r) l b (c.zeroIsBlank f) false

/-- Blocks a destage row writes: changed data, and the parity its method updates (table 5-8, R219). -/
def RowWork.destageOut (r : RowWork) (c : PoolCfg) : List (Nat × Block × Bool) :=
  let chg := r.changed.map fun jb => (jb.1, jb.2.getD 0#32768, jb.2.isNone)
  let k := c.code.k
  let newRow := (List.range k).map r.newData
  let all := (List.range (c.code.width - k)).map (k + ·)
  match c.code.family with
  | .mirror => match r.changed with
    | (_, b) :: _ => (List.range c.code.width).map fun f => (f, b.getD 0#32768, b.isNone)
    | [] => match r.latestCopy with
      | some g => (List.range c.code.width).map fun f => (f, g.data, g.blank || g.lostZero)
      | none => []
  | _ =>
    if r.unrec then chg
    else match r.method with
      | .delta =>
        let ch := r.changed.map (·.1)
        chg ++ (deltaParities c.code ch).map fun f =>
          (f, ch.foldl (fun p j =>
            let old := match r.gotBlock j with | some g => g.data | none => 0#32768
            c.code.deltaBlock f j old (r.newData j) p)
            (match r.gotBlock f with | some g => g.data | none => 0#32768), false)
      | _ => chg ++ all.map fun f => (f, c.code.encodeBlock f newRow, false)

/-- Where a fragment lies whether or not it resolves: the slot its exception names, or its placed one. -/
def Dev.lieOf (d : Dev) (c : PoolCfg) (pool s f : Nat) : Loc :=
  match d.exc pool s f with
  | some e => ⟨e.member, (match c.extent e.member with | some x => x.dataSlots | none => 0) + e.spare, true⟩
  | none => let pl := c.place s f; ⟨pl.member, pl.slot, false⟩

/-- The changed data blocks of unrecoverable rows that no position takes (R276): (fragment, row). A MIRROR block is lost only where no copy
can be written. -/
def Dev.unwritten (d : Dev) (c : PoolCfg) (o : Op) : List (Nat × Nat) :=
  let there := fun f => ((d.resolve c o.pool o.stripe f).loc?).isSome
  (o.rows.filter (·.unrec)).flatMap fun r =>
    (r.changed.filter fun jb =>
      if c.code.family = .mirror then !(List.range c.code.width).any there else !there jb.1).map fun jb => (jb.1, r.row)

/-- Sends all writes of a destage at once (R220); a position that resolves unreadable is skipped and its block recorded as
missed (R279), and a changed data block at such a position of an unrecoverable row is lost (R276). -/
def Dev.sendDestage (d : Dev) (c : PoolCfg) (o : Op) : Dev :=
  let outs := o.rows.flatMap fun r => (r.destageOut c).map fun fb => (r, fb)
  let blocks := outs.filterMap fun x => ((d.resolve c o.pool o.stripe x.2.1).loc?).map fun l =>
    outBlock c o.pool o.stripe x.2.1 x.1.row o.gen l x.2.2.1 x.2.2.2 false
  let skip := outs.filter fun x => ((d.resolve c o.pool o.stripe x.2.1).loc?).isNone
  let d : Dev := skip.foldl (fun (d : Dev) x =>
    let l := d.lieOf c o.pool o.stripe x.2.1
    (d.missed o.pool l.member (c.blockOf l.slot x.1.row)).updOp o.id fun o =>
      { o with skipped := (o.skipped ++ [l.member]).eraseDups }) d
  let gone := (d.unwritten c o).filterMap fun fr => (d.blockOwner o.epoch c o.pool o.stripe fr.1 fr.2).map fun nl => (nl.1, nl.2, 1)
  let d := d.markLost gone true (.lostFor o.id)
  let d := d.updOp o.id fun o => { o with phase := .writing, sent := true }
  d.sendBlocks c o.id false blocks

/-! ### Finishing operations -/

/-- Whether a MEMBER_STATE group is still uncommitted (R250). -/
def Dev.statePending (d : Dev) : Bool :=
  d.jnl.groups.any (fun g => g.use == .memberState && !g.committed) || d.jnl.waiting.any (·.use == .memberState)

/-- Whether LOST entries of a destage still wait for admission (R276). -/
def Dev.lostPending (d : Dev) (oid : Nat) : Bool := d.jnl.waiting.any (·.use == .lostFor oid)

/-- The end of a destage whose writes are all acknowledged (R222); it waits for the MEMBER_STATE entries of the members it
skipped (R250) and for the admission of its LOST entries (R276). -/
def Dev.finishDestage (d : Dev) (o : Op) : Dev :=
  if (!o.skipped.isEmpty && d.statePending) || d.lostPending o.id then d.toGather o
  else
    let d := { d with jnl := { d.jnl with rewrite := d.jnl.rewrite.filter (· ≠ (o.pool, o.stripe)) } }
    let d := d.endOp o
    ((d.retire o.recs).retireAdopted o.arecs).resumeHeld o.pool o.stripe ((o.rows.map (·.row)).filter fun x => !o.found.contains x)

/-- The entries of a relocation (R127, R267). -/
def Op.excEntries (o : Op) : List ExcEntry :=
  o.targets.map fun t => ⟨o.pool, o.stripe, t.1, t.2.1, t.2.2.1, t.2.2.2, false⟩

/-- The generation that a scrub with repair writes: the row's for a data block, that of the copy taken under MIRROR, and the head's at the
lock grant for an anchor (R274, table 7-8). -/
def Op.repairGen (o : Op) (c : Code) (r : RowWork) (f : Nat) : Nat :=
  match c.family, r.latestCopy with
  | .mirror, some x => x.gen
  | _, _ => if c.isAnchor f then genOf o.headAtGrant else o.rowGen c r

/-- Sends what an operation computed to the members, or ends it where there is nothing to write. -/
def Dev.sendOutputs (d : Dev) (c : PoolCfg) (o : Op) : Dev :=
  let go := fun (bs : List OutBlock) =>
    let d := d.updOp o.id fun o => { o with phase := .writing, sent := true }
    d.sendBlocks c o.id true bs
  match o.kind with
  | .destage => d.sendDestage c o
  | .relocate | .unrecRepair =>
    let lostRow := fun (r : RowWork) => r.unrec
    let data := o.targets.flatMap fun t =>
      let l : Loc := ⟨t.2.1, (match c.extent t.2.1 with | some e => e.dataSlots | none => 0) + t.2.2.1, true⟩
      o.rows.filterMap fun r =>
        match r.outs.find? (·.1 = t.1) with
        | some (f, b) =>
          let lz := c.zeroIsBlank f && (r.survivor c f).isNone
          some (if lostRow r then outBlock c o.pool o.stripe f r.row (genOf o.headAtGrant) l b (c.zeroIsBlank f) lz
            else r.movedBlock c o f l b)
        | none => none
    let parity := if o.kind == .unrecRepair then
        (o.rows.filter lostRow).flatMap fun r =>
          let row := r.zeroedRow c
          ((List.range (c.code.width - c.code.k)).map (c.code.k + ·)).filterMap fun f =>
            if o.targets.any (·.1 = f) then none
            else ((d.resolve c o.pool o.stripe f).loc?).map fun l =>
              outBlock c o.pool o.stripe f r.row (genOf o.headAtGrant) l (c.code.encodeBlock f row) false (c.zeroIsBlank f)
      else []
    go (data ++ parity)
  | .resync m => go (o.rows.flatMap fun r => r.outs.map fun fb => r.movedBlock c o fb.1 (d.resyncLoc c o m fb.1) fb.2)
  | .fill _ =>
    go (o.rows.flatMap fun r => r.outs.map fun fb =>
      let pl := c.place o.stripe fb.1
      r.movedBlock c o fb.1 ⟨pl.member, pl.slot, false⟩ fb.2)
  | .scrubRepair _ =>
    go (o.rows.flatMap fun r => r.outs.filterMap fun fb => ((d.resolve c o.pool o.stripe fb.1).loc?).map fun l =>
      outBlock c o.pool o.stripe fb.1 r.row (o.repairGen c.code r fb.1) l fb.2 (c.zeroIsBlank fb.1) false)
  | _ => d

/-! ### Scrubs -/

/-- Classes of scrub findings (table 7-8). -/
inductive Finding | clean | parityBad | dataBad | mismatch | anchors | unrecov
deriving DecidableEq, Repr

/-- Row of table 7-8 of a finding. -/
def Finding.code : Finding → Nat
  | .clean => 1 | .parityBad => 2 | .dataBad => 3 | .mismatch => 4 | .anchors => 5 | .unrecov => 6

/-- Whether the stored redundancy of a row equals what its data gives (R333). -/
def RowWork.parityOk (r : RowWork) (c : PoolCfg) : Bool :=
  let blk := fun f => match r.gotBlock f with | some g => g.data | none => 0#32768
  let row := (List.range c.code.k).map blk
  (List.range c.code.width).all fun f => f < c.code.k || c.code.encodeBlock f row == blk f

/-- The class of a row that a scrub has read (R333, table 7-8). A block whose member read failed or timed out counts as one that failed a
check: the table names no such finding (log entry 125, DESIGN CHOICE). -/
def RowWork.finding (r : RowWork) (c : PoolCfg) : Finding :=
  let good := fun f => r.got.any (·.frag = f)
  if !c.code.recoverable good then .unrecov
  else if c.code.family = .mirror then
    (if !r.bad.isEmpty then .parityBad else if !r.anchorsAgree c.code then .anchors
     else if r.parityOk c then .clean else .mismatch)
  else if r.bad.any (· < c.code.k) then .dataBad
  else if !r.bad.isEmpty then .parityBad
  else if !r.anchorsAgree c.code then .anchors
  else if r.parityOk c then .clean else .mismatch

/-- Records one scrub finding (R334). -/
def Dev.recordFinding (d : Dev) (pool s row : Nat) (f : Finding) : Dev :=
  let d := match f with
    | .clean => d
    | .parityBad | .dataBad => d.inc Reg.ITG_SCRUB_FIND_TAG_REPAIRED
    | .mismatch => d.inc Reg.ITG_SCRUB_FIND_PARITY_REPAIRED
    | .anchors => d.inc Reg.ITG_SCRUB_FIND_ANCHOR
    | .unrecov => d.inc Reg.ITG_SCRUB_FIND_UNRECOV
  if f = .clean then d else d.event 0x0503 1 (stripePayload pool s ++ leBytes 2 row ++ leBytes 1 f.code)

/-- What R274 writes of a row: under MIRROR every other copy from the good copy with the latest generation; otherwise every parity block
from the data. -/
def RowWork.repairOut (r : RowWork) (c : PoolCfg) : List (Nat × Block) :=
  match c.code.family with
  | .mirror =>
    match r.latestCopy with
    | none => []
    | some x => ((List.range c.code.width).filter fun f => f ≠ x.frag).map fun f => (f, x.data)
  | _ =>
    let row := (List.range c.code.k).map fun j => match r.gotBlock j with | some g => g.data | none => 0#32768
    ((List.range (c.code.width - c.code.k)).map (c.code.k + ·)).map fun f => (f, c.code.encodeBlock f row)

/-- The bad data blocks of a row that a scrub with repair decodes and rewrites in place before it reads the row again (table 7-8). -/
def RowWork.badData (r : RowWork) (c : PoolCfg) : List (Nat × Block) :=
  if r.finding c = .dataBad ∧ r.anchorsAgree c.code then r.decodeGot c (r.bad.filter (· < c.code.k)) else []

/-- Whether R274 can repair a row from what has been read: its data blocks are good, or a copy is. -/
def RowWork.repairable (r : RowWork) (c : PoolCfg) : Bool :=
  if c.code.family = .mirror then !r.got.isEmpty else (List.range c.code.k).all fun j => r.got.any (·.frag = j)

/-! ### What an operation does once every row is ready -/

/-- RECON records of the blocks that a destage decoded (R218): runs of consecutive stripe data blocks, of at most 512 blocks (log entry
121). -/
def Dev.reconRecs (d : Dev) (c : PoolCfg) (o : Op) : List JRec :=
  let outs := o.rows.flatMap fun r => if r.unrec then [] else r.outs.map fun fb => (fb.1 * c.fragBlocks + r.row, fb.2)
  let at_ := fun (i : Nat) => ((outs.find? (·.1 = i)).map (·.2)).getD 0#32768
  let idx := (outs.map (·.1)).foldl (fun xs x => insertNat x xs) []
  (runsOf idx).flatMap fun run => (groupRuns (run.2 / 512 + 1) run.1 run.2).map fun x =>
    newRec d .recon false x.1 0 x.2 o.stripe o.pool ((List.range x.2).map fun i => at_ (x.1 + i)) []

/-- Records in groups of at most 129 (table 5-3). -/
def recGroups : Nat → List JRec → List (List JRec)
  | 0, _ => []
  | fuel + 1, rs => if rs.isEmpty then [] else rs.take 129 :: recGroups fuel (rs.drop 129)

/-- A destage whose rows are all computed (R218 to R220): its unrecoverable rows are reported, its decoded blocks committed, or its writes
sent. -/
def Dev.destageReady (d : Dev) (c : PoolCfg) (o : Op) : Dev :=
  let d := if !o.rows.any (·.unrec) then d
    else (d.event 0x0301 3 (stripePayload o.pool o.stripe)).markStripe o.pool o.stripe
  let groups := recGroups (o.rows.length * c.code.width + 1) (d.reconRecs c o)
  if groups.isEmpty && o.recons == 0 then d.sendDestage c o
  else
    let d := d.updOp o.id fun o => { o with phase := .waitCommit, recons := o.recons + groups.length }
    groups.foldl (fun (d : Dev) g => d.offer g (.recon o.id)) d

/-- Whether a member read of a host command that a decode races may still deliver blocks of a row (R256). -/
def Dev.raceOpen (d : Dev) (cmd : Nat) (o : Op) (r : RowWork) : Bool :=
  d.mcmds.any fun m => m.user == .host cmd && m.kind == .read && m.phase != .held &&
    m.pool == o.pool && m.stripe == o.stripe && m.refs.any fun b => r.want.contains b.frag && b.row == r.row

/-- One row of a degraded read (R256, R260): its blocks are delivered, wait for the member read that races it, or are lost. A row whose
blocks the host has already received is left as it is. -/
def Dev.degradedRow (d : Dev) (cmd : Nat) (c : PoolCfg) (o : Op) (r : RowWork) : Dev :=
  let lbas : List (Nat × Nat) := r.want.filterMap fun f => (d.blockOwner o.epoch c o.pool o.stripe f r.row).map fun x => (f, x.2)
  let open_ : List (Nat × Nat) := match d.cmd cmd with
    | some h => lbas.filter fun x => !h.got.any (·.1 = x.2)
    | none => []
  if open_.isEmpty then d
  else if r.unrec then
    let lost := (List.range c.code.k).filter fun f => !d.rowAvail c o r true f && (d.rowPlan c o r [f]).isNone
    if d.raceOpen cmd o r then d.updCmd cmd fun h => { h with unrecRows := h.unrecRows ++ [⟨o.pool, o.stripe, r.row, lost⟩] }
    else
      let d := (d.loseBlocks o.epoch c o.pool o.stripe r.row lost).markStripe o.pool o.stripe
      open_.foldl (fun (d : Dev) (x : Nat × Nat) => d.deliver cmd x.2 .lost) d
  else open_.foldl (fun (d : Dev) (x : Nat × Nat) => match r.outs.find? (·.1 = x.1) with
    | some (_, b) => d.deliver cmd x.2 (hostBlock b false)
    | none => d) d

/-- A scrub pass whose last stripe has been visited ends and counts (R271, table 6-16). -/
def Dev.scrubEnded (d : Dev) : Dev :=
  match d.sil.scrubAt with
  | some (p, _) =>
    if p = 64 ∧ !(d.ops.any fun o => o.kind == .scrub) then Dev.inc { d with sil := { d.sil with scrubAt := none } } Reg.SIL_SCRUB_PASSES else d
  | none => d

/-- A scrub has read its rows (R333): findings are recorded, and rows to repair pass to a scrub with repair. -/
def Dev.scrubReady (d : Dev) (c : PoolCfg) (o : Op) : Dev :=
  let found := o.rows.map fun r => (r.row, r.finding c)
  let d : Dev := found.foldl (fun (d : Dev) x => d.recordFinding o.pool o.stripe x.1 x.2) d
  let d := if found.any (·.2 = .unrecov) then d.markStripe o.pool o.stripe else d
  let again := (found.filter fun x => x.2 = .parityBad ∨ x.2 = .dataBad ∨ x.2 = .mismatch).map fun x => freshRow x.1 .compare [] []
  let d := (d.endOp o).scrubEnded
  let d : Dev := (found.filter (·.2 = .anchors)).foldl (fun (d : Dev) x => d.disagreed o.pool o.stripe x.1) d
  if again.isEmpty then d else d.startOp (.scrubRepair false) o.pool o.stripe true again

/-- The end of a scrub with repair: what R228 held for its rows goes on. -/
def Dev.endRepair (d : Dev) (o : Op) : Dev := (d.endOp o).resumeHeld o.pool o.stripe (o.rows.map (·.row))

/-- A scrub with repair has read its rows (R274, table 7-8): bad data blocks are rewritten first, and the rows read again; then the
redundancy is. -/
def Dev.repairReady (d : Dev) (c : PoolCfg) (o : Op) : Dev :=
  let first := o.stage == 0 && o.rows.any fun r => !(r.badData c).isEmpty
  let rows := o.rows.map fun r =>
    if first then { r with outs := r.badData c }
    else if r.finding c = .clean ∨ !r.repairable c then r
    else { r with outs := r.repairOut c }
  let d := if !first && o.rows.any (fun r => !(r.repairable c)) then d.markStripe o.pool o.stripe else d
  let d := d.updOp o.id fun o => { o with rows := rows, stage := if first then 1 else 2 }
  match d.op o.id with
  | none => d
  | some o => if rows.all (·.outs.isEmpty) then d.endRepair o else d.sendOutputs c o

/-- The repair of an unrecoverable stripe has read its rows (R275). -/
def Dev.unrecReady (d : Dev) (c : PoolCfg) (o : Op) : Dev :=
  let fs := o.targets.map (·.1)
  let judge := fun (r : RowWork) =>
    let ok := c.code.recoverable (r.usable c.code)
    let row := r.zeroedRow c
    { r with unrec := !ok, outs := if ok then r.decodeGot c fs else fs.map fun f => (f, c.code.encodeBlock f row) }
  let rows := o.rows.map judge
  if rows.all fun r => !r.unrec then (d.endOp o).unmarkStripe o.pool o.stripe
  else
    let d := d.updOp o.id fun o => { o with rows := rows }
    let d : Dev := (rows.filter (·.unrec)).foldl (fun (d : Dev) r =>
      d.loseBlocks o.epoch c o.pool o.stripe r.row ((List.range c.code.k).filter fun f => (r.survivor c f).isNone)) d
    match d.op o.id with
    | none => d
    | some o => d.sendOutputs c o

/-- What an operation does once every row is ready. A relocation, fill or resynchronisation with an unrecoverable row ends there, its stripe
marked (R94; log entry 106). -/
def Dev.rowsDone (d : Dev) (oid : Nat) : Dev :=
  match d.op oid with
  | none => d
  | some o =>
    match d.opPool o with
    | none => d.endOp o
    | some c =>
      match o.kind with
      | .destage => d.destageReady c o
      | .degraded cmd => Dev.endOp (o.rows.foldl (fun (d : Dev) r => d.degradedRow cmd c o r) d) o
      | .scrub => d.scrubReady c o
      | .scrubRepair _ => d.repairReady c o
      | .unrecRepair => d.unrecReady c o
      | .overwrite _ => d.sendDestage c o
      | _ => if o.rows.any (·.unrec) then (d.markStripe o.pool o.stripe).endOp o else d.sendOutputs c o

/-- Advances rows until one waits (`fuel` rows at most), then does what follows the last. -/
def Dev.runRows : Nat → Dev → Nat → Dev
  | 0, d, _ => d
  | fuel + 1, d, oid =>
    match d.op oid with
    | none => d
    | some o =>
      if o.phase != .reading then d
      else match d.opPool o with
      | none => d.endOp o
      | some c =>
        if o.kind.rowByRow then
          match o.rows.find? fun r => !r.ready with
          | none => d.rowsDone oid
          | some r =>
            let d := Dev.advanceRow (rowFuel c) d oid r.row
            match (d.op oid).bind (·.row r.row) with
            | some r' => if r'.ready then Dev.runRows fuel d oid else d
            | none => d
        else
          let d : Dev := (o.rows.filter fun r => !r.ready).foldl (fun (d : Dev) r => Dev.advanceRow (rowFuel c) d oid r.row) d
          match d.op oid with
          | some o => if o.allReady then d.rowsDone oid else d
          | none => d

/-- Drives an operation as far as it goes without waiting. -/
def Dev.drive (d : Dev) (oid : Nat) : Dev :=
  match d.op oid with
  | none => d
  | some o => Dev.runRows (o.rows.length + 2) d oid

/-! ### Degraded reads for host commands -/

/-- Starts a degraded read of blocks of one stripe for a host command, with fragments unavailable in it (R255, R258). -/
def Dev.startDegraded (d : Dev) (cmd pool s : Nat) (blocks : List (Nat × Nat)) : Dev :=
  let rows := (blocks.map (·.2)).eraseDups.map fun row =>
    let fs := (blocks.filter (·.2 = row)).map (·.1)
    { freshRow row .decode [] fs with bad := fs }
  d.startOp (.degraded cmd) pool s false rows

end Sys2Proof.Machine
end

