-- ==== Sys2Proof/Machine/Start.lean ====
section
/-!
DEFINITION. How an operation starts once it holds its stripe's lock (R141, R215 to R217, table 6-5, R271, R274, R275, R283): the records
and rows of a destage, the targets of a relocation, its queueing for a channel (R109, R339, R375), and its new start after a codec reset
(R42, R142).
-/
namespace Sys2Proof.Machine

/-! ### Queueing for a channel -/

/-- Queues an operation for a channel of the cluster R109, R339 and R375 choose, and wakes its region (R371); its place in the queue is
that of its arrival (R341). -/
def Dev.enqueue (d : Dev) (oid : Nat) : Dev :=
  match d.op oid with
  | none => d
  | some o =>
    let isRead := match o.kind with | .degraded _ => true | _ => false
    let mask := match d.pool o.pool with | some c => c.clusters | none => 0
    let cl := d.limitCluster mask (((if isRead then d.readCluster o.pool else d.itemCluster o.pool)).getD 0)
    let (n, d) := d.fresh
    let d := d.updOp oid fun o => { o with phase := .waitChannel, cluster := cl, arrived := n }
    if d.regionAllowed (regionOf cl) then d.wakeRegion (regionOf cl) isRead else d

/-! ### Destages -/

/-- Unretired host-data records of a stripe, of the local and the adopted journal. -/
def Dev.stripeRecs (d : Dev) (pool s : Nat) : List JRec :=
  (d.jnl.recs ++ d.acd.adopted).filter fun r => !r.retired && !r.lost && !r.typ.isMeta && r.pool == pool && r.stripe == s

/-- The stripe data block index and length a record covers; namespaces begin at a stripe (R112). -/
def JRec.stripeSpan (r : JRec) (c : PoolCfg) : Nat × Nat :=
  match r.typ with
  | .recon => (r.pos, r.len)
  | _ => (r.pos % c.stripeBlocks, r.len)

/-- The newest content the records give data block `b` of a stripe: some block, or none for one that is written blank, a ZERO record's
(R803) or a decoded all-zero one (R810). -/
def newestAt (c : PoolCfg) (rs : List JRec) (b : Nat) : Option (Option Block) :=
  let cov := rs.filter fun r => let x := r.stripeSpan c; decide (x.1 ≤ b ∧ b < x.1 + x.2)
  match cov.foldl (fun (best : Option JRec) r => match best with
    | none => some r
    | some y => if y.seq < r.seq then some r else some y) none with
  | none => none
  | some r =>
    let blk := r.blocks[b - (r.stripeSpan c).1]?
    match r.typ with
    | .zero => some none
    | .recon => some (blk.bind fun x => if Block.isZero x then none else some x)
    | _ => some blk

/-- The method of a touched row (R216, R217, table 5-8). -/
def Dev.rowMethod (d : Dev) (c : PoolCfg) (o : Op) (forced : Bool) (row : Nat) (ch : List Nat) : Method :=
  let n := ch.length
  let reads := ch ++ deltaParities c.code ch
  if c.code.family = .mirror then (if n = 0 then .compare else .full)
  else if n = c.code.k then .full
  else if !forced && decide (n + (deltaParities c.code ch).length ≤ c.code.k - n) &&
      reads.all (fun f => d.rowReadable c o (freshRow row .delta [] []) f) then .delta
  else .rewrite

/-- The rows of a destage (R215, R216): every row its records touch, and every row whose anchors disagree (R217). -/
def Dev.destageRows (d : Dev) (c : PoolCfg) (o : Op) (rs : List JRec) : List RowWork :=
  let force := d.jnl.rewrite.contains (o.pool, o.stripe) || d.on Reg.JNL_DRY_LIMITS_FORCE_REWRITE || o.sent
  let dis := d.heldRows o.pool o.stripe
  (List.range c.fragBlocks).filterMap fun row =>
    let changed := (List.range c.code.k).filterMap fun j =>
      (newestAt c rs (j * c.fragBlocks + row)).map fun b => (j, b)
    if changed.isEmpty && !dis.contains row then none
    else
      some (freshRow row (d.rowMethod c o (force || !dis.isEmpty) row (changed.map (·.1))) changed [])

/-- The records that a destage carries: those of its stripe that are published and unretired at its grant (R215), or, begun again, those it
has taken already. -/
def Dev.destageRecs (d : Dev) (o : Op) : List JRec × List JRec :=
  let here := fun (r : JRec) => !r.retired && !r.lost && !r.typ.isMeta && r.pool == o.pool && r.stripe == o.stripe
  if o.recs.isEmpty && o.arecs.isEmpty then
    (d.jnl.recs.filter fun r => here r && d.published r, d.acd.adopted.filter here)
  else (d.jnl.recs.filter fun r => o.recs.contains r.seq, d.acd.adopted.filter fun r => o.arecs.contains r.seq)

/-- A destage starts: its records, its generation (R225) and its rows. -/
def Dev.beginDestage (d : Dev) (c : PoolCfg) (o : Op) : Dev :=
  let (local_, adopted) := d.destageRecs o
  let rs := local_ ++ adopted
  if rs.isEmpty then d.endOp o
  else
    let top := (rs.map (·.seq)).foldl max 0
    let work := d.destageRows c o rs
    (d.updOp o.id fun o =>
      { o with recs := local_.map (·.seq), arecs := adopted.map (·.seq), gen := genOf top, rows := work }).enqueue o.id

/-! ### Relocations -/

/-- Fragments of a stripe that sillage rebuilds: unreadable, and not on an ABSENT member (R808). -/
def Dev.rebuildFrags (d : Dev) (c : PoolCfg) (pool s : Nat) : List Nat :=
  (d.unreadableFrags c pool s).filter fun f =>
    let m := match d.exc pool s f with | some e => e.member | none => (c.place s f).member
    (d.mbr m).st != .absent

/-- Targets of a relocation pass, in ascending fragment (R129), and the fragments that found none (R130). -/
def Dev.chooseTargets (d : Dev) (c : PoolCfg) (pool s : Nat) (fs : List Nat) : List (Nat × Nat × Nat × Bool) × List Nat :=
  fs.foldl (fun (acc : List (Nat × Nat × Nat × Bool) × List Nat) f =>
    match d.chooseSpare c pool s f (acc.1.map fun t => (t.2.1, t.2.2.1)) with
    | some (m, i, rel) => (acc.1 ++ [(f, m, i, rel)], acc.2)
    | none => (acc.1, acc.2 ++ [f])) ([], [])

/-- Fragments of a stripe with a RELAXED exception, ascending. -/
def Dev.relaxedFrags (d : Dev) (pool s : Nat) : List Nat :=
  ((d.arm.excs.filter fun e => e.pool == pool && e.stripe == s && e.relaxed).map (·.frag)).foldl (fun xs x => insertNat x xs) []

/-- Targets within the domain rule for the RELAXED fragments of a stripe (R131), chosen in ascending fragment as in one pass. -/
def Dev.relaxedTargets (d : Dev) (c : PoolCfg) (pool s : Nat) : List (Nat × Nat × Nat × Bool) :=
  (d.relaxedFrags pool s).foldl (fun (acc : List (Nat × Nat × Nat × Bool)) f =>
    match d.chooseSpare c pool s f (acc.map fun t => (t.2.1, t.2.2.1)) with
    | some (m, i, false) => acc ++ [(f, m, i, false)]
    | _ => acc) []

/-- Records that no spare was found for fragments of a stripe (R130): one event for the stripe. -/
def Dev.noSpareFor (d : Dev) (pool s : Nat) (fs : List Nat) : Dev :=
  match fs with
  | [] => d
  | f :: _ =>
    if d.sil.noSpare.contains (pool, s) then d
    else Dev.event { d with sil := { d.sil with noSpare := d.sil.noSpare ++ [(pool, s)] } } 0x0201 2
      (stripePayload pool s ++ leBytes 2 f)

/-- A relocation starts: of unreadable fragments, or, with none, of RELAXED ones that find a better place. -/
def Dev.beginRelocate (d : Dev) (c : PoolCfg) (o : Op) : Dev :=
  let lost := d.rebuildFrags c o.pool o.stripe
  let go := fun (d : Dev) (ts : List (Nat × Nat × Nat × Bool)) (m : Method) =>
    (d.updOp o.id fun o => { o with targets := ts, rows := allRows c m (ts.map (·.1)) }).enqueue o.id
  if lost.isEmpty then
    let rel := d.relaxedTargets c o.pool o.stripe
    if rel.isEmpty then d.endOp o else go d rel .copy
  else
    let (ts, none_) := d.chooseTargets c o.pool o.stripe lost
    let d := d.noSpareFor o.pool o.stripe none_
    if ts.isEmpty then d.endOp o else go d ts .decode

/-! ### The start of an operation -/

/-- Whether every fragment of a stripe resolves readable. -/
def Dev.whollyReadable (d : Dev) (c : PoolCfg) (p s : Nat) : Bool :=
  (List.range c.code.width).all fun f => (d.resolve c p s f).isReadable

/-- A scrub starts, or, where the stripe is not wholly readable, counts it as DEGRADED work and skips it (R273). -/
def Dev.beginScrub (d : Dev) (c : PoolCfg) (o : Op) : Dev :=
  let others := d.sil.counted.filter (· ≠ (o.pool, o.stripe))
  if d.whollyReadable c o.pool o.stripe then
    (Dev.updOp { d with sil := { d.sil with counted := others } } o.id fun o => { o with rows := allRows c .compare [] }).enqueue o.id
  else (Dev.endOp { d with sil := { d.sil with counted := others ++ [(o.pool, o.stripe)] } } o).scrubEnded

/-- An overwrite starts: every data block of the stripe takes the pattern, encrypted where it lies in a namespace (R514). -/
def Dev.beginOverwrite (d : Dev) (c : PoolCfg) (o : Op) (pat : Nat) : Dev :=
  let blk := blockOfBytes ((List.replicate 1024 (leBytes 4 pat)).flatten)
  let cell := fun (row j : Nat) => match d.blockOwner o.epoch c o.pool o.stripe j row with
    | some (n, l) => (j, some (xts (d.nsKey n) l blk))
    | none => (j, none)
  let mk := fun (row : Nat) => freshRow row .full ((List.range c.code.k).map (cell row)) []
  (d.updOp o.id fun o => { o with gen := genOf d.head, rows := (List.range c.fragBlocks).map mk }).enqueue o.id

/-- Starts an operation that holds its lock and has its epoch: it fixes its rows and waits for a channel; one with nothing to do ends. -/
def Dev.beginOp (d : Dev) (oid : Nat) : Dev :=
  match d.op oid with
  | none => d
  | some o =>
    match d.opPool o with
    | none => d.endOp o
    | some c =>
      match o.kind with
      | .destage => d.beginDestage c o
      | .relocate => d.beginRelocate c o
      | .unrecRepair =>
        let (ts, none_) := d.chooseTargets c o.pool o.stripe (d.rebuildFrags c o.pool o.stripe)
        ((d.noSpareFor o.pool o.stripe none_).updOp oid fun o => { o with targets := ts, rows := allRows c .compare [] }).enqueue oid
      | .scrub => d.beginScrub c o
      | .scrubRepair _ =>
        let rows := if o.rows.isEmpty then (d.heldRows o.pool o.stripe).map fun x => freshRow x .compare [] [] else o.rows
        (d.updOp oid fun o => { o with rows := rows }).enqueue oid
      | .overwrite pat => d.beginOverwrite c o pat
      | .resync _ | .fill _ => (d.reclaiming o true).enqueue oid
      | .degraded _ => d.enqueue oid

/-- What an operation does when its lock has been granted: it takes the active epoch, a degraded read at its first lookup only (R141), and
one that R228 had held keeps the epoch it has; then it starts. -/
def Dev.afterGrant (d : Dev) (oid : Nat) : Dev :=
  let take := fun (o : Op) => match o.kind with
    | .degraded _ => o.epoch
    | _ => if o.pass2 then o.epoch else d.epoch
  (d.updOp oid fun o => { o with epoch := take o, headAtGrant := d.head }).beginOp oid

/-! ### A new start (R42, R142) -/

/-- No ELB fill wakes an operation any more. -/
def Dev.forgetFills (d : Dev) (oid : Nat) : Dev :=
  let drop := fun (f : Fill) => { f with waiters := f.waiters.filter (· ≠ oid) }
  let clear := fun (x : Region) => { x with fills := x.fills.map drop, fillWait := x.fillWait.filter (·.1 ≠ oid) }
  { d with fab := { d.fab with regions := d.fab.regions.map clear } }

/-- Member commands of an operation go on without it. -/
def Dev.forgetCmds (d : Dev) (oid : Nat) : Dev :=
  let drop := fun (c : MCmd) => { c with refs := c.refs.filter (·.op ≠ oid) }
  { d with mcmds := updWhere (fun (c : MCmd) => c.user == .op) drop d.mcmds }

/-- A fresh start of an operation that a codec reset or an exhausted cluster interrupted at its channel or in its queue (R42, R142, R347): it
takes the active epoch again, keeps its lock and its records, and does everything again; a destage whose writes had been sent is REWRITE
(R217). -/
def Dev.reissue (d : Dev) (oid : Nat) : Dev :=
  match d.op oid with
  | none => d
  | some o =>
    if o.channel ≥ 512 ∧ o.phase ≠ .waitChannel then d
    else
      let home := !(d.homeExcs o).isEmpty
      let d := (((d.freeChannel o).forgetFills oid).forgetCmds oid)
      let e := match o.kind with | .degraded _ => 0 | _ => d.epoch
      let row := fun (r : RowWork) => { r.again o.kind with method := if home then .copy else r.method }
      (d.updOp oid fun o => { o with epoch := e, rows := o.rows.map row, reissued := true, failed := [], copy := none, writes := [],
                                     targets := [], stage := 0 }).beginOp oid

end Sys2Proof.Machine
end

