-- ==== Sys2Proof/Machine/Plinth.lean ====
section
/-!
DEFINITION. The plinth (R149 to R152, R235, R236, R798 to R800, R802): where its structures lie, the bytes of a directory, an exception
checkpoint area and a journal checkpoint image, the writes that put them on every copy, what a restore reads back, and member labels.
-/
namespace Sys2Proof.Machine

/-! ### Layout (table 3-17) -/

/-- First stripe of an armature slot. -/
def plinthArmAt (c : PoolCfg) (slot : Nat) : Nat := 1 + slot * plinthA c.fragLog2
/-- First stripe of an exception checkpoint area. -/
def plinthExcAt (c : PoolCfg) (excCap area : Nat) : Nat := 1 + 2 * plinthA c.fragLog2 + area * plinthX c.fragLog2 excCap
/-- First stripe of a journal checkpoint area: area 0 takes the first J / 2 stripes, area 1 the rest (R235). -/
def plinthJckAt (c : PoolCfg) (excCap area : Nat) : Nat :=
  1 + 2 * plinthA c.fragLog2 + 2 * plinthX c.fragLog2 excCap + area * (plinthJ c.fragLog2 / 2)

/-- The plinth pool of an armature: its number and configuration. -/
def Armature.plinthCfg (a : Armature) : Option (Nat × PoolCfg) :=
  match a.plinthPool with
  | some p => (a.pool p).map fun c => (p, c)
  | none => none

/-- Members that hold the plinth. -/
def Armature.plinthMembers (a : Armature) : List Nat :=
  match a.plinthCfg with
  | some (_, c) => c.extents.map (·.member)
  | none => []

/-! ### Writes on every copy (R799) -/

/-- The blocks of a byte string, its last one filled with zeros. -/
def blocksOf (bs : List Byte) : List Block :=
  (List.range (ceilDiv bs.length 4096)).map fun i => blockOfBytes ((bs.drop (4096 * i)).take 4096)

/-- The member writes that put blocks from stripe `s0`, block row `row0`, on every plinth copy that can be written: their tags carry the low
32 bits of the head (R289, R799). -/
def Dev.plinthWrites (d : Dev) (s0 row0 : Nat) (bs : List Block) : List PlinthWrite :=
  match d.arm.active.bind (·.plinthCfg) with
  | none => []
  | some (p, c) =>
    let fb := c.fragBlocks
    (List.range (ceilDiv (row0 + bs.length) fb)).flatMap fun i =>
      let part := bs.zipIdx.filter fun x => (row0 + x.2) / fb == i
      (List.range c.code.width).filterMap fun f =>
        match (d.resolve c p (s0 + i) f).loc?, part with
        | some l, x :: _ => some ⟨l.member, d.blockLba p l.member (c.blockOf l.slot ((row0 + x.2) % fb)),
            part.map fun y => (y.1, mkTag c.code p (s0 + i) f (genOf d.head) l.spare false y.1)⟩
        | _, _ => none

/-! ### The directory (R798) -/

/-- The 16 bytes of an armature slot. -/
def PSlot.bytes (s : PSlot) : List Byte :=
  leBytes 4 s.epoch ++ leBytes 4 s.length ++ leBytes 4 s.crc ++ leBytes 4 (if s.marked then 0x4B524D43 else 0)
/-- The 32 bytes of an exception checkpoint area. -/
def PArea.bytes (a : PArea) : List Byte :=
  leBytes 8 a.number ++ leBytes 8 a.covered ++ leBytes 4 a.count ++ leBytes 4 a.crc ++ leBytes 8 0

/-- The 4 KiB of a directory block. -/
def PDir.bytes (p : PDir) (ident : BitVec 128) : List Byte :=
  let b := leBytes 4 0x52494450 ++ leBytes 4 1 ++ leBytes 8 p.seq ++ leBytes 16 ident.toNat ++ p.slot0.bytes ++ p.slot1.bytes ++
    p.exc0.bytes ++ p.exc1.bytes
  let b := b ++ List.replicate (0xFFC - b.length) 0
  b ++ leBytes 4 (crc32c b)

/-- The armature slot at an offset of a directory block. -/
def readSlot (b : List Byte) (o : Nat) : PSlot := ⟨leAt b o 4, leAt b (o + 4) 4, leAt b (o + 8) 4, leAt b (o + 12) 4 == 0x4B524D43⟩
/-- The exception checkpoint area at an offset of a directory block. -/
def readArea (b : List Byte) (o : Nat) : PArea := ⟨leAt b o 8, leAt b (o + 8) 8, leAt b (o + 16) 4, leAt b (o + 20) 4⟩

/-- The directory that a block holds: none where its magic, version, array identity or CRC-32C is not right. -/
def readDir (ident : Option (BitVec 128)) (b : List Byte) : Option PDir :=
  let mine := match ident with | some x => leAt b 0x10 16 == x.toNat | none => true
  if leAt b 0 4 == 0x52494450 && leAt b 4 4 == 1 && mine && leAt b 0xFFC 4 == crc32c (b.take 0xFFC) then
    some ⟨leAt b 8 8, readSlot b 0x20, readSlot b 0x30, readArea b 0x40, readArea b 0x60⟩
  else none

/-- A directory with nothing in it. -/
def PDir.blank : PDir := ⟨0, ⟨0, 0, 0, false⟩, ⟨0, 0, 0, false⟩, ⟨0, 0, 0, 0⟩, ⟨0, 0, 0, 0⟩⟩

/-- Writes a new directory, one sequence further, to the block that does not hold the newest. -/
def Dev.putDir (d : Dev) (p : PDir) (what : String) : Dev :=
  match d.arm.active with
  | none => d
  | some a =>
    let p := { p with seq := d.arm.plinth.dir.seq + 1 }
    let blk := 1 - d.arm.plinth.block
    let ws := d.plinthWrites 0 blk (blocksOf (p.bytes a.identity))
    Dev.emit { d with arm := { d.arm with plinth := { d.arm.plinth with dir := p, block := blk } } } (.plinth what p.seq ws)

/-- The armature slot that holds an epoch: 0 or 1. -/
def PDir.slotOf (p : PDir) (epoch : Nat) : Option Nat :=
  if p.slot0.marked ∧ p.slot0.epoch = epoch then some 0 else if p.slot1.marked ∧ p.slot1.epoch = epoch then some 1 else none

/-- The epoch before another (R147). -/
def prevEpoch (e : Nat) : Nat := if e ≤ 1 then 0xFFFFFFFF else e - 1

/-- The armature slot of an epoch's image: the one that is marked for it, or else the one that does not hold the epoch before. -/
def PDir.slotFor (p : PDir) (epoch : Nat) : Nat :=
  match p.slotOf epoch, p.slotOf (prevEpoch epoch) with
  | some s, _ => s
  | none, some s => 1 - s
  | none, none => 0

/-- A directory with an armature slot set. -/
def PDir.withSlot (p : PDir) (n : Nat) (s : PSlot) : PDir := if n = 0 then { p with slot0 := s } else { p with slot1 := s }
/-- A directory with an exception checkpoint area set. -/
def PDir.withArea (p : PDir) (n : Nat) (a : PArea) : PDir := if n = 0 then { p with exc0 := a } else { p with exc1 := a }

/-- The directory slot of an armature's image. -/
def Armature.slotEntry (a : Armature) (marked : Bool) : PSlot := ⟨a.epoch, a.image.length, crc32c a.image, marked⟩

/-- The writes of an image to an armature slot of every plinth copy. -/
def Dev.armWrites (d : Dev) (slot : Nat) (a : Armature) : List PlinthWrite :=
  match d.arm.active.bind (·.plinthCfg) with
  | some (_, c) => d.plinthWrites (plinthArmAt c slot) 0 (blocksOf a.image)
  | none => []

/-- Whether sillage reads a stripe of a pool (R310): in the plinth only those that the directory names, which are stripe 0, the armature slots
and exception checkpoint areas in use, and the newest journal checkpoint. -/
def Dev.namesStripe (d : Dev) (c : PoolCfg) (s : Nat) : Bool :=
  match c.plinth, d.arm.active with
  | false, _ => true
  | true, none => false
  | true, some a =>
    let p := d.arm.plinth.dir
    let lies := fun (s0 bytes : Nat) => decide (s0 ≤ s ∧ s < s0 + ceilDiv bytes (2 ^ c.fragLog2))
    p.seq != 0 && (s == 0 || (p.slot0.marked && lies (plinthArmAt c 0) p.slot0.length) || (p.slot1.marked && lies (plinthArmAt c 1) p.slot1.length) ||
      (p.exc0.number != 0 && lies (plinthExcAt c a.excCapacity 0) (16 * p.exc0.count)) ||
      (p.exc1.number != 0 && lies (plinthExcAt c a.excCapacity 1) (16 * p.exc1.count)) ||
      (d.jnl.jckpt.number != 0 && lies (plinthJckAt c a.excCapacity d.arm.plinth.jckArea) 0x20000))

/-! ### Checkpoint areas (R150, R236) -/

/-- The entries of an exception checkpoint area, in their 16-byte form. -/
def excBytes (es : List ExcEntry) : List Byte := es.flatMap ExcEntry.bytes

/-- The exception entry of 16 bytes (table 3-12). -/
def readExc (b : List Byte) (o : Nat) : ExcEntry :=
  let k := leAt b o 8
  let m := leAt b (o + 8) 2
  ⟨k / 2 ^ 40 % 64, k % 2 ^ 40, k / 2 ^ 46 % 1024, m % 2 ^ 11, leAt b (o + 12) 4, m.testBit 12, m.testBit 13⟩

/-- The 128 KiB of a journal checkpoint image (table 5-9). -/
def JCkpt.image (j : JCkpt) : List Byte :=
  let ents := fun (es : List MetaEntry) (n : Nat) => let b := es.flatMap MetaEntry.bytes; b ++ List.replicate (n - b.length) 0
  let tail := List.replicate 4032 0 ++ ents j.members 0x8000 ++
    ents (j.lost.map fun l => .lost l.nsid l.first l.len false l.repair) 0x10000 ++ List.replicate 0x7000 0
  let head := leBytes 4 0x504B434A ++ leBytes 4 1 ++ leBytes 8 j.number ++ leBytes 8 j.covered ++ leBytes 4 j.lost.length ++ List.replicate 32 0
  head ++ leBytes 4 (crc32c (head ++ leBytes 4 0 ++ tail)) ++ tail

/-- A member state of its code (table 6-1). -/
def mstOfCode (n : Nat) : MSt :=
  match n with | 1 => .online | 2 => .suspect | 3 => .failed | 4 => .rebuilding | 5 => .retired | _ => .absent
/-- A FAILED cause of its code. -/
def causeOfCode (n : Nat) : Cause :=
  match n with | 1 => .timeout | 2 => .media | 3 => .slow | 4 => .reported | 5 => .host | 6 => .absentTimeout | _ => .none

/-- The MEMBER_STATE entry of 16 bytes (table 5-5). -/
def readState (b : List Byte) (o : Nat) : MetaEntry :=
  let fl := leAt b (o + 3) 1
  .mst (leAt b o 2) (mstOfCode (leAt b (o + 2) 1)) (fl.testBit 0) (fl.testBit 1) (causeOfCode (leAt b (o + 4) 1)) (leAt b (o + 8) 8)

/-- The held range of a LOST entry in an image that covers sequence `c` (table 5-5). -/
def readLost (b : List Byte) (o c : Nat) : LostRange := ⟨leAt b o 2, leAt b (o + 8) 8, leAt b (o + 4) 4, (leAt b (o + 2) 2).testBit 1, c⟩

/-- The journal checkpoint that an image holds for an array of `members` members: none where its magic, version or CRC-32C is not right. -/
def readJck (members : Nat) (b : List Byte) : Option JCkpt :=
  let clear := b.take 0x3C ++ leBytes 4 0 ++ b.drop 0x40
  if b.length = 0x20000 ∧ leAt b 0 4 = 0x504B434A ∧ leAt b 4 4 = 1 ∧ leAt b 0x3C 4 = crc32c clear then
    let c := leAt b 0x10 8
    some ⟨leAt b 8 8, c, (List.range members).map fun i => readState b (0x1000 + 16 * i),
      (List.range (leAt b 0x18 4)).map fun i => readLost b (0x9000 + 16 * i) c⟩
  else none

/-! ### Reading at a restore (R799, R802) -/

/-- The bytes of a plinth structure as one copy answers them, from stripe `s0`: none where a block fails checks 2 to 4 of table 7-3. -/
def Armature.plinthBytes (a : Armature) (member s0 : Nat) (bs : List (Block × BitVec 128)) : Option (List Byte) :=
  match a.plinthCfg with
  | none => none
  | some (p, c) =>
    let ok := fun (x : (Block × BitVec 128) × Nat) =>
      let s := s0 + x.2 / c.fragBlocks
      match (List.range c.code.width).find? fun f => (c.place s f).member == member with
      | some f => (match checkTag c.code p s f false x.1.1 x.1.2 with | .bad _ => false | _ => true)
      | none => false
    if bs.zipIdx.all ok then some (bs.flatMap fun x => blockBytes x.1) else none

/-- What the first bytes of LBA 0 are: a blank label (0), a valid one, whose magic and CRC-32C are correct (1), or neither (2) (R581). -/
def Disc.label (x : Disc) : Nat :=
  if x.lba0.length = 64 ∧ x.lba0.all (· == 0#8) then 0
  else if x.lba0.length = 64 ∧ leAt x.lba0 0 4 = 0x4C424C4D ∧ leAt x.lba0 0x24 4 = crc32c (x.lba0.take 0x24) then 1
  else 2
/-- Fields of a label (R151): its member number, array identity, the epoch in which the member joined, and whether it holds the plinth. -/
def Disc.labelMember (x : Disc) : Nat := leAt x.lba0 6 2
def Disc.labelIdent (x : Disc) : BitVec 128 := BitVec.ofNat 128 (leAt x.lba0 8 16)
def Disc.labelJoin (x : Disc) : Nat := leAt x.lba0 0x18 4
def Disc.labelPlinth (x : Disc) : Bool := (leAt x.lba0 0x20 4).testBit 0

/-- The copies of what has been read that may be taken: those on members whose discovered namespace has a valid label that says it holds the
plinth, matched to a plinth member of the active armature (R802). -/
def Dev.plinthCopies (d : Dev) (rs : List PlinthRead) : List PlinthRead :=
  rs.filter fun r => match d.arm.active with
    | none => d.disc.any fun x => x.label == 1 && x.labelPlinth && x.labelMember == r.member
    | some a => a.plinthMembers.contains r.member &&
        d.disc.any fun x => x.status == 0 && x.member == r.member && x.label == 1 && x.labelPlinth

/-- Copies in the order in which a structure is read from them: least queue depth, then lower member number (R88, R799). -/
def Dev.copyOrder (d : Dev) (rs : List PlinthRead) : List PlinthRead :=
  rs.mergeSort fun x y => decide (d.queueDepth x.member < d.queueDepth y.member ∨
    (d.queueDepth x.member = d.queueDepth y.member ∧ x.member ≤ y.member))

/-- The newest valid directory over every copy and both blocks, and the block that holds it (R798). -/
def newestDir (a : Armature) (rs : List PlinthRead) : Option (PDir × Nat) :=
  let all := rs.flatMap fun r => (List.range 2).filterMap fun i => match r.dirs[i]? with
    | none => none
    | some x => match a.plinthBytes r.member 0 ((List.replicate i x) ++ [x]) with
      | some _ => (readDir (some a.identity) (blockBytes x.1)).map fun p => (p, i)
      | none => none
  all.foldl (fun (b : Option (PDir × Nat)) x => match b with
    | none => some x
    | some y => if y.1.seq < x.1.seq then some x else some y) none

/-- The entries of an exception checkpoint area, from the first copy that passes its checks (R150, R799). -/
def Dev.readExcArea (d : Dev) (a : Armature) (rs : List PlinthRead) (area : PArea) (n : Nat) : Option ECkpt :=
  if area.number = 0 then none
  else match a.plinthCfg with
    | none => none
    | some (_, c) => (d.copyOrder rs).findSome? fun r =>
        match a.plinthBytes r.member (plinthExcAt c a.excCapacity n) (if n = 0 then r.exc0 else r.exc1) with
        | none => none
        | some bs =>
          let es := bs.take (16 * area.count)
          if crc32c es = area.crc ∧ es.length = 16 * area.count then
            some ⟨area.number, area.covered, (List.range area.count).map fun i => readExc es (16 * i)⟩
          else none

/-- The newer valid exception checkpoint that a directory names (R150). -/
def Dev.newestEck (d : Dev) (a : Armature) (rs : List PlinthRead) (p : PDir) : Option ECkpt :=
  let x := d.readExcArea a rs p.exc0 0
  let y := d.readExcArea a rs p.exc1 1
  match x, y with
  | some e, some f => if e.number < f.number then some f else some e
  | some e, none => some e
  | none, y => y

/-- The newest valid journal checkpoint over every copy and both areas, and its area (R238, R802). -/
def newestJck (a : Armature) (rs : List PlinthRead) : Option (JCkpt × Nat) :=
  match a.plinthCfg with
  | none => none
  | some (_, c) =>
    let all := rs.flatMap fun r => (List.range 2).filterMap fun n =>
      match a.plinthBytes r.member (plinthJckAt c a.excCapacity n) (if n = 0 then r.jck0 else r.jck1) with
      | some bs => (readJck a.members.length (bs.take 0x20000)).map fun j => (j, n)
      | none => none
    all.foldl (fun (b : Option (JCkpt × Nat)) x => match b with
      | none => some x
      | some y => if y.1.number < x.1.number then some x else some y) none

/-! ### Member labels (R151, R152) -/

/-- The 64 bytes of a member's label under an armature. -/
def Dev.labelBytes (d : Dev) (a : Armature) (m : Nat) : List Byte :=
  let b := leBytes 4 0x4C424C4D ++ leBytes 2 1 ++ leBytes 2 m ++ leBytes 16 a.identity.toNat ++
    leBytes 4 (if (d.mbr m).joinEpoch = 0 then a.epoch else (d.mbr m).joinEpoch) ++
    leBytes 4 a.epoch ++ leBytes 4 (if a.plinthMembers.contains m then 1 else 0)
  b ++ leBytes 4 (crc32c b) ++ List.replicate 24 0

/-- Submits the write of a member's label: LBAs 0 to 15, zero beyond the label, in as many commands as MDTS asks for (R151, R587). -/
def Dev.writeLabel (d : Dev) (m : Nat) : Dev :=
  match d.arm.active with
  | none => d
  | some a =>
    let data := blockOfBytes (d.labelBytes a m) :: List.replicate 15 0#32768
    let most := max 1 (d.mdts m)
    (List.range (ceilDiv 16 most)).foldl (fun (d : Dev) i =>
      let part := (data.drop (i * most)).take most
      (d.submit (MCmd.new m .label .label 0 0 (i * most) part.length false [] (part.map fun b => (b, 0#128)) false)).2) d

/-- At the first commit, once every plinth member that is neither FAILED nor RETIRED carries its label, the image goes to armature slot 0 of
every plinth copy (R800 step 2; log entry 115). -/
def Dev.firstImage (d : Dev) : Dev :=
  match d.arm.active with
  | none => d
  | some a =>
    let waits := fun (m : Nat) => (d.mbr m).st != .failed && (d.mbr m).st != .retired &&
      ((d.mbr m).labelPending || d.mcmds.any fun c => c.kind == .label && c.member == m)
    if d.arm.plinth.step == .labels && !a.plinthMembers.any waits then
      Dev.emit { d with arm := { d.arm with plinth := { d.arm.plinth with step := .image } } } (.plinth "armature" a.epoch (d.armWrites 0 a))
    else d

end Sys2Proof.Machine
end

