-- ==== Sys2Proof/Machine/IoDone.lean ====
section
/-!
DEFINITION. What follows the member commands of an operation: a block read good or bad, a read or write that failed, a write
acknowledged, the visibility of resolved-row writes (R361), and the commitment of journal groups with all that waits on it.
-/
namespace Sys2Proof.Machine

/-! ### Gathered exception entries (R267) -/

/-- Gathered entries in records of at most 1,024, the entries of one operation in one record. -/
def gatherRuns (xs : List (Nat × ExcEntry)) : List (List (Nat × ExcEntry)) :=
  ((xs.map (·.1)).eraseDups).foldl (fun (acc : List (List (Nat × ExcEntry))) o =>
    let mine := xs.filter (·.1 = o)
    match acc.getLast? with
    | some b => if b.length + mine.length ≤ 1024 then acc.dropLast ++ [b ++ mine] else acc ++ [mine]
    | none => [mine]) []

/-- Admits the EXC_INSERT entries gathered (R267 step 5). -/
def Dev.flushGather (d : Dev) : Dev :=
  let runs := gatherRuns d.sil.gather
  let d := { d with sil := { d.sil with gather := [], gatherUs := if d.sil.gather.isEmpty then d.sil.gatherUs else d.now } }
  runs.foldl (fun (d : Dev) b =>
    d.offerMeta .excInsert (b.map fun x => .exc x.2) (.excInsert ((b.map (·.1)).eraseDups))) d

/-! ### After an operation's writes -/

/-- The 16 bytes of a fill list entry (R797). -/
def FillEntry.bytes (f : FillEntry) : List Byte :=
  leBytes 1 f.pool ++ leBytes 1 0 ++ leBytes 2 f.pos ++ leBytes 4 f.group ++ leBytes 5 f.cursor ++ leBytes 3 0

/-- Writes the fill list into the DRL area of the vault (R797). -/
def Dev.putFills (d : Dev) : Dev := d.emit (.vaultBytes "fill list" (d.arm.fills.flatMap FillEntry.bytes))

/-- A fill entry's cursor moves on (R270), in the vault's fill list too (R797). -/
def Dev.fillAdvance (d : Dev) (pool group pos : Nat) : Dev :=
  let here := fun (f : FillEntry) => f.pool == pool && f.group == group && f.pos == pos
  Dev.putFills { d with arm := { d.arm with fills := updWhere here (fun f => { f with cursor := f.cursor + 1 }) d.arm.fills } }

/-- Deletes the exceptions of the fragments an operation has copied to their placed slots (R139, R283), or goes on where
there are none. -/
def Dev.afterCopyBack (d : Dev) (o : Op) (end_ : Dev → Dev) : Dev :=
  let es := d.homeExcs o
  if es.isEmpty then end_ d else (d.toGather o).offerMeta .excDelete (es.map .exc) (.excDelete [o.id])

/-- A relocation's entries join those that are gathering for a record (R267 step 5). -/
def Dev.gatherEntries (d : Dev) (o : Op) : Dev :=
  let d := d.toGather o
  let first := d.sil.gather.isEmpty
  let d := { d with sil := { d.sil with gather := d.sil.gather ++ o.excEntries.map fun e => (o.id, e),
                                        gatherUs := if first then d.now else d.sil.gatherUs } }
  if 1024 ≤ d.sil.gather.length then d.flushGather else d

/-- A scrub with repair has rewritten its bad data blocks: it reads its rows again (table 7-8). -/
def Dev.rereadRepair (d : Dev) (o : Op) : Dev :=
  let fresh := fun (r : RowWork) => freshRow r.row .compare [] []
  (d.updOp o.id fun o => { o with phase := .reading, stage := 2, rows := o.rows.map fresh }).drive o.id

/-- The resynchronisation of a member has done a slot of its region (R283): its cursor moves on. -/
def Dev.resyncAdvance (d : Dev) (m : Nat) : Dev :=
  let next := fun (r : ResyncAt) => { r with slot := if r.region.isSome then r.slot + 1 else r.slot }
  { d with sil := { d.sil with resync := updWhere (fun (r : ResyncAt) => r.member == m) next d.sil.resync } }

/-- What follows the last acknowledgement of an operation's writes. -/
def Dev.writesDone (d : Dev) (oid : Nat) : Dev :=
  match d.op oid with
  | none => d
  | some o =>
    if o.phase != .writing || !o.writes.isEmpty then d
    else match o.kind with
      | .destage => d.finishDestage o
      | .relocate | .unrecRepair =>
        if o.targets.isEmpty then
          let d := d.endOp o
          if o.kind == .unrecRepair then d.unmarkStripe o.pool o.stripe else d
        else d.gatherEntries o
      | .resync m => d.afterCopyBack o fun d => (d.endOp o).resyncAdvance m
      | .fill pos => d.afterCopyBack o fun d =>
          let g := match d.opPool o with | some c => c.group o.stripe | none => 0
          (d.endOp o).fillAdvance o.pool g pos
      | .scrubRepair _ =>
        if o.stage = 1 then
          let d := d.rereadRepair o
          match d.op oid with
          | some o => if o.phase == .writing && o.writes.isEmpty then d.endRepair o else d
          | none => d
        else d.endRepair o
      | _ => d.endOp o

/-- Drives an operation as far as it goes, its end included. -/
def Dev.go (d : Dev) (oid : Nat) : Dev := (d.drive oid).writesDone oid

/-! ### Reads -/

/-- An operation goes on after a row of it was answered: the data wakes its cluster (R368). -/
def Dev.rowAnswered (d : Dev) (oid : Nat) : Dev :=
  match d.op oid with
  | none => d
  | some o => if o.phase != .reading then d else (d.wakeCluster o.cluster).go oid

/-- Blocks of an operation's rows that a member did not deliver good: no decode of the operation selects their fragments again (R91, R93,
R255). -/
def Dev.opReadBad (d : Dev) (refs : List BlkRef) : Dev :=
  let d : Dev := refs.foldl (fun (d : Dev) b =>
    (d.updRow b.op b.row fun r => { r with asked := r.asked.filter (· ≠ b.frag), bad := r.bad ++ [b.frag] }).updOp b.op fun o =>
      { o with failed := (o.failed ++ [b.frag]).eraseDups }) d
  ((refs.map (·.op)).eraseDups).foldl (fun (d : Dev) x => d.rowAnswered x) d

/-- A block of an operation's row read good. -/
def Dev.opReadGood (d : Dev) (b : BlkRef) (data : Block) (gen : Nat) (blank lostZero : Bool) : Dev :=
  d.updRow b.op b.row fun r =>
    { r with asked := r.asked.filter (· ≠ b.frag),
             got := (r.got.filter (·.frag ≠ b.frag)) ++ [GotBlock.mk b.frag data gen blank lostZero] }

/-- Whether a degraded read of a block runs for a host command. -/
def Dev.decoding (d : Dev) (cmd pool s : Nat) (b : BlkRef) : Bool :=
  d.ops.any fun o => o.kind == .degraded cmd && o.pool == pool && o.stripe == s &&
    o.rows.any fun r => r.row == b.row && r.want.contains b.frag

/-- Blocks of a host read that its member read did not deliver (R255, R256): each is decoded, waits for the decode that
races it, or is lost (R260) where that decode has ended unrecoverable. -/
def Dev.hostReadBad (d : Dev) (cmd : Nat) (c : MCmd) (refs : List BlkRef) : Dev :=
  match d.cmd cmd with
  | none => d
  | some h => match d.poolOf h.epoch c.pool with
  | none => d
  | some p =>
    let lbaOf := fun (b : BlkRef) => (d.blockOwner h.epoch p c.pool c.stripe b.frag b.row).map (·.2)
    let open_ := refs.filter fun b => match lbaOf b with
      | some l => !h.got.any (·.1 = l)
      | none => false
    let todo := open_.filter fun b => !d.decoding cmd c.pool c.stripe b
    if h.raced.contains c.id then
      let rows := h.unrecRows.filter fun u => u.pool == c.pool && u.stripe == c.stripe && todo.any fun b => b.row == u.row
      let d : Dev := rows.foldl (fun (d : Dev) u => (d.loseBlocks h.epoch p u.pool u.stripe u.row u.frags).markStripe u.pool u.stripe) d
      todo.foldl (fun (d : Dev) b => match lbaOf b with
        | some l => d.deliver cmd l .lost
        | none => d) d
    else if todo.isEmpty then d
    else d.startDegraded cmd c.pool c.stripe (todo.map fun b => (b.frag, b.row))

/-- Blocks of a member read that were not delivered good. -/
def Dev.readBad (d : Dev) (c : MCmd) (refs : List BlkRef) : Dev :=
  if refs.isEmpty then d
  else match c.user with
    | .host cmd => d.hostReadBad cmd c refs
    | .op => d.opReadBad refs
    | _ => d

/-! ### Tag blocks that a further command reads (R303) -/

/-- The last tag group of a read. -/
def MCmd.lastGroup (c : MCmd) : Nat := (c.block + c.count - 1) / 255

/-- The blocks of a read before its last tag group, and those in it. -/
def MCmd.splitLast (c : MCmd) : List BlkRef × List BlkRef :=
  let n := (List.range c.refs.length).filter fun i => (c.block + i) / 255 != c.lastGroup
  (c.refs.take n.length, c.refs.drop n.length)

/-- A further command for a tag block has failed: the blocks of that group fail as a read does. -/
def Dev.pairFailed (d : Dev) (id : Nat) : Dev :=
  match d.mcmds.find? (·.pair = some id) with
  | none => d
  | some c =>
    if c.phase = .answered then Dev.readBad { d with mcmds := d.mcmds.filter (·.id ≠ c.id) } c c.refs
    else
      let cut := fun (x : MCmd) => { x with refs := c.splitLast.1, pair := none }
      Dev.readBad { d with mcmds := updWhere (fun (x : MCmd) => x.id == c.id) cut d.mcmds } c c.splitLast.2

/-! ### Writes -/

/-- A write of an operation no longer counts: acknowledged, or its position no longer resolves (R221, R222). -/
def Dev.writeGone (d : Dev) (id : Nat) (refs : List BlkRef) : Dev :=
  let ops := (refs.map (·.op)).eraseDups
  let d : Dev := ops.foldl (fun (d : Dev) oid =>
    d.updOp oid fun o => { o with writes := o.writes.filter (· ≠ id) }) d
  ops.foldl (fun (d : Dev) oid => d.writesDone oid) d

/-- Whether a place is one that a write command covers: a data block of it, or a data block of the tag group it updates. -/
def MCmd.coversLoc (c : MCmd) (p : PoolCfg) (l : Loc) (row : Nat) : Bool :=
  let b := p.blockOf l.slot row
  l.member == c.member && (if c.kind = .tagWrite then b / 255 == c.block else decide (c.block ≤ b ∧ b < c.block + c.count))

/-- Whether the blocks of a write still belong where it put them (R221): the fragment still resolves there, or the place is
an operation's own target. -/
def Dev.stillThere (d : Dev) (c : MCmd) : Bool :=
  let st := (d.mbr c.member).st
  st.active &&
  c.refs.all fun b => match d.op b.op with
    | none => false
    | some o => match d.opPool o with
      | none => false
      | some p =>
        (match (d.resolve p o.pool o.stripe b.frag).loc? with | some l => c.coversLoc p l b.row | none => false) ||
        (match o.kind with
          | .resync m => m == c.member
          | .relocate | .unrecRepair => st == .online && o.targets.any fun t => t.2.1 == c.member
          | .fill _ => c.coversLoc p ⟨(p.place o.stripe b.frag).member, (p.place o.stripe b.frag).slot, false⟩ b.row
          | _ => false)

/-- Records the blocks of a write that was not made (R279), by their places on the member. -/
def Dev.missedWrite (d : Dev) (c : MCmd) : Dev :=
  if c.kind = .tagWrite then d.missed c.pool c.member (255 * c.block)
  else (List.range c.count).foldl (fun (d : Dev) i => d.missed c.pool c.member (c.block + i)) d

/-- The destages of a write that is not made because of its member's state have skipped that member (R250). -/
def Dev.skipMember (d : Dev) (c : MCmd) : Dev :=
  ((c.refs.map (·.op)).eraseDups).foldl (fun (d : Dev) oid =>
    d.updOp oid fun o => { o with skipped := (o.skipped ++ [c.member]).eraseDups }) d

/-- A zeroing job loses the command that a failure ended (R307); one that clears tag entries begins again. -/
def Dev.zeroFailed (d : Dev) (id : Nat) : Dev :=
  let clear := fun (z : ZeroJob) => { z with issued := none, done := if z.tags.isSome then 0 else z.done }
  { d with arm := { d.arm with zeroing := updWhere (fun z => z.issued == some id) clear d.arm.zeroing } }

/-- A write whose position no longer resolves is not made, and no longer counts (R221, R250, R279). -/
def Dev.dropWrite (d : Dev) (c : MCmd) : Dev := (((d.missedWrite c).skipMember c).zeroFailed c.id).writeGone c.id c.refs

/-- Issues a failed write again under a new identifier, in its place among the commands (R305, R591), or drops it where its position no
longer resolves. One that no operation wants any more ends. -/
def Dev.retryWrite (d : Dev) (c : MCmd) : Dev :=
  if c.user == .none || (c.kind == .write && c.refs.isEmpty) then d.release c
  else if d.stillThere c then
    let d := if c.sillage && c.phase == .outstanding then d.silAccount c.member else d
    let (id, d) := d.fresh
    let again := fun (_ : MCmd) => { c with id := id, phase := .waiting }
    let d := { d with mcmds := updWhere (fun (x : MCmd) => x.id == c.id) again d.mcmds }
    let job := fun (z : ZeroJob) => { z with issued := some id }
    let d := { d with arm := { d.arm with zeroing := updWhere (fun z => z.issued == some c.id) job d.arm.zeroing } }
    let d : Dev := (c.refs.map (·.op)).eraseDups.foldl (fun (d : Dev) oid =>
      d.updOp oid fun o => { o with writes := (o.writes.filter (· ≠ c.id)) ++ [id] }) d
    d.pump c.member
  else (d.release c).dropWrite c

/-- The identifier of a command that had failed internally is released, and a write goes on (R590, R591). -/
def Dev.releaseOne (d : Dev) (c : MCmd) : Dev :=
  match c.kind with
  | .write | .tagWrite => d.retryWrite c
  | .zeroes => (d.release c).zeroFailed c.id
  | _ => d.release c

/-- A member's commands that its departure ends (R592): one that was still waiting is gone, the identifier of one that was outstanding
stays held until R590 releases it. -/
def Dev.quietCmd (d : Dev) (c : MCmd) : Dev :=
  if c.phase = .waiting ∨ c.phase = .answered then { d with mcmds := d.mcmds.filter (·.id ≠ c.id) }
  else
    let d := if c.sillage && c.phase == .outstanding then d.silAccount c.member else d
    let quiet := fun (x : MCmd) => { x with phase := .held, refs := [], user := .none, pair := none }
    { d with mcmds := updWhere (fun (x : MCmd) => x.id == c.id) quiet d.mcmds }

/-- A write of a departing member keeps its blocks, and its identifier is held if it was outstanding. -/
def Dev.holdWrite (d : Dev) (c : MCmd) : Dev :=
  let d := if c.sillage && c.phase == .outstanding then d.silAccount c.member else d
  let hold := fun (x : MCmd) => if x.phase = .outstanding then { x with phase := .held } else x
  { d with mcmds := updWhere (fun (x : MCmd) => x.id == c.id) hold d.mcmds }

/-! ### Visibility of resolved-row writes (R123, R361) -/

/-- Lines whose EXC bits a change of the exceptions of some fragments has changed. -/
def Dev.excLines (d d' : Dev) (es : List ExcEntry) : List RowKey :=
  (es.flatMap fun e => d.rowArms.filterMap fun a => match a.pool e.pool with
    | none => none
    | some c =>
      let g := c.group e.stripe
      let pos := c.position e.stripe e.frag
      if d.excBit c e.pool g pos == d'.excBit c e.pool g pos then none else some (rowLine e.pool g a.epoch pos)).eraseDups

/-- The operations end whose exception entries are written and visible (table 6-5 steps 6 and 7; R139, R283). -/
def Dev.endExcOps (d : Dev) (ops : List Nat) : Dev :=
  ops.foldl (fun (d : Dev) oid => match d.op oid with
    | none => d
    | some o =>
      let g := match d.opPool o with | some c => c.group o.stripe | none => 0
      let d := d.endOp o
      match o.kind with
      | .unrecRepair => d.unmarkStripe o.pool o.stripe
      | .fill pos => d.fillAdvance o.pool g pos
      | _ => d) d

/-- Does what awaited the exception-entry writes that are now globally visible (R361); a rebuilt line holds no operation any more (R171). -/
def Dev.rowsVisible (d : Dev) : Dev :=
  let due := fun (w : RowWrite) => w.left.isEmpty && (match w.act with | .endOps _ | .rebuilt _ => true | _ => false)
  let now := d.fab.rowWrites.filter due
  let d := { d with fab := { d.fab with rowWrites := d.fab.rowWrites.filter fun w => !due w } }
  now.foldl (fun (d : Dev) w => match w.act with
    | .endOps ops => d.endExcOps ops
    | _ => d) d

/-- Exception entries take effect: they are written or cleared, their rows are written, and operations wait for that (R123, R127). -/
def Dev.applyExcs (d : Dev) (es : List ExcEntry) (insert : Bool) (ops : List Nat) : Dev :=
  let d' : Dev := es.foldl (fun (d : Dev) e => if insert then d.putExc e else d.delExc e) d
  (d'.writeRows (d.excLines d' es) (.endOps ops)).rowsVisible

/-! ### Operations that a line holds (table 4-4) -/

/-- The keys of an operation's resolved row: one for each segment (R121). -/
def Dev.opKeys (d : Dev) (o : Op) : List RowKey :=
  match d.opPool o with
  | none => []
  | some c => (List.range (rowSegments c.code.width)).map fun n => ⟨o.pool, c.group o.stripe, o.epoch, n⟩

/-- An operation that has its resolved row begins to read (R352), unless an uncorrectable line holds it. -/
def Dev.lookedUp (d : Dev) (oid : Nat) : Dev :=
  match d.op oid with
  | none => d
  | some o => if d.stripeHeld o.pool o.stripe o.epoch then d else (d.updOp oid fun o => { o with phase := .reading }).go oid

/-- Operations that an uncorrectable line held go on once it is rebuilt (table 4-4). -/
def Dev.resumeLines (d : Dev) : Dev :=
  (d.ops.filter fun o => o.phase == .waitElb && !(d.region (regionOf o.cluster)).awaits o.id).foldl (fun (d : Dev) o => d.lookedUp o.id) d

/-! ### Exception lines rebuilt from the plinth (table 4-4, R150, R173) -/

/-- The area of the newer exception checkpoint (R150). -/
def PDir.newestArea (p : PDir) : Option (Nat × PArea) :=
  if p.exc0.number = 0 ∧ p.exc1.number = 0 then none
  else if p.exc0.number < p.exc1.number then some (1, p.exc1) else some (0, p.exc0)

/-- Where a member holds a block of the newer exception checkpoint: the plinth pool, its configuration, the stripe and the place. -/
def Dev.excAt (d : Dev) (m i : Nat) : Option (Nat × PoolCfg × Nat × Loc) :=
  match d.arm.active, d.arm.plinth.dir.newestArea with
  | some a, some (n, _) => match a.plinthCfg with
    | none => none
    | some (p, c) =>
      let s := plinthExcAt c a.excCapacity n + i / c.fragBlocks
      match (List.range c.code.width).find? fun f => (c.place s f).member == m with
      | none => none
      | some f => match d.resolve c p s f with
        | .readable l => some (p, c, s, l)
        | _ => none
  | _, _ => none

/-- Blocks of the newer exception checkpoint. -/
def Dev.excBlocks (d : Dev) : Nat :=
  match d.arm.plinth.dir.newestArea with
  | some (_, a) => ceilDiv (16 * a.count) 4096
  | none => 0

/-- The next plinth copy for a rebuild: of the members not yet tried that hold a readable one, that of least queue depth (R88, R799). -/
def Dev.fixNext (d : Dev) (fx : LineFix) : Option Nat :=
  let ms := match d.arm.active with | some a => a.plinthMembers | none => []
  let there := ms.filter fun m => !fx.tried.contains m && (d.excAt m 0).isSome
  (there.mergeSort fun x y => decide (d.queueDepth x < d.queueDepth y ∨ (d.queueDepth x = d.queueDepth y ∧ x ≤ y))).head?

/-- Reads the next blocks of the checkpoint from a rebuild's copy: as many as lie in one fragment and one command moves (R587). -/
def Dev.fixAsk (d : Dev) (fx : LineFix) : Dev :=
  let i := fx.got.length
  match d.excAt fx.member i with
  | none => d
  | some (p, c, s, l) =>
    let n := min (min (c.fragBlocks - i % c.fragBlocks) (d.excBlocks - i)) (max 1 (d.mdts fx.member))
    let (id, d) := d.submit (MCmd.new l.member .plinthRead .ckpt p s (c.blockOf l.slot (i % c.fragBlocks)) n l.spare [] [] false)
    { d with arm := { d.arm with fixes := d.arm.fixes ++ [{ fx with cmd := id }] } }

/-- A rebuild of an exception line goes to its next plinth copy. With none left its two entries are cleared, and the fragments resolve by
their placed positions (R173). -/
def Dev.fixCopy (d : Dev) (fx : LineFix) : Dev :=
  match d.fixNext fx with
  | some m => d.fixAsk { fx with member := m, tried := fx.tried ++ [m], got := [] }
  | none => (d.applyExcs (d.arm.excs.filter fun e => fx.keys.contains (e.pool, e.stripe, e.frag)) false []).resumeLines

/-- Starts the rebuild of an exception line. With no block of a checkpoint to read, the journal's exception records supply it at once. -/
def Dev.fixBegin (d : Dev) (keys : List (Nat × Nat × Nat)) : Dev := if d.excBlocks = 0 then d else d.fixCopy ⟨keys, 0, 0, [], []⟩

/-- The tag of the `i`-th block of a read: its metadata, or its entry of a tag block that passes check 2 (R302). -/
def Dev.tagAt (d : Dev) (c : MCmd) (tags : List (BitVec 128)) (tagBlocks : List (Nat × Block)) (i : Nat) : BitVec 128 :=
  let blk := c.block + i
  if d.tagSect c.member then
    match AMap.get tagBlocks (blk / 255) with
    | some tb => if tagBlockOk (blk / 255) tb then tagBlockEntry tb (blk % 255) else 0
    | none => 0
  else tags.getD i 0

/-- A plinth read for a rebuild has ended. Once the whole checkpoint is there and valid, the line is rebuilt from it and from the journal's
later exception records, as it stood (log entry 120), and the operations of its pools go on; a copy that cannot give it leaves the next. -/
def Dev.fixData (d : Dev) (c : MCmd) (ok : Bool) (blocks : List Block) (tags : List (BitVec 128)) (tagBlocks : List (Nat × Block)) : Dev :=
  match d.arm.fixes.find? (·.cmd = c.id) with
  | none => d
  | some fx =>
    let d := { d with arm := { d.arm with fixes := d.arm.fixes.filter (·.cmd ≠ c.id) } }
    let fx := { fx with got := fx.got ++ (List.range c.count).map fun i => (blocks.getD i 0, d.tagAt c tags tagBlocks i) }
    if !ok then d.fixCopy fx
    else if fx.got.length < d.excBlocks then d.fixAsk fx
    else match d.arm.active, d.arm.plinth.dir.newestArea with
      | some a, some (n, area) =>
        let r : PlinthRead := ⟨fx.member, [], [], [], if n = 0 then fx.got else [], if n = 0 then [] else fx.got, [], []⟩
        if (d.readExcArea a [r] area n).isSome then d.resumeLines else d.fixCopy fx
      | _, _ => d.resumeLines

/-! ### Commands that fail internally (R590, R592) -/

/-- A command fails internally while its identifier stays held (R590, R592): reads fail now; writes are recorded as missed and
issued again at the release. -/
def Dev.failHeld (d : Dev) (c : MCmd) : Dev :=
  match c.kind with
  | .read =>
    let quiet := fun (m : MCmd) => { m with refs := [], user := .none, pair := none }
    Dev.readBad { d with mcmds := updWhere (fun (m : MCmd) => m.id == c.id) quiet d.mcmds } c c.refs
  | .tagRead => d.pairFailed c.id
  | .plinthRead => (d.quietCmd c).fixData c false [] [] []
  | .write | .tagWrite => d.missedWrite c
  | _ => d

/-- Every command of a member fails internally at once, its identifiers held until R590 releases them (R592). Reads go on elsewhere. A write
whose position still resolves waits to be issued again (R591); any other is dropped. -/
def Dev.failAll (d : Dev) (m : Nat) : Dev :=
  (d.mcmds.filter fun c => c.member == m && c.kind.isIo).foldl (fun (d : Dev) c0 => match d.mcmd c0.id with
    | none => d
    | some c => match c.kind with
      | .read => (d.quietCmd c).readBad c c.refs
      | .write | .tagWrite =>
        if d.stillThere c then (d.missedWrite c).holdWrite c else (d.quietCmd c).dropWrite c
      | .zeroes => (d.quietCmd c).zeroFailed c.id
      | .plinthRead => (d.quietCmd c).fixData c false [] [] []
      | _ => d.quietCmd c) d

/-! ### Commitment (R199 to R202) -/

/-- What follows a host command's last group (R201, R202): its completion, or the wait for retirement under FUA. -/
def Dev.hostGroupDone (d : Dev) (cmd : Nat) : Dev :=
  let d := d.updCmd cmd fun c => { c with groupsLeft := c.groupsLeft - 1 }
  match d.cmd cmd with
  | some c => if c.groupsLeft = 0 then (if c.fua then d.fuaDone else d.finish cmd .success 0) else d
  | none => d

/-- Destages that wait for what is now admitted or committed end (R250, R276). -/
def Dev.gathered (d : Dev) : Dev :=
  (d.ops.filter fun o => o.kind == .destage && o.phase == .gather).foldl (fun (d : Dev) o => d.finishDestage o) d

/-- A RECON group of a destage is committed (R218): once all of its groups are, its writes go out, under the generation of the records it
then carries (R225). -/
def Dev.reconCommitted (d : Dev) (oid : Nat) (seqs : List Nat) : Dev :=
  let d := d.updOp oid fun o =>
    { o with recs := o.recs ++ seqs, gen := genOf ((seqs ++ o.recs ++ o.arecs).foldl max 0), recons := o.recons - 1 }
  match d.op oid with
  | none => d
  | some o => match d.opPool o with
    | some c => if o.phase == .waitCommit && o.recons == 0 then (d.sendDestage c o).writesDone oid else d
    | none => d

/-- What a group's commitment lets go on (R127, R218, R222, R233, R250). -/
def Dev.committed (d : Dev) (g : JGroup) : Dev :=
  let mine := d.jnl.recs.filter (·.first = g.first)
  let excs := (mine.flatMap (·.entries)).filterMap fun e => match e with | .exc x => some x | _ => none
  match g.use with
  | .host cmd => d.hostGroupDone cmd
  | .recon oid => d.reconCommitted oid (mine.map (·.seq))
  | .excInsert ops => d.applyExcs excs true ops
  | .excDelete ops => d.applyExcs excs false ops
  | .memberState => d.gathered
  | .lost seqs =>
    let stripes := ((d.jnl.recs.filter fun r => seqs.contains r.seq).map fun r => (r.pool, r.stripe)).eraseDups
    stripes.foldl (fun (d : Dev) x => d.repairHeld x.1 x.2) (d.retire seqs)
  | .lostFor _ | .other => d

/-- Whether a group's mirror copy is in place, or none is asked for (R199, R201); a JOINING package holds its completions
(table 14-2) but commits its groups locally (R610). -/
def Dev.mirrored (d : Dev) (g : JGroup) : Bool :=
  let last := g.first + g.count - 1
  if d.mirroring then decide (last ≤ d.g Reg.ACD_ACKED_SEQ)
  else if d.acdState == 1 then (match g.use with | .host _ => false | _ => true)
  else if d.acdState == 4 then false
  else if d.acdState == 3 then d.acd.fenceInPlace
  else true

/-- Commits every group whose copies are now in place, in order of sequence (R199, R201). -/
def Dev.commitReady (d : Dev) : Dev :=
  let ready := (d.jnl.groups.filter fun g => g.published && !g.committed && d.mirrored g).map (·.first)
  ready.foldl (fun (d : Dev) f =>
    match d.jnl.groups.find? (·.first = f) with
    | none => d
    | some g =>
      let mark := fun (x : JGroup) => { x with committed := true }
      Dev.committed { d with jnl := { d.jnl with groups := updWhere (fun (x : JGroup) => x.first == f) mark d.jnl.groups } } g) d

/-- A group's local copies are in place (R198, R200): it is published, and commits where nothing else is asked. -/
def Dev.publish (d : Dev) (first : Nat) : Dev :=
  let pub := fun (x : JGroup) => { x with published := true }
  let place := fun (r : JRec) => { r with inPlace := true }
  Dev.commitReady { d with jnl := { d.jnl with
    groups := updWhere (fun (x : JGroup) => x.first == first) pub d.jnl.groups
    recs := updWhere (fun (r : JRec) => r.first == first) place d.jnl.recs } }

end Sys2Proof.Machine
end

