-- ==== Sys2Proof/Machine/MemberState.lean ====
section
/-!
DEFINITION. The member state machine (R243 to R253): the window of health events, the transitions of table 6-3 with what each
does to commands, departure marks, dirty-region logs and MEMBER_STATE records, and the zeroing of extents that waits on
member states (R307).
-/
namespace Sys2Proof.Machine

/-! ### The window (R245, R246) -/

/-- Health events of one kind in a member's window, the last WINDOW_S seconds. -/
def Dev.window (d : Dev) (m : Nat) (h : Health) : Nat :=
  let w := max 1 (d.g Reg.SIL_SUSPECT_WINDOW_S) * 1000000
  ((d.mbr m).window.filter fun e => e.2 == h && decide (d.now ≤ e.1 + w)).length

/-- The slow threshold of a member, in microseconds (table 6-2, R584). -/
def Dev.slowUs (d : Dev) (m : Nat) : Nat :=
  1000 * max 1 (if d.rot m then d.g Reg.SIL_SLOW_ROT_MS else d.g Reg.SIL_SLOW_FLASH_MS)

/-- Whether a command has passed its member's slow threshold. -/
def Dev.isSlow (d : Dev) (c : MCmd) : Bool := decide (d.slowUs c.member < d.now - c.submitUs)

/-- The part of the fail condition that holds, as a cause (R246). -/
def Dev.failCause (d : Dev) (m : Nat) : Option Cause :=
  if max 1 (d.g Reg.SIL_FAIL_TIMEOUT_FAIL) ≤ d.window m .tmo then some .timeout
  else if max 1 (d.g Reg.SIL_FAIL_ERR_FAIL) ≤ d.window m .err then some .media
  else
    let s := d.g Reg.SIL_FAIL_SLOW_FAIL
    if (d.mbr m).st = .suspect ∧ s ≠ 0 ∧ s ≤ d.window m .slow then some .slow else none

/-! ### Zeroing (R307) -/

/-- LBAs that one Write Zeroes command covers at most (its 16-bit block count). -/
def zeroChunk : Nat := 65536

/-- One step of a zeroing job: skipped on a FAILED or RETIRED member, with its LBAs recorded (R279), waiting on an ABSENT one, issued
otherwise. -/
def Dev.zeroOne (d : Dev) (z : ZeroJob) : Dev :=
  let here := fun (x : ZeroJob) => x.pool == z.pool && x.member == z.member && x.lba == z.lba && x.ns == z.ns
  let put := fun (d : Dev) (f : ZeroJob → ZeroJob) =>
    { d with arm := { d.arm with zeroing := updWhere here f d.arm.zeroing } }
  if z.finished || z.issued.isSome then d
  else match (d.mbr z.member).st with
    | .failed | .retired =>
      let d := d.drlSet z.member z.lba z.total
      put d fun x => { x with finished := true, skipped := true }
    | .absent => d
    | _ =>
      let n := min zeroChunk (z.total - z.done)
      let (id, d) := d.submit (MCmd.new z.member .zeroes (.init z.pool) z.pool 0 (z.lba + z.done) n false [] [] false)
      put d fun x => { x with issued := some id }

/-- Drops the zeroing work of pools and namespaces that is complete; a namespace made ready raises a Namespace Attribute Changed
notice (R492 step 4), and ITG_STATUS.INITIALISING is brought up to date. -/
def Dev.zeroTidy (d : Dev) : Dev :=
  let open_ := fun (z : ZeroJob) => d.arm.zeroing.any fun x => x.pool == z.pool && x.ns == z.ns && !x.finished
  let busy := fun (n : Nat × Nat) => d.arm.zeroing.any fun x => x.ns == n.1 && !x.finished
  let ready := (d.arm.nsReady.filter fun n => !busy n).map (·.1)
  let d := { d with arm := { d.arm with zeroing := d.arm.zeroing.filter open_, nsReady := d.arm.nsReady.filter busy } }
  let d : Dev := ready.foldl (fun (d : Dev) n => d.nsChanged n) d
  d.p Reg.ITG_STATUS_INITIALISING (if d.arm.zeroing.any fun z => z.ns == 0 then 1 else 0)

/-- Moves every extent's zeroing on as far as it goes. -/
def Dev.zeroPump (d : Dev) : Dev := (d.arm.zeroing.foldl (fun (d : Dev) z => d.zeroOne z) d).zeroTidy

/-- The tag block update that follows the zeroing of data blocks which share their tag block with others (R304): their entries clear. -/
def Dev.zeroTags (d : Dev) (z : ZeroJob) (tagBlocks : List (Nat × Block)) : Dev :=
  match z.tags with
  | none => d
  | some (g, j) =>
    let cur := (AMap.get tagBlocks g).getD 0#32768
    let blank := (List.range z.total).map fun i => (j + i, 0#128)
    let (id, d) := d.submit (MCmd.new z.member .tagWrite (.init z.pool) z.pool 0 g 1 false [] [(tagBlockMerge g cur blank, 0#128)] false)
    let here := fun (x : ZeroJob) => x.pool == z.pool && x.member == z.member && x.lba == z.lba && x.ns == z.ns
    let put := fun (x : ZeroJob) => { x with issued := some id, done := x.total }
    { d with arm := { d.arm with zeroing := updWhere here put d.arm.zeroing } }

/-- A Write Zeroes command of `n` LBAs, or the tag block update after it, was acknowledged; `tagBlocks` are the member's tag blocks as they
stand. -/
def Dev.zeroDone (d : Dev) (id n : Nat) (tagBlocks : List (Nat × Block)) : Dev :=
  match d.arm.zeroing.find? (·.issued == some id) with
  | none => d
  | some z =>
    let last := decide (z.total ≤ z.done + n)
    if last && z.tags.isSome && z.done < z.total then (d.zeroTags z tagBlocks).zeroPump
    else
      let step := fun (z : ZeroJob) => { z with issued := none, done := z.done + n, finished := last }
      Dev.zeroPump { d with arm := { d.arm with zeroing := updWhere (fun z => z.issued == some id) step d.arm.zeroing } }

/-! ### Transitions (table 6-3) -/

/-- The head a departure mark takes (R231, R619). -/
def Dev.departHead (d : Dev) : Nat :=
  if d.solo then d.head
  else match d.acd.peer with
    | some p => min d.head p.head
    | none => d.head

/-- A MEMBER_STATE entry of a member as it stands (table 5-5). -/
def Dev.stateEntry (d : Dev) (m : Nat) : MetaEntry :=
  let x := d.mbr m
  .mst m x.st x.resyncDrl x.labelPending x.cause (x.mark.getD 0)

/-- Admits a MEMBER_STATE record for members (R250, R582); in an accord the steward alone does (table 14-4). -/
def Dev.offerStates (d : Dev) (ms : List Nat) : Dev :=
  if d.steward && !ms.isEmpty then d.offerMeta .memberState (ms.map d.stateEntry) .memberState else d

/-- Abandons, before their writes are acknowledged, relocations whose target member left ONLINE (R269), and, where it is no longer written,
the resynchronisation and the fills of a member. -/
def Dev.abandonOps (d : Dev) (m : Nat) : Dev :=
  let off := !(d.mbr m).st.active
  let gone := d.ops.filter fun o => o.phase != .gather && (match o.kind with
    | .relocate | .unrecRepair => o.targets.any fun t => t.2.1 == m
    | .resync x => x == m && (d.mbr m).st != .rebuilding
    | .fill pos => off && (match d.opPool o with
      | some c => (c.place o.stripe (c.fragAt o.stripe pos)).member == m
      | none => false)
    | _ => false)
  gone.foldl (fun (d : Dev) o => ((d.forgetCmds o.id).forgetFills o.id).endOp o) d

/-- The resynchronisation of a member starts or ends with REBUILDING. -/
def Dev.resyncList (d : Dev) (m : Nat) (start : Bool) : Dev :=
  let rest := d.sil.resync.filter (·.member ≠ m)
  { d with sil := { d.sil with resync := if start then rest ++ [⟨m, none, false, 0, 0⟩] else rest } }

/-- Moves a member to a state, with everything that follows (R123, R248, R250, R278, R281, R527, R592): `gain` sets the departure
mark to the head unless one is held; `clear` clears the window. -/
def Dev.setState (d : Dev) (m : Nat) (st : MSt) (cause : Cause) (gain clear : Bool) : Dev :=
  let was := d.silCriticalFlag
  let old := d.mbr m
  let up := st == .online || st == .retired
  let mark := if up then none else if gain then some (old.mark.getD d.departHead) else old.mark
  let new := fun (x : Mbr) =>
    { x with st := st, cause := if st = .failed then cause else x.cause, mark := mark,
             drl := if up then none else x.drl, resyncDrl := if up then false else x.resyncDrl,
             window := if clear then [] else x.window, absentUs := if st = .absent then d.now else x.absentUs,
             doneRegions := 0, awaitId := x.awaitId && st.active,
             resetting := if st = .failed then 1 else x.resetting }
  let d := d.updMbr m new
  let d := if old.mark.isNone && mark.isSome then d.drlOpen m else d
  let d := d.event 0x0401 1 (leBytes 2 m ++ leBytes 1 old.st.code ++ leBytes 1 st.code ++ leBytes 1 (if st = .failed then cause.code else 0))
  let d := d.offerStates [m]
  let d := d.vendorEvent 0
  let d := if old.st.disp == st.disp then d else d.writeRows (d.linesOfMember m) .none
  let d := d.resyncList m (st == .rebuilding)
  let d := if st != .online then d.abandonOps m else d
  let d := if old.st.active && !st.active then d.failAll m else d
  let d := if st = .failed then d.emit (.memberReset 0 m) else d
  let d := if st = .online then { d with sil := { d.sil with noSpare := d.sil.noSpare.filter fun x =>
      (match d.pool x.1 with | some c => (c.extent m).isNone | none => true) } } else d
  (((d.zeroPump).pump m).firstImage).criticalNotice was

/-- One member event in the steward's state machine (table 6-3): TMO, ERR or SLOW. -/
def Dev.applyHealth (d : Dev) (m : Nat) (h : Health) : Dev :=
  let st := (d.mbr m).st
  if !st.active then d
  else
    let d := d.updMbr m fun x => { x with window := x.window ++ [(d.now, h)], lastHealthUs := d.now }
    match d.failCause m with
    | some c =>
      if st = .online ∧ h = .slow then d else d.setState m .failed c (st != .rebuilding) false
    | none =>
      if st = .online then
        if h != .slow || decide (max 1 (d.g Reg.SIL_SUSPECT_SLOW_ENTER) ≤ d.window m .slow) then
          d.setState m .suspect .none false false
        else d
      else d

/-- An ONLINE member whose window already meets the fail condition through SLOW events alone stays as table 6-3 says: SLOW
makes it SUSPECT at SLOW_ENTER. -/
def Dev.applySlow (d : Dev) (m : Nat) : Dev :=
  let st := (d.mbr m).st
  let d := d.applyHealth m .slow
  if st = .online ∧ (d.mbr m).st = .online ∧ max 1 (d.g Reg.SIL_SUSPECT_SLOW_ENTER) ≤ d.window m .slow then
    d.setState m .suspect .none false false
  else d

/-- RPT (table 6-3). -/
def Dev.applyRpt (d : Dev) (m : Nat) : Dev :=
  match (d.mbr m).st with
  | .online | .suspect => d.setState m .failed .reported true false
  | .rebuilding => d.setState m .failed .reported false false
  | _ => d

/-- GONE (table 6-3). -/
def Dev.applyGone (d : Dev) (m : Nat) : Dev :=
  match (d.mbr m).st with
  | .online | .suspect => d.setState m .absent .none true false
  | .rebuilding => d.setState m .absent .none false false
  | _ => d

/-- Automatic readmissions of a member in the last 24 h. -/
def Dev.readmitCount (d : Dev) (m : Nat) : Nat :=
  ((d.mbr m).readmits.filter fun t => decide (d.now ≤ t + 86400000000)).length

/-- ID (table 6-3, R253). -/
def Dev.applyId (d : Dev) (m : Nat) : Dev :=
  let x := d.mbr m
  match x.st with
  | .absent => if x.mark.isSome then d.setState m .rebuilding .none false false else d.setState m .online .none false false
  | .failed =>
    if (x.cause = .timeout ∨ x.cause = .absentTimeout) ∧ d.readmitCount m < d.g Reg.SIL_RETURN_READMIT_MAX then
      (d.updMbr m fun x => { x with readmits := d.now :: x.readmits }).setState m .rebuilding .none false false
    else d.event 0x0402 2 (leBytes 2 m ++ leBytes 1 x.st.code)
  | .retired => d.event 0x0402 2 (leBytes 2 m ++ leBytes 1 x.st.code)
  | .online | .suspect =>
    let d := d.updMbr m fun x => { x with resetting := if x.resetting = 2 then 0 else x.resetting }
    (if x.awaitId then d.updMbr m fun x => { x with awaitId := false, mark := none, drl := none } else d).pump m
  | .rebuilding => (d.updMbr m fun x => { x with awaitId := false, resetting := if x.resetting = 2 then 0 else x.resetting }).pump m

/-- Codes of member events in MEMBER_EVENT (table 14-7): TMO 0, ERR 1, SLOW 2, RPT 3, GONE 4, ID 5. -/
def Dev.applyEvent (d : Dev) (m code : Nat) : Dev :=
  match code with
  | 0 => d.applyHealth m .tmo
  | 1 => d.applyHealth m .err
  | 2 => d.applySlow m
  | 3 => d.applyRpt m
  | 4 => d.applyGone m
  | 5 => d.applyId m
  | 6 => if (d.mbr m).st = .suspect then d.setState m .online .none false true else d
  | _ => d

/-- A member event met here: applied by the steward, sent to it by its partner (table 14-4). -/
def Dev.memberEvent (d : Dev) (m code : Nat) : Dev :=
  if d.steward then d.applyEvent m code else d.peerSend 0x05 [m, code]

/-- A member takes GONE: its namespace is no longer matched, and R592 applies to its commands. Until the steward has moved the member on, no
command is issued to it. -/
def Dev.memberGone (d : Dev) (m : Nat) : Dev :=
  let d := d.updMbr m fun x => { x with matched := none, resetting := 0 }
  let d := { d with disc := d.disc.filter fun x => !(x.status == 0 && x.member == m) }
  let d := d.p Reg.MBR_DISC_COUNT_COUNT d.disc.length
  let d := d.memberEvent m 4
  if (d.mbr m).st.active then (d.updMbr m fun x => { x with resetting := 2 }).failAll m else d

/-! ### Labels (R582) -/

/-- Writes the label of a joining member that is matched (R151, R582): the steward alone. -/
def Dev.labelMember (d : Dev) (m : Nat) : Dev :=
  let x := d.mbr m
  if d.steward && x.labelPending && x.matched.isSome &&
      !(d.mcmds.any fun c => c.kind == .label && c.member == m) then d.writeLabel m
  else d

/-- A member's label is durable: LABEL_PENDING, where set, clears through a MEMBER_STATE entry (R582), and the plinth writes of a first
commit go on (R800). -/
def Dev.labelDone (d : Dev) (m : Nat) : Dev :=
  let d := if (d.mbr m).labelPending then (d.updMbr m fun x => { x with labelPending := false }).offerStates [m] else d
  d.firstImage

/-! ### Commands of host software (R252) -/

/-- Refuses a SIL_MBR_CMD command. -/
def Dev.silRefuse (d : Dev) : Dev := d.p Reg.SIL_STATUS_CMD_REFUSED 1

/-- A SIL_MBR_CMD command on a member: refused for a member not in the table, before replay, on the partner of a steward, or in
a state table 6-3 does not list. -/
def Dev.silCmd (d : Dev) (req : Requester) (m : Nat) (listed : MSt → Bool) (act : Dev → Dev) : Dev :=
  d.globalCmd req Reg.SIL_MBR_CMD_OP fun d =>
    if d.running && d.steward && decide (m < d.memberTable.length) && listed (d.mbr m).st then act d else d.silRefuse

end Sys2Proof.Machine
end

