-- ==== Sys2Proof/Machine/Fabric.lean ====
section
/-!
DEFINITION. Meanings of the codec fabric rows: dispatch of internal items (R339 to R342), ELB fills and snoops (R352 to R364),
unit retirement (R346 to R350), and the sleep and wake of clusters, regions and dies (R367 to R376).
-/
namespace Sys2Proof.Machine

/-! ### Dispatch -/

/-- Class of an item (R341); a repair that R228 started runs ahead of sillage. -/
def Dev.itemClass (d : Dev) (o : Op) : Nat :=
  match o.kind with
  | .degraded _ => 0
  | .destage => if d.urgent then 1 else 2
  | .scrubRepair true => 3
  | _ => 4

/-- Whether an item is the next to start on its cluster: by class, and within one by arrival at the channel queue (R341). -/
def Dev.nextItem (d : Dev) (o : Op) : Bool :=
  !d.ops.any fun x => x.phase == .waitChannel && x.cluster == o.cluster && x.id != o.id &&
    (decide (d.itemClass x < d.itemClass o) || (d.itemClass x == d.itemClass o && decide (x.arrived < o.arrived)))

/-- The first idle internal channel of a cluster (R340): local channels 16 − COUNT through 15. -/
def Dev.freeInternal (d : Dev) (c : Nat) : Option Nat :=
  let n := d.gClamp Reg.FAB_INTCH_COUNT 1 15
  ((List.range n).map fun i => c * 16 + (16 - n) + i).find? fun ch => d.gi Reg.CHN_STATUS_STATE ch == 0

/-- ITEM_DISPATCH: an internal item whose cluster is in service and whose region is powered starts on a free internal channel
and looks up its resolved row, where a degraded read takes the active epoch (R141) and the entries of the keys `errs` fail their data parity
(R366); an item whose cluster has left service is placed again (R339, R347). -/
def Dev.itemDispatch (d : Dev) (oid : Nat) (errs : List RowKey) : Dev :=
  match d.op oid with
  | none => d
  | some o =>
    if o.phase != .waitChannel then d
    else if !d.inService o.cluster then d.enqueue oid
    else if !d.powered (regionOf o.cluster) then d.enqueue oid
    else if !d.nextItem o then d
    else match d.freeInternal o.cluster with
      | none => d
      | some ch =>
        let d := d.setChannel ch true
        let d := d.wakeCluster o.cluster
        let e := if o.epoch = 0 then d.epoch else o.epoch
        let d := d.updOp oid fun o => { o with phase := .waitElb, channel := ch, epoch := e }
        let (hit, d) := d.elbLookupAll (regionOf o.cluster) oid (d.opKeys { o with epoch := e }) errs
        if hit then d.lookedUp oid else d

/-! ### Snoops -/

/-- SNOOP: a powered region invalidates the entries of a line and poisons its pending fills, then acknowledges (R360); what awaits a write of
the line goes on once every region has (R361). -/
def Dev.snoop (d : Dev) (r : Nat) (k : RowKey) : Dev :=
  if !d.powered r then d
  else
    let poison := fun (f : Fill) => { f with poisoned := true }
    let d := (d.updRegion r fun x =>
      { x with elb := x.elb.filter (·.2.key ≠ k), fills := updWhere (fun (f : Fill) => f.key == k && !f.held) poison x.fills }).emit (.snoopAck r)
    (d.rowAck r k).rowsVisible.resumeLines

/-! ### Units -/

/-- Internal items of a cluster that can no longer run there are placed again (R42, R347). -/
def Dev.reissueCluster (d : Dev) (c : Nat) : Dev :=
  (d.ops.filter fun o => o.cluster == c && (o.channel < 512 || o.phase == .waitChannel)).foldl
    (fun (d : Dev) o => d.reissue o.id) d

/-- Retires a unit (R346, R349, R350); one already retired is left as it is. Cause: 0 parity, 1 mismatch, 2 self-test,
3 host. -/
def Dev.retireUnit (d : Dev) (u cause : Nat) : Dev :=
  if d.fab.retired.contains u ∨ 256 ≤ u then d
  else
    let c := u / 8
    let d := { d with fab := { d.fab with retired := u :: d.fab.retired } }
    let d := (d.pi Reg.FAB_RETIRED_UNITS (u / 32) (d.gi Reg.FAB_RETIRED_UNITS (u / 32) ||| 2 ^ (u % 32))).p Reg.FAB_STATUS_UNIT_RETIRED_SEEN 1
    let d := d.event 0x0601 2 (leBytes 1 u ++ leBytes 1 cause)
    if (d.unitsIn c).isEmpty then (d.p Reg.FAB_STATUS_EXHAUSTED_SEEN 1).reissueCluster c else d

/-- UNIT_FAULT: a parity error (cause 0) or a prediction mismatch (cause 1) retires the unit; the offset in progress is redone on
the next unit in service, which changes no result (R346). -/
def Dev.unitFault (d : Dev) (u : Nat) (mismatch : Bool) : Dev := d.retireUnit u (if mismatch then 1 else 0)

/-- UNIT_RETIRE: the RETIRE command of FAB_UNIT_CMD (R349). -/
def Dev.unitRetire (d : Dev) (req : Requester) (u : Nat) : Dev :=
  d.globalCmd req Reg.FAB_UNIT_CMD_OP fun d => d.retireUnit u 3

/-! ### Sleep and wake -/

/-- Whether NO_SLEEP holds (R373). -/
def Dev.noSleep (d : Dev) : Bool := d.on Reg.FAB_SLEEP_NO_SLEEP

/-- Host channels of a cluster that are running a program (R367). -/
def Dev.clusterBusy (d : Dev) (c : Nat) : Bool :=
  (List.range 16).any fun i => d.gi Reg.CHN_STATUS_STATE (c * 16 + i) == 1 && d.gi Reg.CHN_STATUS_INTERNAL (c * 16 + i) == 0

/-- CLUSTER_HOLD_EXPIRY: a cluster idle for CLUSTER_HOLD_US is clock-gated, unless NO_SLEEP holds (R368, R373). -/
def Dev.clusterHoldExpiry (d : Dev) (c : Nat) : Dev :=
  if d.noSleep || d.clusterBusy c then d else d.updCluster c fun x => { x with gated := true }

/-- Whether a region is quiescent (R369), but for a block reset that R45 makes its power-down wait for. -/
def Dev.quiescent (d : Dev) (r : Nat) : Bool :=
  let cs := (List.range 4).map (4 * r + ·)
  d.powered r && cs.all (fun c => (d.cluster c).gated && d.busyChannels c == 0 && d.itemsWaiting c == 0) &&
  (d.region r).fills.isEmpty && !d.watchMay r

/-- Powers a region off (R369, R372): its ELB is lost, and the PLL of a die with no region on stops. -/
def Dev.regionOff (d : Dev) (r : Nat) : Dev :=
  let d := (d.updRegion r fun x => { x with power := .off, elb := [], tree := [], fills := [], fillWait := [] }).rowForget r
  let die := dieOf r
  if (List.range 4).all fun i => (d.region (4 * die + i)).power == .off then
    { d with fab := { d.fab with pll := updAt die (fun _ => false) d.fab.pll,
                                 pllLocking := d.fab.pllLocking.filter (· ≠ die) } }
  else d

/-- Powers a region off, or has the power-off wait for the end of a block reset (R45, table 8-5). -/
def Dev.regionDown (d : Dev) (r : Nat) : Dev :=
  if d.regionInReset r then { d with fab := { d.fab with offWaits := (d.fab.offWaits ++ [r]).eraseDups } } else d.regionOff r

/-- REGION_HOLD_EXPIRY: a region quiescent for REGION_HOLD_US powers off, unless NO_SLEEP holds a permitted region awake
(R369, R373). -/
def Dev.regionHoldExpiry (d : Dev) (r : Nat) : Dev :=
  if !d.quiescent r || (d.noSleep && d.keptRegions.contains r) then d else d.regionDown r

/-- The power-offs that waited for block resets which have ended (R45): of regions still quiescent, or shed by a dump. -/
def Dev.offsDue (d : Dev) : Dev :=
  let due := d.fab.offWaits.filter fun r => !d.regionInReset r
  let d := { d with fab := { d.fab with offWaits := d.fab.offWaits.filter d.regionInReset } }
  due.foldl (fun (d : Dev) r => if d.g Reg.JNL_STATUS_STATE == 3 || d.quiescent r then d.regionOff r else d) d

/-- REGION_POWER_UP_DONE: a region whose die clock runs is on, its ELB empty and its tree bits 0 (R358, R371). -/
def Dev.regionPowerUpDone (d : Dev) (r : Nat) : Dev :=
  if (d.region r).power != .up || !d.fab.pll.getD (dieOf r) false then d
  else
    d.updRegion r fun x =>
      { x with power := .on, elb := [], tree := [], fills := [], fillWait := [], forRead := false,
               wakes := min (x.wakes + 1) 0xFFFF, readWakes := if x.forRead then min (x.readWakes + 1) 0xFFFF else x.readWakes }

/-- DIE_PLL_LOCK: a stopped die PLL has relocked and its link is active (R372). -/
def Dev.diePllLock (d : Dev) (die : Nat) : Dev :=
  if !d.fab.pllLocking.contains die then d
  else { d with fab := { d.fab with pll := updAt die (fun _ => true) d.fab.pll,
                                    pllLocking := d.fab.pllLocking.filter (· ≠ die) } }

/-- FAB_WATCH_WRITE: the mask is written, and the regions it adds power up at once (R376); from a port that may not write, a
mask that differs from the one read is a violation. -/
def Dev.fabWatchWrite (d : Dev) (req : Requester) (mask : Nat) : Dev :=
  d.globalWr req Reg.FAB_WATCH_MASK (mask != d.g Reg.FAB_WATCH_MASK) fun d =>
    (d.p Reg.FAB_WATCH_MASK mask).watchUp

/-- Wakes every cluster, region and PLL that a limit permits (R371, R373). -/
def Dev.wakeAll (d : Dev) : Dev :=
  let wake := fun (c : Cluster) => { c with gated := false }
  let d := { d with fab := { d.fab with clusters := d.fab.clusters.map wake } }
  (List.range 8).foldl (fun (d : Dev) r => if d.regionAllowed r && d.regionLimit != 0 then d.wakeRegion r false else d) d

/-- NO_SLEEP_WRITE: NO_SLEEP is set and everything wakes (R373). -/
def Dev.noSleepWrite (d : Dev) (req : Requester) : Dev :=
  d.globalWr req Reg.FAB_SLEEP_NO_SLEEP (!d.noSleep) fun d => (d.p Reg.FAB_SLEEP_NO_SLEEP 1).wakeAll

/-- FAB_CLR_COUNTS: the region and ELB statistics of every region clear. -/
def Dev.fabClrCounts (d : Dev) (req : Requester) : Dev :=
  d.globalCmd req Reg.FAB_CTRL_CLR_COUNTS fun d =>
    let clear := fun (x : Region) => { x with wakes := 0, readWakes := 0, hits := 0, misses := 0, poisoned := 0, dataErrs := 0 }
    { d with fab := { d.fab with regions := d.fab.regions.map clear } }

end Sys2Proof.Machine
end

