-- ==== Sys2Proof/Machine/Members.lean ====
section
/-!
DEFINITION. Meanings of the member I/O and member state rows: completions of member reads and writes (R222, R293, R304), the
race of R256, staging grants, and the commands and timers of the member state machine.
-/
namespace Sys2Proof.Machine

/-! ### Read completions -/

/-- The pool configuration a member command's blocks belong to: that of the epoch of its operation or host command. -/
def Dev.cmdPool (d : Dev) (c : MCmd) : Option PoolCfg :=
  match c.user, c.refs with
  | .op, b :: _ => match d.op b.op with
    | some o => d.opPool o
    | none => d.pool c.pool
  | .host cmd, _ => match d.cmd cmd with
    | some h => d.poolOf h.epoch c.pool
    | none => d.pool c.pool
  | _, _ => d.pool c.pool

/-- Records one block that failed check 2, 3 or 4 (R295), or a tag block (R302, kind 3). -/
def Dev.tagError (d : Dev) (kind m lba : Nat) : Dev :=
  let d := match kind with
    | 1 => d.inc Reg.ITG_TAG_ERRS_IDENTITY
    | 2 => d.inc Reg.ITG_TAG_ERRS_ROLE
    | _ => d.inc Reg.ITG_TAG_ERRS_CRC
  let d := (d.p Reg.ITG_STATUS_TAG_ERR_SEEN 1).p Reg.ITG_LAST_TAG_ERR_KIND kind
  (d.p Reg.ITG_LAST_TAG_ERR_MEMBER m).p Reg.ITG_LAST_TAG_ERR_LBA lba

/-- What a member read answers for its `i`-th block: the block, and its tag result. -/
structure BlockIn where
  ref : BlkRef
  data : Block
  res : TagResult
  lba : Nat
deriving DecidableEq, Repr

/-- Checks the `i`-th block of a read (R293, R302): metadata mode takes its tag, tag-sector mode its entry of the tag block
of its group, which a bad tag block fails as check 2. -/
def Dev.checkBlock (d : Dev) (c : MCmd) (p : PoolCfg) (blocks : List Block) (tags : List (BitVec 128))
    (tagBlocks : List (Nat × Block)) (i : Nat) (r : BlkRef) : BlockIn :=
  let b := blocks.getD i 0#32768
  let blk := c.block + i
  let lba := d.blockLba c.pool c.member blk
  let check := fun t => checkTag p.code c.pool c.stripe r.frag c.spare b t
  if d.tagSect c.member then
    match AMap.get tagBlocks (blk / 255) with
    | some tb => ⟨r, b, if tagBlockOk (blk / 255) tb then check (tagBlockEntry tb (blk % 255)) else .bad 3, lba⟩
    | none => ⟨r, b, .bad 3, lba⟩
  else ⟨r, b, check (tags.getD i 0#128), lba⟩

/-- Whether a block failed a check. -/
def BlockIn.failed (x : BlockIn) : Bool := match x.res with | .bad _ => true | _ => false

/-- Hands one good block to who asked for it. -/
def Dev.takeBlock (d : Dev) (c : MCmd) (p : PoolCfg) (x : BlockIn) : Dev :=
  let lz := match x.res with | .good _ z => z | _ => false
  let blank := x.res == .blank
  match c.user with
  | .host cmd => match d.cmd cmd with
    | none => d
    | some h => match d.blockOwner h.epoch p c.pool c.stripe x.ref.frag x.ref.row with
      | none => d
      | some (n, l) =>
        d.deliver cmd l (if lz && d.isLost n l then .lost else if blank || lz then .zero else .cipher x.data)
  | .op => d.opReadGood x.ref x.data (match x.res with | .good g _ => g | _ => 0) blank lz
  | _ => d

/-- Queues a stripe for a scrub ahead of the running pass (R296). -/
def Dev.queueScrub (d : Dev) (pool s : Nat) : Dev :=
  if d.sil.scrubQueue.contains (pool, s) then d
  else { d with sil := { d.sil with scrubQueue := d.sil.scrubQueue ++ [(pool, s)] } }

/-- Whether a read serves a host read or a degraded read (R296). -/
def Dev.servesHost (d : Dev) (c : MCmd) : Bool :=
  match c.user with
  | .host _ => true
  | .op => c.refs.any fun b => match d.op b.op with
    | some o => (match o.kind with | .degraded _ => true | _ => false)
    | none => false
  | _ => false

/-- A late completion (R590 step 2): counted, its identifier released, and a failed write goes on (R591). -/
def Dev.lateCompletion (d : Dev) (c : MCmd) : Dev := (d.inc Reg.MBR_ERRORS_LATE).releaseOne c

/-- One ERR event for each failed block or tag block; with none, a SLOW event where the command was slow (R245). -/
def Dev.readEvents (d : Dev) (m errs : Nat) (slow : Bool) : Dev :=
  if errs = 0 then (if slow then d.memberEvent m 2 else d)
  else (List.range errs).foldl (fun (d : Dev) _ => d.memberEvent m 1) d

/-- Blocks of a read that have arrived with their tags or tag blocks: each is checked, the good ones are passed on, and the others are
counted and served elsewhere (R255, R293, R295, R296, R302). -/
def Dev.takeRead (d : Dev) (c : MCmd) (blocks : List Block) (tags : List (BitVec 128)) (tagBlocks : List (Nat × Block)) (slow : Bool) : Dev :=
  match d.cmdPool c with
  | none => d
  | some p =>
    let ins := c.refs.zipIdx.map fun ri => d.checkBlock c p blocks tags tagBlocks ri.2 ri.1
    let bad := ins.filter (·.failed)
    let good := ins.filter fun x => !x.failed
    let serves := d.servesHost c
    let d : Dev := good.foldl (fun (d : Dev) x => d.takeBlock c p x) d
    let d := if c.user == .op then
        ((good.map (·.ref.op)).eraseDups).foldl (fun (d : Dev) x =>
          if bad.any fun b => b.ref.op == x then d else d.rowAnswered x) d
      else d
    let grp := fun (x : BlockIn) => (c.block + (ins.findIdx fun y => y == x)) / 255
    let tagb := ((bad.filter fun x => x.res == .bad 3).map grp).eraseDups
    let d : Dev := (bad.filter fun x => x.res != .bad 3).foldl (fun (d : Dev) x =>
      d.tagError (match x.res with | .bad k => k | _ => 0) c.member x.lba) d
    let (base, n) := d.extentOf c.pool c.member
    let d : Dev := tagb.foldl (fun (d : Dev) g => d.tagError 3 c.member (lbaOfTagBlock base n g)) d
    let d := d.readBad c (bad.map (·.ref))
    let d := if serves && !bad.isEmpty then d.queueScrub c.pool c.stripe else d
    d.readEvents c.member ((bad.filter fun x => x.res != .bad 3).length + tagb.length) slow

/-- A read answers while the tag block of its last group is still awaited: its other blocks are taken, and those of that group wait (R303). -/
def Dev.answerPart (d : Dev) (c : MCmd) (blocks : List Block) (tagBlocks : List (Nat × Block)) (slow : Bool) : Dev :=
  let (front, last) := c.splitLast
  let k := front.length
  let wait := fun (x : MCmd) =>
    { x with phase := .answered, block := c.block + k, count := c.count - k, refs := last, data := (blocks.drop k).map fun b => (b, 0#128) }
  let d := if c.sillage then d.silAccount c.member else d
  let d := (Dev.pump { d with mcmds := updWhere (fun (x : MCmd) => x.id == c.id) wait d.mcmds } c.member)
  if front.isEmpty then (if slow then d.memberEvent c.member 2 else d) else d.takeRead { c with refs := front, count := k } blocks [] tagBlocks slow

/-- A tag block that a further command has read arrives: the blocks that waited for it are taken, or it is kept until they answer (R303). -/
def Dev.tagArrived (d : Dev) (id : Nat) (b : Block) : Dev :=
  match d.mcmds.find? (·.pair = some id) with
  | none => d
  | some c =>
    let tb := [(c.lastGroup, b)]
    if c.phase = .answered then
      Dev.takeRead { d with mcmds := d.mcmds.filter (·.id ≠ c.id) } c (c.data.map (·.1)) [] tb false
    else
      let keep := fun (x : MCmd) => { x with tagb := tb, pair := none }
      { d with mcmds := updWhere (fun (x : MCmd) => x.id == c.id) keep d.mcmds }

/-- MEMBER_READ_COMPLETION: a member read completes with an error status, or with blocks that are checked and passed on. -/
def Dev.memberReadCompletion (d : Dev) (id : Nat) (ok : Bool) (blocks : List Block) (tags : List (BitVec 128))
    (tagBlocks : List (Nat × Block)) : Dev :=
  match d.mcmd id with
  | none => d
  | some c =>
    let slow := d.isSlow c
    match c.kind, c.phase with
    | .read, .held | .tagRead, .held | .plinthRead, .held => d.lateCompletion c
    | .plinthRead, .outstanding =>
      let d := d.release c
      if c.user == .discard then d.inc Reg.RST_BLOCK_COUNTS_DISCARDED
      else if !ok then (d.fixData c false [] [] []).memberEvent c.member 1
      else (d.fixData c true blocks tags tagBlocks).readEvents c.member 0 slow
    | .tagRead, .outstanding =>
      let d := d.release c
      if c.user == .discard then d.inc Reg.RST_BLOCK_COUNTS_DISCARDED
      else if !ok then (d.pairFailed id).memberEvent c.member 1
      else (d.tagArrived id (blocks.headD 0#32768)).readEvents c.member 0 slow
    | .read, .outstanding =>
      if c.user == .discard then (d.release c).inc Reg.RST_BLOCK_COUNTS_DISCARDED
      else if !ok then ((d.release c).readBad c c.refs).memberEvent c.member 1
      else if c.pair.isSome then d.answerPart c blocks tagBlocks slow
      else (d.release c).takeRead c blocks tags (c.tagb ++ tagBlocks) slow
    | _, _ => d

/-! ### Write completions -/

/-- The tag block updates that follow a data write in tag-sector mode (R304, R305): each merges into the latest update of the
same tag block, or into the current one. -/
def Dev.tagWrites (d : Dev) (c : MCmd) (current : List (Nat × Block)) : Dev :=
  let groups := ((List.range c.count).map fun i => (c.block + i) / 255).eraseDups
  let ops := (c.refs.map (·.op)).eraseDups
  groups.foldl (fun (d : Dev) g =>
    let entries := (List.range c.count).filterMap fun i =>
      if (c.block + i) / 255 = g then (c.data[i]?).map fun bt => ((c.block + i) % 255, bt.2) else none
    let pend := (d.mcmds.filter fun x => x.kind == .tagWrite && x.member == c.member && x.pool == c.pool && x.block == g).getLast?
    let cur := match pend with
      | some x => (match x.data with | bt :: _ => bt.1 | [] => 0#32768)
      | none => (AMap.get current g).getD 0#32768
    let refs := (c.refs.zipIdx.filter fun ri => (c.block + ri.2) / 255 = g).map (·.1)
    let (id, d) := d.submit (MCmd.new c.member .tagWrite c.user c.pool c.stripe g 1 c.spare refs
      [(tagBlockMerge g cur entries, 0#128)] c.sillage)
    ops.foldl (fun (d : Dev) oid => d.updOp oid fun o => { o with writes := o.writes ++ [id] }) d) d

/-- A write that a member failed: it is counted, its blocks count as missed, and it is issued again (R221, R591). -/
def Dev.writeFailed (d : Dev) (c : MCmd) : Dev :=
  let d := if c.sillage then d.silAccount c.member else d
  let back := fun (x : MCmd) => { x with phase := .answered }
  let d := { d with mcmds := updWhere (fun (x : MCmd) => x.id == c.id) back d.mcmds }
  let d := (d.missedWrite c).memberEvent c.member 1
  match d.mcmd c.id with
  | some c => d.retryWrite c
  | none => d

/-- MEMBER_WRITE_COMPLETION: a member write is acknowledged, or fails; `tagBlocks` are the tag blocks of its groups as the member holds
them. -/
def Dev.memberWriteCompletion (d : Dev) (id : Nat) (ok : Bool) (tagBlocks : List (Nat × Block)) : Dev :=
  match d.mcmd id with
  | none => d
  | some c =>
    match c.phase with
    | .held => d.lateCompletion c
    | .waiting | .answered => d
    | .outstanding =>
      let slow := d.isSlow c
      let slowly := fun (d : Dev) => if slow then d.memberEvent c.member 2 else d
      let init := match c.user with | .init _ => true | _ => false
      match c.kind with
      | .write | .tagWrite =>
        if !ok then d.writeFailed c
        else
          let d := d.release c
          if init then slowly (d.zeroDone c.id 0 [])
          else
            let d := if c.kind = .write ∧ d.tagSect c.member then d.tagWrites c tagBlocks else d
            slowly (d.writeGone c.id c.refs)
      | .zeroes =>
        let d := d.release c
        if ok then slowly (d.zeroDone c.id c.count tagBlocks) else ((d.zeroFailed c.id).memberEvent c.member 1).zeroPump
      | .label =>
        let d := d.release c
        if ok then slowly (if d.mcmds.any fun x => x.kind == .label && x.member == c.member then d else d.labelDone c.member) else d.memberEvent c.member 1
      | _ => d

/-! ### Reads that race, and staging -/

/-- SUSPECT_READ_SLOW: a read to a SUSPECT member passes its slow threshold, and a degraded read of the same blocks starts
(R256). -/
def Dev.suspectReadSlow (d : Dev) (id : Nat) : Dev :=
  match d.mcmd id with
  | none => d
  | some c =>
    match c.kind, c.phase, c.user with
    | .read, .outstanding, .host cmd =>
      match d.cmd cmd with
      | none => d
      | some h =>
        if (d.mbr c.member).st = .suspect ∧ !h.raced.contains id then
          (d.updCmd cmd fun h => { h with raced := id :: h.raced }).startDegraded cmd c.pool c.stripe
            (c.refs.map fun b => (b.frag, b.row))
        else d
    | _, _, _ => d

/-- DECODE_STAGING_GRANT: an operation with a row that waits for staging space tries again (R259). -/
def Dev.decodeStagingGrant (d : Dev) (op : Nat) : Dev :=
  match d.op op with
  | some o => if o.rows.any (·.waits) then d.go op else d
  | none => d

/-! ### Commands and timers of the state machine -/

/-- MEMBER_FAIL (R252). -/
def Dev.memberFail (d : Dev) (req : Requester) (m : Nat) : Dev :=
  d.silCmd req m (fun s => s != .failed && s != .retired) fun d => d.setState m .failed .host true false

/-- MEMBER_READMIT (R252). -/
def Dev.memberReadmit (d : Dev) (req : Requester) (m : Nat) : Dev :=
  d.silCmd req m (· == .failed) fun d =>
    if (d.mbr m).matched.isSome then d.setState m .rebuilding .none false false else d.setState m .absent .none false false

/-- MEMBER_RETIRE (R252). -/
def Dev.memberRetire (d : Dev) (req : Requester) (m : Nat) : Dev :=
  d.silCmd req m (fun s => s == .absent || s == .failed) fun d => d.setState m .retired .none false false

/-- MEMBER_CLEAR (R252). -/
def Dev.memberClear (d : Dev) (req : Requester) (m : Nat) : Dev :=
  d.silCmd req m MSt.active fun d =>
    if (d.mbr m).st = .suspect then d.setState m .online .none false true
    else d.updMbr m fun x => { x with window := [] }

/-- MEMBER_QUIET: a SUSPECT member has been quiet for HOLD_S (table 6-3). -/
def Dev.memberQuiet (d : Dev) (m : Nat) : Dev :=
  if d.steward && (d.mbr m).st == .suspect then d.setState m .online .none false true else d

/-- MEMBER_ABSENT_TIMEOUT: ABS (table 6-3), while ABSENT_FAIL_S is not 0. -/
def Dev.memberAbsentTimeout (d : Dev) (m : Nat) : Dev :=
  if d.steward && (d.mbr m).st == .absent && d.g Reg.SIL_RETURN_ABSENT_FAIL_S != 0 && decide (m < d.memberTable.length) then
    d.setState m .failed .absentTimeout false false
  else d

/-- DISCOVER_TIMEOUT: a restored member was not identified in time and takes GONE (R253). -/
def Dev.discoverTimeout (d : Dev) (m : Nat) : Dev :=
  if (d.mbr m).awaitId then d.memberEvent m 4 else d

end Sys2Proof.Machine
end

