-- ==== Sys2Proof/Machine/HostIo.lean ====
section
/-!
DEFINITION. Meanings of the host I/O rows: Write, Write Zeroes, Dataset Management, Read, Verify and Flush (R192, R204, R254,
R500, R507), with the fetch of a command from its queue, the checks of table 11-4, and PI on writes (R312, R313, R316).
-/
namespace Sys2Proof.Machine

/-! ### Fetch -/

/-- Whether an activation has begun: one that meets a sanitize or a format waits for it to end (R524). -/
def Dev.activating (d : Dev) : Bool := d.mgmt.act.isSome && d.nvm.erases.isEmpty

/-- Whether both controllers have stopped fetching: an activation (R522), the seal (table 15-5), or fencing (R636). -/
def Dev.fetchStopped (d : Dev) : Bool := d.activating || d.g Reg.JNL_STATUS_STATE == 3 || d.acdState == 4

/-- The rank of a queue in the arbitration that CC.AMS selects (R487): the admin SQ, then urgent, then the others. -/
def NvmeCtl.rank (c : NvmeCtl) (q : NSq) : Nat := if q.id = 0 then 0 else if c.ams = 1 ∧ q.prio = 0 then 1 else 2

/-- Whether commands of a queue may be fetched now: the controller ready and not stopped, for an I/O queue replay finished (R239), the tail
ahead of the head, and no queue of higher rank with a command to fetch. -/
def Dev.fetchable (d : Dev) (portB : Bool) (sq : Nat) : Bool :=
  let c := d.ctl portB
  let full := fun (q : NSq) => q.head != q.tail && !c.deleting.any (·.1 = q.id)
  c.rdy && !d.fetchStopped && (sq == 0 || d.running) && !c.shutdown && d.canSend portB 0 &&
  c.sqs.any fun q => q.id == sq && full q && !c.sqs.any fun r => full r && decide (c.rank r < c.rank q)

/-- Fetches one command: the head advances, and a controller in or entering a non-operational state returns to its most recent
operational one (R519, R520). -/
def Dev.fetch (d : Dev) (portB : Bool) (sq : Nat) : Dev :=
  let take := fun (q : NSq) => { q with head := (q.head + 1) % q.size }
  let wakes := decide (3 ≤ (d.ctl portB).pstate)
  let d := d.updCtl portB fun c =>
    { c with sqs := updWhere (fun (q : NSq) => q.id == sq) take c.sqs,
             pstate := if 3 ≤ c.pstate then c.lastOp else c.pstate }
  if wakes then d.jnlStatus.watchUp else d

/-- A fetched command: `act` runs on the state after the fetch; one that cannot be fetched now stays in its queue. -/
def Dev.fetched (d : Dev) (portB : Bool) (sq : Nat) (act : Dev → Dev) : Dev :=
  if d.fetchable portB sq then act (d.fetch portB sq) else d

/-- A fetched admin command; one that the management endpoint tunnels is not fetched from a queue (R749). -/
def Dev.fetchedAdmin (d : Dev) (portB : Bool) (cid : Nat) (act : Dev → Dev) : Dev :=
  if tunnelCid ≤ cid then act d else d.fetched portB 0 act

/-! ### Checks (table 11-4) -/

/-- Whether the volatile write cache is reported present (R508). -/
def Dev.cachePresent (d : Dev) : Bool := !d.on Reg.VLT_STATUS_HOLDUP_CERT

/-- Whether commands wait for the retirement of their records (R202, R509). -/
def Dev.waitsRetire (d : Dev) (portB fua : Bool) : Bool := d.cachePresent && (fua || !(d.ctl portB).wce)

/-- The capacity a namespace reports (R491, R492): the old one while grown stripes are made ready. -/
def Dev.nsCapacity (d : Dev) (nsid : Nat) : Nat :=
  match d.arm.active with
  | none => 0
  | some a => match a.ns nsid with
    | none => 0
    | some n => match a.pool n.pool with
      | none => 0
      | some c => match AMap.get d.arm.nsReady nsid with
        | some old => (if old = 0 then n.count else old) * c.stripeBlocks
        | none => n.count * c.stripeBlocks

/-- Whether a namespace is being made ready after it was added (R492 step 2). -/
def Dev.nsNotReady (d : Dev) (nsid pool : Nat) : Bool :=
  AMap.get d.arm.nsReady nsid == some 0 || d.initialising pool

/-- Whether a Format NVM runs on a namespace (R511). -/
def Dev.formatting (d : Dev) (nsid : Nat) : Bool :=
  d.nvm.erases.any fun e => !e.sanitize && !e.waiting && e.nsids.contains nsid

/-- Whether a Sanitize runs (R515). -/
def Dev.sanitizing (d : Dev) : Bool := d.nvm.erases.any fun e => e.sanitize && !e.waiting

/-- The first check that fails an I/O command on a namespace (table 11-4, R493, R495), before its range. -/
def Dev.nsError (d : Dev) (nsid : Nat) : Option NvStatus :=
  if d.sanitizing then some .sanitizeInProgress
  else if d.nvm.sanFailed then some .sanitizeFailed
  else match d.arm.active with
    | none => some .invalidNamespaceOrFormat
    | some a => match a.ns nsid with
      | none => some .invalidNamespaceOrFormat
      | some n =>
        if d.acd.anaChange.testBit n.pool then some .anaTransition
        else if !d.ownsPool n.pool then some .anaInaccessible
        else if d.nsNotReady nsid n.pool then some .namespaceNotReady
        else if d.formatting nsid then some .formatInProgress
        else none

/-- The first check that fails a range of a namespace. -/
def Dev.rangeError (d : Dev) (nsid slba nlb : Nat) : Option NvStatus :=
  match d.nsError nsid with
  | some s => some s
  | none => if d.nsCapacity nsid < slba + nlb then some .lbaOutOfRange else none

/-- Whether a namespace's new commands are held for a key switch (R330). -/
def Dev.nsHeld (d : Dev) (nsid : Nat) : Bool := d.keys.switching.contains nsid

/-! ### Host commands -/

/-- The record of a fetched I/O command. -/
def HostIo.toCmd (h : HostIo) (id : Nat) (kind : HKind) (fua : Bool) (groups : Nat) : HostCmd :=
  { id := id, portB := h.portB, sq := h.sq, cid := h.cid, kind := kind, nsid := h.nsid, slba := h.slba, nlb := h.nlb,
    fua := fua, pract := h.pract, prchk := h.prchk, reftag := h.reftag, apptag := h.apptag, appmask := h.appmask, xtsFaults := h.xtsFaults,
    got := [], groupsLeft := groups, admitted := false, readIssued := false, raced := [], detached := false, epoch := 0, unrecRows := [] }

/-- Completes a fetched I/O command at once with a status. -/
def Dev.failIo (d : Dev) (h : HostIo) (st : NvStatus) : Dev :=
  d.complete h.portB h.sq h.cid st 0 (if st = .lbaOutOfRange then h.slba else 0) h.nsid

/-- The namespace and pool of a command that passed its checks. -/
def Dev.nsPool (d : Dev) (nsid : Nat) : Option (ArmNs × PoolCfg) :=
  match d.arm.active with
  | none => none
  | some a => match a.ns nsid with
    | none => none
    | some n => (a.pool n.pool).map fun c => (n, c)

/-! ### Protection information on writes (R312, R313, R316) -/

/-- A big-endian number of bytes. -/
def beNat (bs : List Byte) : Nat := leNat bs.reverse

/-- The guard, application tag and reference tag in a block's metadata. -/
def NsFmt.piOf (f : NsFmt) (md : List Byte) : Nat × Nat × Nat :=
  let p := if f.piFirst then md.take f.piBytes else (md.drop (f.metaBytes - f.piBytes)).take f.piBytes
  if f.wide then (beNat (p.take 8), beNat ((p.drop 8).take 2), beNat ((p.drop 10).take 6))
  else (beNat (p.take 2), beNat ((p.drop 2).take 2), beNat ((p.drop 4).take 4))

/-- The first PI failure of one block of a write: guard, application tag or reference tag (R312, R313). -/
def Dev.writePiError (d : Dev) (h : HostIo) (i : Nat) (b : Block) (md : List Byte) : Option NvStatus :=
  let f := (AMap.get d.nvm.fmts h.nsid).getD ⟨0, 0, false⟩
  if f.pi = 0 ∨ h.pract then none
  else
    let (guard, app, ref) := f.piOf md
    let w := if f.wide then 2 ^ 48 else 2 ^ 32
    let escape := app == 0xFFFF && (f.pi != 3 || ref == w - 1)
    let tag := (AMap.get d.nvm.appTags h.nsid).getD 0
    let good := if f.wide then guard64 b else guard16 b
    if escape then none
    else if h.prchk.testBit 2 && guard != good then some .guardCheckError
    else if app != tag then some .appTagCheckError
    else if h.prchk.testBit 1 && (app &&& h.appmask) != (h.apptag &&& h.appmask) then some .appTagCheckError
    else if h.prchk.testBit 0 && f.pi != 3 && ref != (h.reftag + i) % w then some .refTagCheckError
    else none

/-! ### Commands that admit records -/

/-- The records of one group over a range (R192): one for each stripe run, with its blocks of `blocks` from `base`. -/
def Dev.groupRecs (d : Dev) (n : ArmNs) (c : PoolCfg) (typ : RecType) (fua : Bool) (blocks : List Block) (base : Nat)
    (run : Nat × Nat) : List JRec :=
  (stripeRuns n c (run.2 + 1) run.1 run.2).map fun r =>
    newRec d typ fua r.2.1 n.nsid r.2.2 r.1 n.pool ((blocks.drop (r.2.1 - base)).take (if typ = .zero then 0 else r.2.2)) []

/-- Admits a host command over ranges, group by group (R193, R196): `blocks` is the ciphertext of a Write's one range. -/
def Dev.admitHost (d : Dev) (h : HostIo) (kind : HKind) (typ : RecType) (ranges : List (Nat × Nat)) (blocks : List Block) : Dev :=
  match d.nsPool h.nsid with
  | none => d.failIo h .invalidNamespaceOrFormat
  | some (n, c) =>
    let groups := ranges.flatMap fun r => groupRuns (r.2 / 512 + 1) r.1 r.2
    let waits := d.waitsRetire h.portB h.fua
    let (id, d) := d.fresh
    let d := { d with cmds := d.cmds ++ [h.toCmd id kind waits groups.length] }
    if groups.isEmpty then d.finish id .success 0
    else groups.foldl (fun (d : Dev) g => d.offer (d.groupRecs n c typ h.fua blocks h.slba g) (.host id)) d

/-- WRITE: PI is checked, the blocks are encrypted, and the groups are admitted (R192, R312, R318, R319). -/
def Dev.write (d : Dev) (h : HostIo) (data : List Block) (md : List (List Byte)) : Dev :=
  if d.nsHeld h.nsid then d
  else d.fetched h.portB h.sq fun d =>
    match d.rangeError h.nsid h.slba h.nlb with
    | some st => d.failIo h st
    | none =>
      if data.length ≠ h.nlb then d.failIo h .dataTransferError
      else match (data.zipIdx).findSome? fun bi => (d.writePiError h bi.2 bi.1 (md.getD bi.2 [])).map fun st => (st, bi.2) with
        | some (st, i) => (d.countPi st).complete h.portB h.sq h.cid st 0 (h.slba + i) h.nsid
        | none => match (List.range h.nlb).find? h.xtsFaults.contains with
        | some i => (d.xtsMismatch h.nsid (h.slba + i)).failIo h .dataTransferError
        | none =>
          let key := d.nsKey h.nsid
          let d := { d with nvm := { d.nvm with blocksWritten := d.nvm.blocksWritten + h.nlb } }
          d.admitHost h .write .write [(h.slba, h.nlb)]
            (data.zipIdx.map fun bi => xts key (h.slba + bi.2) bi.1)

/-- WRITE_ZEROES: ZERO records (R500). -/
def Dev.writeZeroes (d : Dev) (h : HostIo) : Dev :=
  if d.nsHeld h.nsid then d
  else d.fetched h.portB h.sq fun d =>
    match d.rangeError h.nsid h.slba h.nlb with
    | some st => d.failIo h st
    | none => d.admitHost h .zeroes .zero [(h.slba, h.nlb)] []

/-- DATASET_MANAGEMENT: Deallocate of up to 256 ranges as ZERO records (R500); without Deallocate it only completes. -/
def Dev.datasetManagement (d : Dev) (h : HostIo) (dealloc : Bool) (ranges : List (Nat × Nat)) : Dev :=
  if d.nsHeld h.nsid then d
  else d.fetched h.portB h.sq fun d =>
    match d.nsError h.nsid with
    | some st => d.failIo h st
    | none =>
      if !dealloc then d.failIo h .success
      else if 256 < ranges.length then d.failIo h .invalidField
      else match ranges.find? fun r => decide (d.nsCapacity h.nsid < r.1 + r.2) with
        | some r => d.complete h.portB h.sq h.cid .lbaOutOfRange 0 r.1 h.nsid
        | none => d.admitHost h .dealloc .zero (ranges.filter (·.2 ≠ 0)) []

/-! ### Reads -/

/-- Whether a read waits for an uncorrectable line of the placement data of one of its stripes to be rebuilt (table 4-4). -/
def Dev.readHeld (d : Dev) (h : HostIo) : Bool :=
  match d.nsPool h.nsid with
  | none => false
  | some (n, c) => (List.range h.nlb).any fun i => d.stripeHeld n.pool (n.locate c (h.slba + i)).1 d.epoch

/-- Issues the member reads of fragments of one stripe that resolve readable, one command for each run of rows that one command moves (R254,
R587). -/
def Dev.readRuns (d : Dev) (id : Nat) (c : PoolCfg) (pool s f : Nat) (l : Loc) (rows : List Nat) : Dev :=
  let base := c.blockOf l.slot 0
  let runs := (runsOf rows).flatMap fun x => d.cutRun l.member false x.2 (base + x.1) x.2
  runs.foldl (fun (d : Dev) run =>
    (d.submitRead (MCmd.new l.member .read (.host id) pool s run.1 run.2 l.spare
      ((List.range run.2).map fun i => BlkRef.mk 0 (run.1 - base + i) f) [] false)).2) d

/-- The copy of a MIRROR stripe that a host read takes (R88): among those on ONLINE members, or, with none, on SUSPECT ones too (R257). -/
def Dev.readCopy (d : Dev) (c : PoolCfg) (pool s : Nat) : Option Nat :=
  match d.mirrorPick c pool s (d.fragAvailable c pool s false) with
  | some f => some f
  | none => d.mirrorPick c pool s (d.fragAvailable c pool s true)

/-- Serves the blocks of one stripe from the members (R254): healthy reads of the fragments that resolve readable, a
degraded read of the others. A MIRROR stripe is read from one copy (R72, R88). -/
def Dev.readStripe (d : Dev) (id : Nat) (c : PoolCfg) (pool s : Nat) (asked : List (Nat × Nat)) : Dev :=
  let blocks := if c.code.family = .mirror then
      (match d.readCopy c pool s with | some f => asked.map fun b => (f, b.2) | none => asked)
    else asked
  let frags := (blocks.map (·.1)).eraseDups
  let there := frags.filter fun f => (d.resolve c pool s f).isReadable
  let lost := blocks.filter fun b => !there.contains b.1
  let d : Dev := there.foldl (fun (d : Dev) f => match d.resolve c pool s f with
    | .readable l => d.readRuns id c pool s f l ((blocks.filter (·.1 = f)).map (·.2))
    | _ => d) d
  if lost.isEmpty then d else d.startDegraded id pool s lost

/-- Serves a host read block by block (R204, R254). -/
def Dev.serveRead (d : Dev) (h : HostIo) (kind : HKind) : Dev :=
  match d.nsPool h.nsid with
  | none => d.failIo h .invalidNamespaceOrFormat
  | some (n, c) =>
    let (id, d) := d.fresh
    let cmd := { h.toCmd id kind false 0 with readIssued := true, epoch := d.epoch }
    let d := { d with cmds := d.cmds ++ [cmd] }
    let lbas := (List.range h.nlb).map (h.slba + ·)
    let jnl := lbas.filterMap fun l => (d.journalBlock h.nsid l).map fun r => (l, r)
    let rest := lbas.filter fun l => (d.journalBlock h.nsid l).isNone
    let put := fun (x : HostCmd) => { x with got := jnl }
    let d := d.updCmd id put
    let locs := rest.map fun l => n.locate c l
    let stripes := (locs.map (·.1)).eraseDups
    let d : Dev := stripes.foldl (fun (d : Dev) s =>
      d.readStripe id c n.pool s ((locs.filter (·.1 = s)).map fun x => x.2)) d
    d.hostReadDone id

/-- READ (R254). -/
def Dev.read (d : Dev) (h : HostIo) : Dev :=
  if d.nsHeld h.nsid || d.readHeld h then d
  else d.fetched h.portB h.sq fun d =>
    match d.rangeError h.nsid h.slba h.nlb with
    | some st => d.failIo h st
    | none => d.serveRead h .read

/-- VERIFY: as a read, with no data transferred (R500). -/
def Dev.verify (d : Dev) (h : HostIo) : Dev :=
  if d.nsHeld h.nsid || d.readHeld h then d
  else d.fetched h.portB h.sq fun d =>
    match d.rangeError h.nsid h.slba h.nlb with
    | some st => d.failIo h st
    | none => d.serveRead h .verify

/-- FLUSH (R330, R507): a barrier, and a completion when the tail passes the head captured now, or at once where the write cache is
reported absent. -/
def Dev.flush (d : Dev) (h : HostIo) : Dev :=
  if d.nsHeld h.nsid then d
  else d.fetched h.portB h.sq fun d =>
    let bad := if h.nsid = 0xFFFFFFFF then (if d.sanitizing then some NvStatus.sanitizeInProgress else none) else d.nsError h.nsid
    match bad with
    | some st => d.failIo h st
    | none =>
      let (id, d) := d.fresh
      let target := d.head
      let d := { d with cmds := d.cmds ++ [h.toCmd id .flush false 0] }
      let d := d.barrier
      if d.cachePresent && decide (d.tail ≤ target) then
        { d with jnl := { d.jnl with flushes := d.jnl.flushes ++ [(id, target)] } }
      else d.finish id .success 0

end Sys2Proof.Machine
end

