-- ==== Sys2Proof/Machine/Drydown.lean ====
section
/-!
DEFINITION. Meanings of the write path rows: admission, local and mirror copies (R196 to R202), barriers, the choice of a destage
(R212 to R215), and the grant of a stripe lock (table 5-7).
-/
namespace Sys2Proof.Machine

/-! ### Groups -/

/-- GROUP_ADMIT: the first waiting group is admitted once it fits (R196, R197); a destage whose LOST entries it carries ends (R276). -/
def Dev.groupAdmit (d : Dev) : Dev := d.admitWaiting.gathered

/-- LOCAL_COPY_IN_PLACE: the HBM controllers have accepted every line of a group, named by its first sequence (R198, R200). -/
def Dev.localCopyInPlace (d : Dev) (first : Nat) : Dev :=
  if d.jnl.groups.any fun g => g.first == first && !g.published then d.publish first else d

/-- JNL_BARRIER (R223). -/
def Dev.jnlBarrier (d : Dev) (req : Requester) : Dev := d.globalCmd req Reg.JNL_CTRL_BARRIER fun d => d.barrier

/-! ### The choice of a stripe (R214) -/

/-- DRYDOWN_IDLE_EXPIRY: no group has been admitted for IDLE_US (R212). -/
def Dev.drydownIdleExpiry (d : Dev) : Dev :=
  if d.g Reg.JNL_DRY_CFG_IDLE_US = 0 then d else Dev.jnlStatus { d with jnl := { d.jnl with idle := true } }

/-- DESTAGE_SETTLE_EXPIRY: a stripe's newest record has become older than SETTLE_US (R214). -/
def Dev.destageSettleExpiry (d : Dev) (pool s : Nat) : Dev :=
  if d.hasRecords pool s && !d.jnl.settled.contains (pool, s) then
    { d with jnl := { d.jnl with settled := d.jnl.settled ++ [(pool, s)] } }
  else d

/-- Whether the records of a stripe cover every data block of it. -/
def Dev.stripeCovered (d : Dev) (c : PoolCfg) (pool s : Nat) : Bool :=
  let rs := (d.stripeRecs pool s).map (·.stripeSpan c)
  (List.range c.stripeBlocks).all fun b => rs.any fun x => decide (x.1 ≤ b ∧ b < x.1 + x.2)

/-- Whether drydown may touch a stripe at all: its pool is owned and not initialising or given away, it is not marked for
unrecoverable repair, and an adopted stripe has waited out DRAIN_MS and QUIET (R277, R308, R639, R641). -/
def Dev.destageAllowed (d : Dev) (pool s : Nat) : Bool :=
  d.ownsPool pool && !d.initialising pool && !d.jnl.marked.contains (pool, s) &&
  !(d.acd.transfers.any fun t => t.giver && t.pools.testBit pool) &&
  !((d.acd.adopted.any fun r => r.pool == pool && r.stripe == s) && d.acd.quietWait.testBit pool) && !d.drainHeld pool &&
  !(d.ops.any fun o => o.kind == .destage && o.pool == pool && o.stripe == s)

/-- Function next_stripe of R214. -/
def Dev.nextStripe (d : Dev) : Option (Nat × Nat) :=
  let keys := ((d.jnl.recs ++ d.acd.adopted).filter fun r => !r.retired && !r.lost && !r.typ.isMeta).map (fun r => (r.pool, r.stripe))
  let cands := keys.eraseDups.filter fun k => d.destageAllowed k.1 k.2
  let info := cands.filterMap fun k => (d.pool k.1).map fun c =>
    let rs := d.stripeRecs k.1 k.2
    let oldest := (rs.map (·.seq)).foldl min (match rs with | r :: _ => r.seq | [] => 0)
    (k, d.stripeCovered c k.1 k.2, oldest)
  let held := fun (k : Nat × Nat) => d.ops.any fun o => o.phase == .held && o.pool == k.1 && o.stripe == k.2
  let elig := info.filter fun x =>
    x.2.1 || d.urgent || (d.barrierPending && decide (x.2.2 ≤ d.g Reg.JNL_BARRIER_SEQ_SEQ)) || held x.1 ||
    d.jnl.settled.contains x.1
  (elig.foldl (fun (b : Option ((Nat × Nat) × Bool × Nat)) x => match b with
    | none => some x
    | some y =>
      if (x.2.1 && !y.2.1) || (x.2.1 == y.2.1 && decide (x.2.2 < y.2.2)) then some x else some y) none).map (·.1)

/-- DESTAGE_START: drydown requests EXCLUSIVE on the next eligible stripe (R214, R215); it takes a stripe whose decode is held at
once (R228). -/
def Dev.destageStart (d : Dev) : Dev :=
  let inflight := (d.ops.filter (·.kind == .destage)).length
  match d.nextStripe with
  | none => d
  | some (p, s) =>
    let held := d.ops.any fun o => o.phase == .held && o.pool == p && o.stripe == s
    if (d.drydown || (d.running && held)) && decide (inflight < min 4096 (max 1 (d.g Reg.JNL_DRY_LIMITS_MAX_INFLIGHT))) then
      d.startOp .destage p s true []
    else d

/-! ### Lock grants -/

/-- STRIPE_LOCK_GRANT: the first request that waits on a stripe is granted, and its operation starts (R208). -/
def Dev.stripeLockGrant (d : Dev) (pool s : Nat) : Dev :=
  match d.lockGrant pool s with
  | none => d
  | some (oid, d) => d.afterGrant oid

end Sys2Proof.Machine
end

