-- ==== Sys2Proof/Machine/Keys.lean ====
section
/-!
DEFINITION. Namespace keys (R322 to R332, R801): generation, binding, switching and destruction of key slots, and the three rows
that move them.
-/
namespace Sys2Proof.Machine

/-- Key slots of the IOD (R322). -/
def keySlots : Nat := 1024

/-- The lowest slot that is EMPTY and not being filled. -/
def Dev.freeKeySlot (d : Dev) : Option Nat :=
  (List.range keySlots).find? fun n => !d.keys.slots.any (·.slot = n)

/-- Brings ITG_STATUS.FREE_SLOTS and KEY_WAIT up to date (table 7-11). -/
def Dev.keyRegs (d : Dev) : Dev :=
  let d := d.p Reg.ITG_STATUS_FREE_SLOTS (keySlots - (d.keys.slots.filter (·.st != .empty)).length)
  d.p Reg.ITG_STATUS_KEY_WAIT (if !d.keys.wantGen.isEmpty && d.freeKeySlot.isNone then 1 else 0)

/-- Asks for a key for a namespace (R328, R329); `maq` for one that a maquette adds. -/
def Dev.wantKey (d : Dev) (nsid : Nat) (maq : Bool) : Dev :=
  Dev.keyRegs { d with keys := { d.keys with wantGen := d.keys.wantGen ++ [(nsid, maq)] } }

/-- A slot changed. -/
def Dev.updSlot (d : Dev) (n : Nat) (f : KeySlot → KeySlot) : Dev :=
  Dev.keyRegs { d with keys := { d.keys with slots := updWhere (fun (k : KeySlot) => k.slot == n) f d.keys.slots } }

/-- Whether the active epoch has a namespace. -/
def Dev.hasNs (d : Dev) (nsid : Nat) : Bool :=
  match d.arm.active with
  | some a => (a.ns nsid).isSome
  | none => false

/-- Whether a generation for the maquette still waits or is being installed (R329). -/
def Dev.maqKeysWait (d : Dev) : Bool :=
  d.keys.wantGen.any (·.2) || d.keys.slots.any fun k => k.st == .empty && !d.hasNs k.nsid

/-- The maquette reaches STAGED (table 3-13), and its resolved rows are built (R134). -/
def Dev.maqStaged (d : Dev) : Dev :=
  match d.arm.maquette with
  | none => d
  | some a => (((d.p Reg.ARM_STATUS_MAQ_STATE 3).p Reg.ARM_EPOCH_STAGED_EPOCH a.epoch).p Reg.ARM_STATUS_DONE 1).writeRows a.lines .none

/-- A maquette that is valid and waits for keys reaches STAGED when the last is READY (R329). -/
def Dev.maqKeysDone (d : Dev) : Dev :=
  if d.g Reg.ARM_STATUS_MAQ_STATE == 2 && d.arm.maquette.isSome && !d.maqKeysWait then d.maqStaged else d

/-- A generated key is durable, in accord on both packages: its slot is READY, and a namespace in use waits for its switch
(R325, R327, R330). -/
def Dev.keyReady (d : Dev) (n : Nat) : Dev :=
  let d := d.updSlot n fun k => { k with st := .ready }
  match d.keys.slots.find? (·.slot = n) with
  | none => d
  | some k =>
    if d.hasNs k.nsid then { d with keys := { d.keys with switching := (d.keys.switching ++ [k.nsid]).eraseDups } }
    else d.maqKeysDone

/-- Whether this package keeps its keys without a partner: it is SOLO or ALONE (R630). -/
def Dev.keysOwn (d : Dev) : Bool := d.solo || d.acdState == 3

/-- KEY_GENERATION: the first generation that can take a slot draws a key, wraps it and makes it durable; in accord the key goes to the
partner first (R323, R324, R329, R630). A namespace has at most one slot beside its ACTIVE one (R322). A key whose halves are equal is not
used: the next KEY_GENERATION draws it again. -/
def Dev.keyGeneration (d : Dev) : Dev :=
  let busy := fun (nsid : Nat) => d.keys.slots.any fun k => k.nsid == nsid && k.st != .active
  match d.keys.wantGen.find? (fun w => !busy w.1), d.freeKeySlot with
  | some w, some n =>
    if !(d.mirroring || d.keysOwn) then d
    else
      let key := Config.drbg d.keys.nextKey
      let d := { d with keys := { d.keys with nextKey := d.keys.nextKey + 1 } }
      if halvesEqual key then d
      else
        let s : KeySlot := ⟨n, .empty, w.1, key, wrapKey kek key, false, false, none, false⟩
        let d := Dev.keyRegs { d with keys := { d.keys with wantGen := d.keys.wantGen.erase w, slots := d.keys.slots ++ [s] } }
        let d := d.emit (.vault "key area" n)
        if d.mirroring then d.peerSend 0x03 [1, n, w.1, leNat (wrapKey d.acd.transport key)] else d.keyReady n
  | _, _ => d

/-- A slot becomes ACTIVE (table 7-6). -/
def Dev.bindKey (d : Dev) (n : Nat) : Dev :=
  let d := d.updSlot n fun k => { k with st := .active }
  let b := (AMap.get d.keys.binds n).getD 0
  Dev.emit { d with keys := { d.keys with binds := AMap.put d.keys.binds n (min (b + 1) 0xFFFF) } } (.vault "key area" n)

/-- A slot becomes DESTROYING (table 7-6) and its key is zeroised in the key store (R331); in accord the partner is told, and its report is
awaited (R630), which a JOINING package asks for once it mirrors. -/
def Dev.destroyKey (d : Dev) (k : KeySlot) : Dev :=
  let gone := fun (x : KeySlot) => { x with st := .destroying, key := 0, erased := false, partnerDone := d.keysOwn }
  let d := (d.updSlot k.slot gone).emit (.vault "key area" k.slot)
  if d.mirroring then d.peerSend 0x03 [2, k.slot, k.nsid, 0] else d

/-- At a WARM or COLD exit every READY slot, and every slot that a generation was filling, becomes DESTROYING; generations for the maquette
end, and a crypto erase generates its key anew (R332, R801). -/
def Dev.restartKeys (d : Dev) : Dev :=
  let gone := d.keys.slots.filter fun k => k.st == .ready || k.st == .empty
  let again := ((gone.filter fun k => k.peer.isNone && d.hasNs k.nsid).map fun k => (k.nsid, false)) ++ d.keys.wantGen.filter (!·.2)
  let d := { d with keys := { d.keys with wantGen := again.eraseDups, switching := [] } }
  (gone.foldl (fun (d : Dev) k => d.destroyKey k) d).keyRegs

/-- The READY slots of a maquette that ends without a commit are destroyed, and its waiting generations end (R801). -/
def Dev.dropMaqKeys (d : Dev) : Dev :=
  let gone := d.keys.slots.filter fun k => (k.st == .ready || k.st == .empty) && !d.hasNs k.nsid
  let d := { d with keys := { d.keys with wantGen := d.keys.wantGen.filter (!·.2) } }
  (gone.foldl (fun (d : Dev) k => d.destroyKey k) d).keyRegs

/-- A DESTROYING slot whose blocks are erased and whose partner copy is reported becomes EMPTY (R331). -/
def Dev.slotEmpties (d : Dev) : Dev :=
  Dev.keyRegs { d with keys := { d.keys with slots := d.keys.slots.filter fun k =>
    !(k.st == .destroying && k.erased && k.partnerDone) } }

/-- Whether commands of a namespace are between fetch and completion (R330). -/
def Dev.nsBusy (d : Dev) (nsid : Nat) : Bool := d.cmds.any fun c => c.nsid == nsid && c.kind != .admin && !c.detached

/-- KEY_SWITCH: a namespace none of whose commands is between fetch and completion takes its READY key (R330). -/
def Dev.keySwitch (d : Dev) (nsid : Nat) : Dev :=
  if !d.keys.switching.contains nsid || d.nsBusy nsid then d
  else
    let old := d.keys.slots.filter fun k => k.nsid == nsid && k.st == .active
    let new := d.keys.slots.find? fun k => k.nsid == nsid && k.st == .ready
    let d := { d with keys := { d.keys with switching := d.keys.switching.filter (· ≠ nsid) } }
    match new with
    | none => d
    | some k => old.foldl (fun (d : Dev) k => d.destroyKey k) (d.bindKey k.slot)

/-- Binds the READY key of every namespace that an epoch adds (table 7-7). -/
def Dev.bindNew (d : Dev) (nsids : List Nat) : Dev :=
  nsids.foldl (fun (d : Dev) n =>
    match d.keys.slots.find? fun k => k.nsid == n && k.st == .ready with
    | some k => d.bindKey k.slot
    | none => d) d

/-- Destroys the keys of namespaces that the active epoch no longer has (table 7-7). -/
def Dev.destroyRemoved (d : Dev) : Dev :=
  (d.keys.slots.filter fun k => k.st == .active && !d.hasNs k.nsid).foldl (fun (d : Dev) k => d.destroyKey k) d

end Sys2Proof.Machine
end

