-- ==== Sys2Proof/Machine/Erase.lean ====
section
/-!
DEFINITION. Erasure of namespaces: the Write Zeroes work of R492, and the steps of Format NVM (R510 to R512) and Sanitize (R513
to R515), which go on as commands, keys, overwrites and zeroing end.
-/
namespace Sys2Proof.Machine

/-! ### Zeroing of stripes (R492) -/

/-- Data slots of a member that hold fragments of stripes `first … first + count - 1`, rising. -/
def PoolCfg.slotsIn (c : PoolCfg) (m first count : Nat) : List Nat :=
  (List.range count).flatMap fun i =>
    (List.range c.code.width).filterMap fun f =>
      let pl := c.place (first + i) f
      if pl.member = m then some pl.slot else none

/-- The runs of data blocks `b … b + n - 1` within each tag group: group, first entry, length (R300). -/
def tagRuns (b n : Nat) : List (Nat × Nat × Nat) :=
  (List.range ((b + n - 1) / 255 + 1 - b / 255)).map fun i =>
    let g := b / 255 + i
    let lo := max b (255 * g)
    (g, lo - 255 * g, min (b + n) (255 * (g + 1)) - lo)

/-- The zeroing of data blocks `b … b + n - 1` of an extent: one run, or on a TAGSECT member one for each tag group, whose tag entries
clear after it (R304). -/
def Dev.zeroRun (d : Dev) (nsid pool m b n : Nat) : List ZeroJob :=
  if d.tagSect m then
    (tagRuns b n).map fun x => ⟨pool, m, d.blockLba pool m (255 * x.1 + x.2.1), x.2.2, 0, some (x.1, x.2.1), none, false, false, nsid⟩
  else [⟨pool, m, d.blockLba pool m b, n, 0, none, none, false, false, nsid⟩]

/-- The zeroing work of stripes of a namespace on every member of its pool, the spare slots that exceptions name included. -/
def Dev.zeroJobs (d : Dev) (nsid pool : Nat) (c : PoolCfg) (first count : Nat) : List ZeroJob :=
  let fb := c.fragBlocks
  c.extents.flatMap fun e =>
    let spares := (d.arm.excs.filter fun x => x.pool == pool && x.member == e.member &&
      decide (first ≤ x.stripe ∧ x.stripe < first + count)).map fun x => e.dataSlots + x.spare
    (runsOf (c.slotsIn e.member first count) ++ spares.map fun s => (s, 1)).flatMap fun (r : Nat × Nat) =>
      d.zeroRun nsid pool e.member (r.1 * fb) (r.2 * fb)

/-- Starts the zeroing of stripes of a namespace. -/
def Dev.zeroStripes (d : Dev) (nsid pool : Nat) (c : PoolCfg) (first count : Nat) : Dev :=
  { d with arm := { d.arm with zeroing := d.arm.zeroing ++ d.zeroJobs nsid pool c first count } }

/-- Starts the zeroing of every stripe of a namespace. -/
def Dev.zeroNs (d : Dev) (nsid : Nat) : Dev :=
  match d.nsPool nsid with
  | some (n, c) => d.zeroStripes nsid n.pool c n.first n.count
  | none => d

/-! ### Steps of an erasure -/

/-- An erasure replaced by what it becomes; none where it ends. -/
def Dev.putErase (d : Dev) (e : Erase) (e' : Option Erase) : Dev :=
  { d with nvm := { d.nvm with erases := d.nvm.erases.flatMap fun x =>
      if x = e then (match e' with | some y => [y] | none => []) else [x] } }

/-- Whether a stripe belongs to a namespace. -/
def Dev.stripeOfNs (d : Dev) (nsid pool s : Nat) : Bool :=
  match d.nsPool nsid with
  | some (n, _) => n.pool == pool && decide (n.first ≤ s ∧ s < n.first + n.count)
  | none => false

/-- Unretired host-data records of a namespace: its WRITE and ZERO records, and the RECON records of its stripes (R511). -/
def Dev.nsRecords (d : Dev) (nsid : Nat) : List JRec :=
  (d.jnl.recs ++ d.acd.adopted).filter fun r => !r.retired && !r.typ.isMeta &&
    (if r.typ = .recon then d.stripeOfNs nsid r.pool r.stripe else r.nsid == nsid)

/-- Discards a namespace's records without destaging them and clears its lost ranges (R511, R514). -/
def Dev.discardNs (d : Dev) (nsid : Nat) : Dev :=
  let seqs := (d.nsRecords nsid).map (·.seq)
  let ops := d.ops.filter fun o => o.kind == .destage && !o.sent && d.stripeOfNs nsid o.pool o.stripe
  let d : Dev := ops.foldl (fun (d : Dev) o => d.endOp o) d
  let had := d.jnl.lost.any (·.nsid = nsid)
  let d := d.setLost (d.jnl.lost.filter (·.nsid ≠ nsid))
  let d := if had then d.offerMeta .lost [.lost nsid 0 0 true false] .other else d
  (d.retire seqs).retireAdopted (((d.acd.adopted.filter fun r => seqs.contains r.seq)).map (·.seq))

/-- Whether the commands an erasure must wait for have ended: the I/O of its namespaces, or of all for a sanitize, and member
writes under way on their stripes, and the erasures before it. -/
def Dev.eraseQuiet (d : Dev) (e : Erase) : Bool :=
  d.nvm.erases.head? == some e &&
  (if e.sanitize then !d.cmds.any fun c => c.kind != .admin && !c.detached else !e.nsids.any d.nsBusy) &&
  !d.ops.any fun o => o.kind == .destage && o.sent && e.nsids.any fun n => d.stripeOfNs n o.pool o.stripe

/-- Whether the key work of an erasure is done: every old slot is EMPTY (R331). -/
def Dev.keysDone (d : Dev) (e : Erase) : Bool :=
  e.nsids.all fun n => !d.keys.wantGen.any (·.1 = n) && !d.keys.switching.contains n &&
    !d.keys.slots.any fun k => k.nsid == n && k.st != .active

/-- Starts one overwrite pass: every stripe of every namespace, as full-stripe writes (R514 step 2). -/
def Dev.overwritePass (d : Dev) (e : Erase) : Dev :=
  e.nsids.foldl (fun (d : Dev) n => match d.nsPool n with
    | some (x, _) => (List.range x.count).foldl (fun (d : Dev) i => d.startOp (.overwrite e.pattern) x.pool (x.first + i) true []) d
    | none => d) d

/-- Sets the LBA format of the namespaces of a Format NVM. -/
def Dev.applyFmt (d : Dev) (e : Erase) : Dev :=
  if e.sanitize then d
  else { d with nvm := { d.nvm with fmts := e.nsids.foldl (fun m n => AMap.put m n e.newFmt) d.nvm.fmts } }

/-- Whether the partner still works on its pools for an erasure (R620). -/
def Dev.nsOpWaits (d : Dev) (e : Erase) : Bool :=
  !e.remote && d.acd.nsOps.any fun w => w.sanitize == e.sanitize && w.left != 0

/-- Erases the vault dump generations that hold host data, which a sanitize has discarded (R514 step 4). -/
def Dev.eraseGens (d : Dev) : Dev :=
  let held := fun (g : DumpGen) => match g.image with
    | some i => (i.jnl.recs ++ i.mirror ++ i.adopted).any fun r => !r.typ.isMeta
    | none => false
  let wipe := fun (g : DumpGen) => if held g then { g with st := .empty, header := [], table := [], trailer := [], image := none } else g
  Dev.emit { d with vlt := { d.vlt with gen0 := wipe d.vlt.gen0, gen1 := wipe d.vlt.gen1 } } (.vault "erase generations" 0)

/-- The end of an erasure: the command's completion, the partner's NS_DONE, or the sanitize state. -/
def Dev.eraseEnd (d : Dev) (e : Erase) : Dev :=
  if d.nsOpWaits e then d
  else
    let d := d.putErase e none
    let st := (((d.acd.nsOps.filter fun w => w.sanitize == e.sanitize).map (·.status)).find? (· != .success)).getD .success
    let d := if e.remote then d else { d with acd := { d.acd with nsOps := d.acd.nsOps.filter fun w => w.sanitize != e.sanitize } }
    let d := if e.sanitize then
        Dev.eraseGens { d with nvm := { d.nvm with sanDone := true, sanFailed := false } }
      else d
    if e.remote then d.peerSend 0x11 [if e.sanitize then 2 else 1, 0, e.nsids.headD 0]
    else if e.sanitize || e.silent then d
    else d.complete e.portB 0 e.cid st 0 0 (e.nsids.headD 0)

/-- One step of an erasure, where it can go on (`fuel` bounds the steps taken at once). -/
def Dev.eraseGo : Nat → Dev → Erase → Dev
  | 0, d, _ => d
  | fuel + 1, d, e =>
    if e.waiting then d
    else
      let goTo := fun (d : Dev) (e' : Erase) => Dev.eraseGo fuel ((d.putErase e (some e')).emit (.vault "progress" e'.step)) e'
      match e.step with
      | 0 =>
        if !d.eraseQuiet e then d
        else if !e.sanitize && e.ses = 0 then (d.applyFmt e).eraseEnd e
        else
          let d : Dev := e.nsids.foldl (fun (d : Dev) n => d.discardNs n) d
          if e.sanitize && e.ses = 3 then goTo d { e with step := 2 }
          else goTo (e.nsids.foldl (fun (d : Dev) n => d.wantKey n false) d) { e with step := 1 }
      | 1 =>
        if !d.keysDone e then d
        else
          let d := d.applyFmt e
          if (e.sanitize && !e.noDealloc) || (!e.sanitize && e.ses = 1) then
            goTo ((e.nsids.foldl (fun (d : Dev) n => d.zeroNs n) d).zeroPump) { e with step := 3 }
          else goTo d { e with step := 3 }
      | 2 =>
        if d.ops.any fun o => (match o.kind with | .overwrite _ => true | _ => false) then d
        else if e.owPass = 0 then
          if e.noDealloc then goTo d { e with step := 3 }
          else goTo ((e.nsids.foldl (fun (d : Dev) n => d.zeroNs n) d).zeroPump) { e with step := 3 }
        else
          goTo (d.overwritePass e) { e with owPass := e.owPass - 1, pattern := if e.invert then 0xFFFFFFFF - e.pattern else e.pattern }
      | _ => if d.arm.zeroing.any fun z => e.nsids.contains z.ns && !z.finished then d else d.eraseEnd e

/-- Moves every erasure on as far as it goes. -/
def Dev.eraseAdvance (d : Dev) : Dev :=
  d.nvm.erases.foldl (fun (d : Dev) e => if d.nvm.erases.contains e then Dev.eraseGo (e.owPass + 5) d e else d) d

/-- KEY_SLOT_ERASED: the vault blocks of a DESTROYING slot are erased (R331), and an erasure that waited goes on; a partner that asked for
the destruction hears of it (R630). -/
def Dev.keySlotErased (d : Dev) (n : Nat) : Dev :=
  let mark := fun (k : KeySlot) => if k.st = .destroying then { k with erased := true, wrapped := [] } else k
  let copy := d.keys.slots.find? fun k => k.slot == n && k.st == .destroying && !k.erased && k.asked
  let d := ((d.updSlot n mark).slotEmpties).eraseAdvance
  match copy with
  | some k => if d.mirroring then d.peerSend 0x04 [2, 0, k.peer.getD 0, k.nsid] else d
  | none => d

end Sys2Proof.Machine
end

