-- ==== Sys2Proof/Machine/ArmCmd.lean ====
section
/-!
DEFINITION. The armature engine: the LOAD, COMMIT and DISCARD commands with the steps of a commit (R132 to R148, R631, R797,
R800), up to the drain of the old epoch.
-/
namespace Sys2Proof.Machine

/-! ### Commands -/

/-- MAQ_STATE (table 3-20): 0 EMPTY, 1 LOADING, 2 VALIDATING, 3 STAGED, 4 REJECTED, 5 COMMITTING. -/
def Dev.maq (d : Dev) : Nat := d.g Reg.ARM_STATUS_MAQ_STATE

/-- Whether the ARM_ block counts as enabled (R154). -/
def Dev.armEnabled (d : Dev) : Bool := d.maq == 1 || d.maq == 2 || d.maq == 5

/-- A write of ARM_CTRL with a command: SRC_INTERNAL takes its value, or a violation where it is frozen; then the command acts. -/
def Dev.armCtrl (d : Dev) (req : Requester) (internal : Bool) (act : Dev → Dev) : Dev :=
  d.globalCmd req Reg.ARM_CTRL_CMD fun d =>
    let v := if internal then 1 else 0
    act (if d.armEnabled then (if v = d.g Reg.ARM_CTRL_SRC_INTERNAL then d else d.violation req Reg.ARM_CTRL_CMD.base false)
      else d.p Reg.ARM_CTRL_SRC_INTERNAL v)

/-- Refuses an ARM_ command (R133). -/
def Dev.armRefuse (d : Dev) : Dev := d.p Reg.ARM_STATUS_CMD_REFUSED 1

/-- Records a failed check (R796). -/
def Dev.armError (d : Dev) (e : ArmErr) : Dev :=
  (((d.p Reg.ARM_ERROR_CODE e.code).p Reg.ARM_ERROR_QUALIFIER e.qual).p Reg.ARM_ERROR_SECTION e.sect).p Reg.ARM_ERROR_OFFSET_OFFSET e.offset

/-- The maquette is discarded: its image, its staged epoch and its keys (table 3-13, R801). -/
def Dev.dropMaquette (d : Dev) : Dev :=
  ((Dev.p { d with arm := { d.arm with maquette := none, commitStage := 0 } } Reg.ARM_EPOCH_STAGED_EPOCH 0).dropMaqKeys)

/-- A LOAD or COMMIT ends in REJECTED with a code. -/
def Dev.armReject (d : Dev) (e : ArmErr) : Dev :=
  (((d.armError e).dropMaquette).p Reg.ARM_STATUS_MAQ_STATE 4).p Reg.ARM_STATUS_DONE 1

/-- A commit that ends and leaves the maquette STAGED (R136, R137, R632). DESIGN CHOICE (log entry 117): R796 does not name 0x0C01 and 0x0C02;
their QUALIFIER is 0xFF and their SECTION and OFFSET are 0. -/
def Dev.commitBack (d : Dev) (code : Nat) : Dev :=
  let d := { d with arm := { d.arm with commitStage := 0 } }
  ((d.armError (headErr code)).p Reg.ARM_STATUS_MAQ_STATE 3).p Reg.ARM_STATUS_DONE 1

/-- ARM_SRC_ADDR as a byte address. -/
def Dev.armSrc (d : Dev) : Nat := d.g Reg.ARM_SRC_ADDR_ADDR * 8

/-- ARM_LOAD (R132, R133, R793, R165): the length is checked before any byte is read. -/
def Dev.armLoad (d : Dev) (req : Requester) (internal : Bool) : Dev :=
  d.armCtrl req internal fun d =>
    if !(d.maq == 0 || d.maq == 3 || d.maq == 4) || !d.steward then d.armRefuse
    else
      let d := (d.dropMaquette).p Reg.ARM_STATUS_MAQ_STATE 1
      let len := d.g Reg.ARM_SRC_LEN_LEN
      if len < 64 ∨ 0x04000000 < len ∨ len % 8 ≠ 0 then d.armReject (headErr 0x0104)
      else if d.on Reg.ARM_CTRL_SRC_INTERNAL then
        if d.inHostArea d.armSrc len then d else d.armReject (headErr 0x0109)
      else d.sendRead d.primaryB ⟨1, .armature, d.armSrc, len⟩

/-- What validation knows of the device (R115). -/
def Dev.valCtx (d : Dev) (srcLen : Nat) : ValCtx :=
  let inState := fun (s : MSt) => (List.range d.memberTable.length).filter fun m => (d.mbr m).st == s
  let modes := (List.range 6).flatMap fun g => ((List.range 4).filter fun m => (d.opt.allowed >>> (4 * g)).testBit m).map fun m => (g, m)
  { srcLen := srcLen, active := d.arm.active, failed := inState .failed, retired := inState .retired,
    absent := inState .absent, excs := d.arm.excs.map fun e => (e.pool, e.member), allowed := modes,
    metaMiB := d.g Reg.ARM_META_AVAIL_MIB,
    liveRowBytes := (match d.arm.active with | some a => a.rowBytes | none => 0) +
      (match d.arm.draining with | some a => a.rowBytes | none => 0),
    fills := d.arm.fills.map fun f => (f.pool, f.group, f.pos) }

/-- NSIDs that an armature adds to the active one. -/
def Dev.addedNs (d : Dev) (a : Armature) : List Nat := (a.namespaces.map (·.nsid)).filter fun n => !d.hasNs n

/-- The source range of a LOAD, where it lies at the internal address (R132). -/
def Dev.armSource (d : Dev) : Option (Nat × Nat) :=
  if d.on Reg.ARM_CTRL_SRC_INTERNAL then some (d.armSrc, d.g Reg.ARM_SRC_LEN_LEN) else none

/-- What the copy of a LOAD delivers: the bytes of host memory, or those at the internal address, where an uncorrectable line makes it fail
(R132, R171). -/
def Dev.loadImage (d : Dev) (rd : Nat → Byte) (ok : Bool) (img : List Byte) : Bool × List Byte :=
  match d.armSource with
  | some (a, n) => (ok && !d.badRead a n, d.hostBytes rd a n)
  | none => (ok, img)

/-- ARM_LOAD_COPY_DONE (R114, R132, R134, R793): the copy ended in error, or its bytes are validated. A valid maquette waits for the
keys of the namespaces it adds (R328, R329). -/
def Dev.armLoadCopyDone (d : Dev) (rd : Nat → Byte) (ok : Bool) (img : List Byte) : Dev :=
  if d.maq != 1 then d
  else
    let (ok, img) := d.loadImage rd ok img
    let d := d.freeUser .armature
    let len := d.g Reg.ARM_SRC_LEN_LEN
    if !ok || img.length != len then d.armReject (headErr 0x0109)
    else
      match validateImage (d.valCtx len) img with
      | .error e => d.armReject e
      | .ok a =>
        let d := (d.armError ⟨0, 0, 0, 0⟩).p Reg.ARM_STATUS_MAQ_STATE 2
        let new := d.addedNs a
        let d := { d with arm := { d.arm with maquette := some a } }
        (new.foldl (fun (d : Dev) n => d.wantKey n true) d).maqKeysDone

/-- Starts the plinth write of a commit, to the slot that does not hold the active epoch, or, with no active armature, the vault write
(R800). -/
def Dev.commitWrite (d : Dev) (a : Armature) : Dev :=
  if d.arm.active.isSome then
    let ws := d.armWrites (d.arm.plinth.dir.slotFor a.epoch) a
    Dev.emit { d with arm := { d.arm with commitStage := 2 } } (.plinth "armature" a.epoch ws)
  else Dev.emit { d with arm := { d.arm with commitStage := 3 } } (.vault "armature" a.epoch)

/-- ARM_COMMIT (R135, R140, R512, R631): the state-dependent checks run again, the partner of an accord is asked, and the image
goes to the plinth. -/
def Dev.armCommit (d : Dev) (req : Requester) (internal : Bool) : Dev :=
  d.armCtrl req internal fun d =>
    match d.arm.maquette with
    | none => d.armRefuse
    | some a =>
      if d.maq != 3 || d.on Reg.ARM_STATUS_DRAINING || !d.steward || d.nvm.erases.any (fun e => !e.waiting) then d.armRefuse
      else
        let d := d.p Reg.ARM_STATUS_MAQ_STATE 5
        match commitErr (d.valCtx a.image.length) a with
        | some e => d.armReject e
        | none =>
          if d.mirroring then
            (Dev.peerPut { d with arm := { d.arm with commitStage := 1 } } 0x10000000 a.image).peerSend 0x0A
              [a.epoch, a.image.length, crc32c a.image]
          else d.commitWrite a

/-- Where the plinth writes after a commit point stand. -/
def Dev.setPlinthStep (d : Dev) (s : PlinthStep) : Dev := { d with arm := { d.arm with plinth := { d.arm.plinth with step := s } } }

/-- The plinth writes after a commit point go on when two copies hold the last (table 3-14, R800): the image of a first commit is followed by
both directory blocks; a commit mark, or both blocks, end them. -/
def Dev.plinthGoesOn (d : Dev) (acks : Nat) : Dev :=
  match d.arm.active, d.arm.plinth.step with
  | some a, .image =>
    if acks < 2 then d
    else
      let p := PDir.blank.withSlot 0 (a.slotEntry true)
      ((d.putDir p "directory").putDir p "directory").setPlinthStep .dirs
  | some _, .mark | some _, .dirs => if acks < 2 then d else d.setPlinthStep .none
  | _, _ => d

/-- ARM_PLINTH_WRITTEN (R136, R137, R800): for a commit, fewer than two acknowledgements, or a failed vault write, end it; otherwise the vault
slot and the commit record are being written. After a commit point it acknowledges the write that the plinth awaits. -/
def Dev.armPlinthWritten (d : Dev) (acks : Nat) (vaultOk : Bool) : Dev :=
  match d.arm.maquette with
  | none => d.plinthGoesOn acks
  | some a =>
    if d.maq ≠ 5 then d.plinthGoesOn acks
    else if d.arm.commitStage = 2 then
      if acks < 2 then d.commitBack 0x0C01
      else if !vaultOk then d.commitBack 0x0C02
      else Dev.emit { d with arm := { d.arm with commitStage := 3 } } (.vault "armature" a.epoch)
    else if d.arm.commitStage = 3 ∧ !vaultOk then d.commitBack 0x0C02
    else d.plinthGoesOn acks

/-! ### The switch -/

/-- Members whose entries are new in an epoch, or replace a RETIRED member's (R249). -/
def newMembers (old : Option Armature) (a : Armature) : List Nat :=
  (List.range a.members.length).filter fun m => match old with
    | none => true
    | some o => match o.members[m]? with
      | some x => (a.members[m]?).any (· != x)
      | none => true

/-- Enters the members that an epoch adds or replaces: ABSENT, joining (R249, R582). -/
def Dev.enterMembers (d : Dev) (ms : List Nat) (n : Nat) : Dev :=
  let pad := d.mbrs ++ List.replicate (n - d.mbrs.length) Mbr.blank
  let fresh : Mbr := { Mbr.blank with labelPending := true, absentUs := d.now, joinEpoch := d.epoch }
  let enter := fun (x : Mbr × Nat) => if ms.contains x.2 then fresh else x.1
  let d := { d with mbrs := pad.zipIdx.map enter }
  d.offerStates ms

/-- Enters the positions that an epoch places anew in the fill list, a position already there going back to cycle 0 (R797).
Entries of a pool that the new epoch makes vacant go, for it has no position left. -/
def Dev.enterFills (d : Dev) (ps : List (Nat × Nat × Nat)) : Dev :=
  let there := fun (p : Nat) => match d.arm.active with | some a => (a.pool p).isSome | none => false
  let keep := d.arm.fills.filter fun f => !ps.contains (f.pool, f.group, f.pos) && there f.pool
  let fills := keep ++ ps.map fun x => FillEntry.mk x.1 x.2.1 x.2.2 0
  if fills = d.arm.fills then d else Dev.putFills { d with arm := { d.arm with fills := fills } }

/-- Zeroing of every extent of the pools, other than the plinth, that an epoch fills or appends (R307); that of a
pool it makes vacant is dropped. -/
def Dev.initPools (d : Dev) (old : Option Armature) (a : Armature) : Dev :=
  let new := a.poolNums.filter fun p => (match old with | some o => (o.pool p).isNone | none => true) &&
    !(match a.pool p with | some c => c.plinth | none => true)
  let jobs := new.flatMap fun p => match a.pool p with
    | some c => c.extents.map fun e => ZeroJob.mk p e.member e.base (spanOf a c e) 0 none none false false 0
    | none => []
  let keep := d.arm.zeroing.filter fun z => (a.pool z.pool).isSome || z.ns != 0
  { d with arm := { d.arm with zeroing := keep ++ jobs } }

/-- The stripes an epoch adds to namespaces are made ready (R492). -/
def Dev.readyNs (d : Dev) (old : Option Armature) (a : Armature) : Dev :=
  a.namespaces.foldl (fun (d : Dev) n =>
    let had := match old with
      | some o => (match o.ns n.nsid with | some x => x.count | none => 0)
      | none => 0
    if n.count ≤ had then d
    else match a.pool n.pool with
      | none => d
      | some c =>
        let d := { d with arm := { d.arm with nsReady := AMap.put d.arm.nsReady n.nsid had } }
        d.zeroStripes n.nsid n.pool c (n.first + had) (n.count - had)) d

/-- Links of groups whose bifurcation mode an epoch changes retrain; their enumeration is abandoned (R570). -/
def Dev.retrain (d : Dev) (old : Option Armature) (a : Armature) : Dev :=
  let changed := (List.range 6).filter fun g => match old with
    | some o => o.modes.getD g 0 != a.modes.getD g 0
    | none => d.opt.boot / 4 ^ g % 4 != a.modes.getD g 0
  let hit := fun (l : Nat) => changed.contains (l / 8)
  let down := fun (x : MLink × Nat) => if hit x.2 then { x.1 with up := false } else x.1
  { d with mport := { d.mport with links := d.mport.links.zipIdx.map down,
                                   enumLeft := d.mport.enumLeft.filter fun l => !hit l } }

/-- The active epoch switches (table 3-14): the maquette's armature becomes active, the old one drains, and everything that a new
epoch starts begins. -/
def Dev.switchEpoch (d : Dev) (a : Armature) : Dev :=
  let old := d.arm.active
  let fills := newPositions old a
  let new := newMembers old a
  let added := d.addedNs a
  let d := { d with arm := { d.arm with active := some a, draining := old, maquette := none, commitStage := 0 } }
  let d := ((d.p Reg.ARM_EPOCH_ACTIVE_EPOCH a.epoch).p Reg.ARM_EPOCH_STAGED_EPOCH 0).p Reg.ARM_STATUS_MAQ_STATE 0
  let d := match old with
    | some o => (d.p Reg.ARM_EPOCH_DRAINING_EPOCH o.epoch).p Reg.ARM_STATUS_DRAINING 1
    | none => d.p Reg.ARM_STATUS_DONE 1
  let d := if old.isNone && !d.solo && d.on Reg.ACD_STATUS_STEWARD && d.g Reg.ACD_OWN_POOLS = 0 then
      let all := 2 ^ 64 - 1
      Dev.emit { (d.p Reg.ACD_OWN_POOLS all) with acd := { d.acd with record := d.acd.record.map fun r => { r with pools := all } } }
        (.vault "accord record" 0)
    else d
  let d := (d.enterFills fills).enterMembers new a.members.length
  let d := (d.bindNew added).retrain old a
  let d := ((d.initPools old a).readyNs old a).zeroPump
  d.vendorEvent 3

/-- The commit mark of the active epoch is written in the plinth directory (table 3-14); while no directory has been written, the writes of a
first commit begin instead (R800). -/
def Dev.markPlinth (d : Dev) (a : Armature) : Dev :=
  if d.arm.plinth.dir.seq = 0 then (d.setPlinthStep .labels).firstImage
  else
    let p := d.arm.plinth.dir
    (d.putDir (p.withSlot (p.slotFor a.epoch) (a.slotEntry true)) "directory").setPlinthStep .mark

/-- The writes that follow the commit point, which the steward does: the labels of members new in the epoch and identified, and of the
plinth's members (R151, R152), and the commit mark in the plinth directory. -/
def Dev.afterCommit (d : Dev) (a : Armature) : Dev :=
  if !d.steward then d
  else
    let d : Dev := (List.range a.members.length).foldl (fun (d : Dev) m =>
      if a.plinthMembers.contains m && (d.mbr m).matched.isSome && (d.mbr m).st.active && !(d.mbr m).labelPending then d.writeLabel m
      else d.labelMember m) d
    d.markPlinth a

/-- The vault slot that an epoch's image takes: the one that does not hold the active epoch (table 3-14). -/
def Dev.freeVaultSlot (d : Dev) : Nat := match d.arm.vaultSlots.find? fun x => x.2.epoch == d.epoch with | some x => 1 - x.1 | none => 0

/-- Whether writes of the lines of an epoch's rows are still on their way (R361). -/
def Dev.rowsPending (d : Dev) (epoch : Nat) : Bool := d.fab.rowWrites.any fun w => w.left.any fun x => x.1.epoch == epoch

/-- The switch of a commit whose record is durable, once the maquette's rows are globally visible (R134, R135, R361). -/
def Dev.commitSwitch (d : Dev) (a : Armature) : Dev :=
  let d := if d.mirroring then d.peerSend 0x0C [a.epoch] else d
  (d.switchEpoch a).afterCommit a

/-- ARM_COMMIT_POINT (R135): the vault commit record is durable. -/
def Dev.armCommitPoint (d : Dev) : Dev :=
  match d.arm.maquette with
  | none => d
  | some a =>
    if d.maq != 5 || d.arm.commitStage != 3 then d
    else
      let d := { d with arm := { d.arm with vaultSlots := AMap.put d.arm.vaultSlots d.freeVaultSlot a } }
      if d.rowsPending a.epoch then { d with arm := { d.arm with commitStage := 4 } } else d.commitSwitch a

/-! ### The drain -/

/-- Operations that hold the draining epoch (R145, table 3-26): internal operations, and host reads that looked up under it. -/
def Dev.drainCount (d : Dev) : Nat :=
  match d.arm.draining with
  | none => 0
  | some a => (d.ops.filter fun o => o.epoch == a.epoch && o.phase != .waitLock).length +
      (d.cmds.filter fun c => c.epoch == a.epoch && c.readIssued).length

/-- The drain is over (R145, R328): the old epoch's rows are invalid, keys of removed namespaces are destroyed, and erasures that
waited go on (R512). -/
def Dev.drainOver (d : Dev) : Dev :=
  let d := { d with arm := { d.arm with draining := none } }
  let d := ((d.p Reg.ARM_STATUS_DRAINING 0).p Reg.ARM_EPOCH_DRAINING_EPOCH 0).p Reg.ARM_STATUS_DONE 1
  let wake := fun (e : Erase) => { e with waiting := false }
  let d := d.destroyRemoved
  Dev.eraseAdvance { d with nvm := { d.nvm with erases := d.nvm.erases.map wake } }

/-- Does what awaited writes of resolved rows that are now globally visible (R361): the ends of operations, the switch of a commit, and the
end of the drain. -/
def Dev.rowsDue (d : Dev) : Dev :=
  let d := d.rowsVisible
  let ended := fun (w : RowWrite) => w.left.isEmpty && w.act == .drained
  let d := if d.fab.rowWrites.any ended then
      Dev.drainOver { d with fab := { d.fab with rowWrites := d.fab.rowWrites.filter fun w => !ended w } }
    else d
  match d.arm.maquette with
  | some a => if d.arm.commitStage = 4 ∧ !d.rowsPending a.epoch then d.commitSwitch a else d
  | none => d

/-- ARM_DRAIN_END (R145): no operation holds the draining epoch, and its resolved rows are written invalid; the drain is over when those
writes are globally visible (R135, R361). -/
def Dev.armDrainEnd (d : Dev) : Dev :=
  match d.arm.draining with
  | none => d
  | some a =>
    if d.drainCount != 0 || d.fab.rowWrites.any (·.act == .drained) then d else (d.writeRows a.lines .drained).rowsDue

/-- ARM_DISCARD (table 3-13). -/
def Dev.armDiscard (d : Dev) (req : Requester) (internal : Bool) : Dev :=
  d.armCtrl req internal fun d =>
    if decide (1 ≤ d.maq ∧ d.maq ≤ 4) && d.steward then (d.dropMaquette).p Reg.ARM_STATUS_MAQ_STATE 0 else d.armRefuse

end Sys2Proof.Machine
end

