-- ==== Sys2Proof/Machine/Ckpt.lean ====
section
/-!
DEFINITION. Checkpoints (R150, R235 to R238) and recovery replay (R195, R239, R240, R253, R802, R804).
-/
namespace Sys2Proof.Machine

/-! ### Checkpoints -/

/-- Unretired metadata records. -/
def Dev.metaRecs (d : Dev) : List JRec := d.jnl.recs.filter fun r => r.typ.isMeta && !r.retired

/-- The checkpoint area of a directory that the next exception checkpoint takes: the older of the two (R150). -/
def PDir.olderArea (p : PDir) : Nat := if p.exc0.number ≤ p.exc1.number then 0 else 1

/-- Starts the checkpoints of R237: the exception checkpoint first, its entries and the head captured together, its area and the directory
written on every plinth copy (R150). The partner of a steward writes none (table 14-4); while one runs, or before the plinth holds a
directory, the trigger waits or passes. -/
def Dev.ckptStart (d : Dev) : Dev :=
  match d.arm.active.bind (·.plinthCfg), d.arm.active, d.jnl.ckpt with
  | some (_, c), some a, none =>
    if !d.running || !d.steward || d.arm.plinth.dir.seq = 0 then d
    else
      let old := d.arm.plinth.dir
      let n := d.jnl.eckpt.number + 1
      let bs := excBytes d.arm.excs
      let ws := d.plinthWrites (plinthExcAt c a.excCapacity old.olderArea) 0 (blocksOf bs)
      let run : CkptRun := ⟨d.head, d.arm.excs, false, [], [], 0, old, false⟩
      let d := Dev.emit { d with jnl := { d.jnl with ckpt := some run } } (.plinth "exception checkpoint" n ws)
      d.putDir (old.withArea old.olderArea ⟨n, d.head, d.arm.excs.length, crc32c bs⟩) "directory"
  | _, _, some run => { d with jnl := { d.jnl with ckpt := some { run with again := true } } }
  | _, _, _ => d

/-- CKPT_INTERVAL_EXPIRY (R237). -/
def Dev.ckptIntervalExpiry (d : Dev) : Dev := d.ckptStart

/-- CKPT_METADATA_TRIGGER: unretired metadata records take more than 1/16 of the header slots (R237). -/
def Dev.ckptMetadataTrigger (d : Dev) : Dev :=
  if d.g Reg.JNL_HDR_SLOTS_COUNT < 16 * d.metaRecs.length then d.ckptStart else d

/-- CKPT_NOW: a write of JNL_CTRL.CKPT_NOW (R237). -/
def Dev.ckptNow (d : Dev) (req : Requester) : Dev := d.globalCmd req Reg.JNL_CTRL_CKPT_NOW fun d => d.ckptStart

/-- The MEMBER_STATE entries of a checkpoint image, in member order (table 5-9). -/
def Dev.memberEntries (d : Dev) : List MetaEntry := (List.range d.mbrs.length).map d.stateEntry

/-- The journal checkpoint starts: its image is captured, and the head with it, and goes to the area with the lower number (R237). -/
def Dev.jckptStart (d : Dev) (x : CkptRun) : Dev :=
  let x := { x with covered := d.head, excDone := true, members := d.memberEntries, lost := d.jnl.lost, peerSeq := d.acd.applied }
  let n := d.jnl.jckpt.number + 1
  let img := JCkpt.image ⟨n, x.covered, x.members, x.lost⟩
  let ws := match d.arm.active.bind fun a => a.plinthCfg.map fun c => plinthJckAt c.2 a.excCapacity (1 - d.arm.plinth.jckArea) with
    | some s0 => d.plinthWrites s0 0 (blocksOf img)
    | none => []
  Dev.emit { d with jnl := { d.jnl with ckpt := some x } } (.plinth "journal checkpoint" n ws)

/-- The exception checkpoint under way is durable: the control block names it, and then the exception records that it covers retire (R150,
R188). -/
def Dev.eckptDone (d : Dev) (x : CkptRun) : Dev :=
  let n := d.jnl.eckpt.number + 1
  let d := { d with jnl := { d.jnl with eckpt := ECkpt.mk n x.covered x.excs } }
  let d := d.putCtrl d.jnl.cbTail d.jnl.sealSeq d.jnl.sealFlags d.jnl.cbJckpt n
  let done := fun (rs : List JRec) =>
    (rs.filter fun r => (r.typ == .excInsert || r.typ == .excDelete) && decide (r.seq ≤ x.covered)).map (·.seq)
  (d.retire (done d.jnl.recs)).retireAdopted (done d.acd.adopted)

/-- The journal checkpoint under way is durable: the control block names it, the partner is told what it covers of its own (table 14-4), and
the MEMBER_STATE and LOST records that it covers retire (R188, R238). -/
def Dev.jckptDone (d : Dev) (x : CkptRun) : Dev :=
  let n := d.jnl.jckpt.number + 1
  let d := { d with jnl := { d.jnl with jckpt := JCkpt.mk n x.covered x.members x.lost },
                    arm := { d.arm with plinth := { d.arm.plinth with jckArea := 1 - d.arm.plinth.jckArea } } }
  let d := d.putCtrl d.jnl.cbTail d.jnl.sealSeq d.jnl.sealFlags n d.jnl.cbEckpt
  let d := if d.mirroring then d.peerSend 0x0D [x.peerSeq] else d
  let done := fun (rs : List JRec) =>
    (rs.filter fun r => (r.typ == .memberState || r.typ == .lost) && decide (r.seq ≤ x.covered)).map (·.seq)
  (d.retire (done d.jnl.recs)).retireAdopted (done d.acd.adopted)

/-- EXC_CHECKPOINT_DURABLE (R150): with two acknowledgements the checkpoint is durable; with fewer CKPT_FAIL is set, none of its records
retires, and the directory keeps naming the areas that it named. The journal checkpoint of the trigger follows either way. -/
def Dev.excCheckpointDurable (d : Dev) (acks : Nat) : Dev :=
  match d.jnl.ckpt with
  | none => d
  | some x =>
    if x.excDone then d
    else if acks < 2 then
      let back := { d.arm.plinth.dir with exc0 := x.oldDir.exc0, exc1 := x.oldDir.exc1 }
      let d := { d with arm := { d.arm with plinth := { d.arm.plinth with dir := back } } }
      (d.p Reg.JNL_STATUS_CKPT_FAIL 1).jckptStart x
    else (d.eckptDone x).jckptStart x

/-- JOURNAL_CHECKPOINT_DURABLE (R238): with two acknowledgements the checkpoint is durable; with fewer CKPT_FAIL is set. A trigger that came
meanwhile starts the next checkpoints. -/
def Dev.journalCheckpointDurable (d : Dev) (acks : Nat) : Dev :=
  match d.jnl.ckpt with
  | none => d
  | some x =>
    if !x.excDone then d
    else
      let d := { d with jnl := { d.jnl with ckpt := none } }
      let d := if acks < 2 then d.p Reg.JNL_STATUS_CKPT_FAIL 1 else d.jckptDone x
      if x.again then d.ckptStart else d

/-! ### Replay -/

/-- Applies a MEMBER_STATE entry (R253): state, cause, mark and flags. -/
def Dev.applyState (d : Dev) (e : MetaEntry) : Dev :=
  match e with
  | .mst m st rd lp cause mark =>
    d.updMbr m fun x => { x with st := st, resyncDrl := rd, labelPending := lp, cause := cause,
                                 mark := if mark = 0 then none else some mark }
  | _ => d

/-- Applies the entries of a metadata record, as replay does (R234, R240). -/
def Dev.applyMeta (d : Dev) (r : JRec) : Dev :=
  r.entries.foldl (fun (d : Dev) e => match e, r.typ with
    | .exc x, .excDelete => d.delExc x
    | .exc x, _ => d.putExc x
    | .lost n f l clr rep, _ => d.applyLost n f l clr rep r.seq
    | e, _ => d.applyState e) d

/-- Whether every record of a group at or above the tail is in `keep` (R240). -/
def groupWhole (keep : List JRec) (tail : Nat) (r : JRec) : Bool :=
  (List.range r.count).all fun i => decide (r.first + i < tail) || keep.any (·.seq = r.first + i)

/-- The records replay keeps, and how many groups it drops (R240); `bad` are records whose CRC-32C fails. -/
def Dev.replayKeep (d : Dev) (bad : List Nat) : List JRec × Nat :=
  let seen := d.jnl.recs.filter fun r => decide (d.jnl.cbTail ≤ r.seq) && !bad.contains r.seq && !r.lost &&
    (!d.jnl.sealed || decide (r.seq ≤ d.jnl.sealSeq))
  let keep := seen.filter (groupWhole seen d.jnl.cbTail)
  (keep, (((seen.filter fun r => !groupWhole seen d.jnl.cbTail r).map (·.first)).eraseDups).length)

/-- Stripes that hold a block of a held range with REPAIR set (R804). -/
def Dev.repairStripes (d : Dev) : List (Nat × Nat) :=
  ((d.jnl.lost.filter (·.repair)).flatMap fun l => match d.nsPool l.nsid with
    | none => []
    | some (n, c) =>
      let sb := c.stripeBlocks
      (List.range (l.last (d.nsTop l.nsid) / sb + 1 - l.first / sb)).map fun i => (n.pool, n.first + l.first / sb + i)).eraseDups

/-- The departure marks and the identification that restored members wait for (R253): those restored as ONLINE or SUSPECT gain a mark at the
head, and with it a dirty-region log (R280, R281). -/
def Dev.restoreMembers (d : Dev) : Dev :=
  let fix := fun (x : Mbr) => match x.st with
    | .online | .suspect => { x with mark := some d.head, awaitId := true, window := [], readmits := [] }
    | .rebuilding => { x with awaitId := true, window := [], readmits := [] }
    | _ => { x with window := [], readmits := [] }
  let d := { d with mbrs := d.mbrs.map fix }
  (List.range d.mbrs.length).foldl (fun (d : Dev) m =>
    if (d.mbr m).st == .online || (d.mbr m).st == .suspect then d.drlOpen m else d) d

/-- The end of replay (R253, R804): member states are in force, sillage takes up its marks, and the journal runs. -/
def Dev.replayEnd (d : Dev) : Dev :=
  let d := d.restoreMembers
  let d : Dev := d.repairStripes.foldl (fun (d : Dev) x => d.markStripe x.1 x.2) d
  let d := d.p Reg.JNL_STATUS_STATE 2
  let rb := (List.range d.mbrs.length).filter fun m => (d.mbr m).st == .rebuilding
  let d := { d with sil := { d.sil with resync := rb.map fun m => ResyncAt.mk m none false 0 0 } }
  ((d.resyncMarks.barrierCheck).jnlStatus).zeroPump.readyCheck

/-! ### What the plinth holds (R146, R802) -/

/-- The armature that a plinth slot's bytes hold, where its commit mark and its CRC-32C are right (R146). -/
def armOfSlot (s : PSlot) (bs : List (Block × BitVec 128)) : Option Armature :=
  let img := (bs.flatMap fun x => blockBytes x.1).take s.length
  if s.marked && img.length == s.length && crc32c img == s.crc then
    match structurePhase img with
    | .ok secs => some (decodeArmature img secs)
    | .error _ => none
  else none

/-- The newest armature that the plinth copies hold under a commit mark: that of the directory with the highest sequence, and of its two slots
the one with the later epoch (R146, R798). -/
def plinthArmature (rs : List PlinthRead) : Option Armature :=
  let found := rs.flatMap fun r => r.dirs.filterMap fun x => (readDir none (blockBytes x.1)).map fun p => (p, r)
  let newest := (found.map (·.1.seq)).foldl max 0
  let from_ := (found.filter (·.1.seq = newest)).flatMap fun x => (armOfSlot x.1.slot0 x.2.arm0).toList ++ (armOfSlot x.1.slot1 x.2.arm1).toList
  match from_.find? fun a => from_.any fun b => b.epoch == prevEpoch a.epoch with
  | some a => some a
  | none => from_.head?

/-- Takes the active armature from the plinth, where no vault slot holds one (R146). -/
def Dev.plinthRestore (d : Dev) (rs : List PlinthRead) : Dev :=
  if d.arm.active.isSome || !d.arm.vaultSlots.isEmpty then d
  else match plinthArmature rs with
    | some a => Dev.p { d with arm := { d.arm with active := some a } } Reg.ARM_EPOCH_ACTIVE_EPOCH a.epoch
    | none => d

/-- The newest valid directory and checkpoints of the copies taken (R238, R798, R802): at COLD and WARM exit they replace what the device
held; an in-place resume keeps its own. -/
def Dev.readPlinth (d : Dev) (rs : List PlinthRead) : Dev :=
  match d.arm.active with
  | none => { d with jnl := { d.jnl with jckpt := ⟨0, 0, [], []⟩, eckpt := ⟨0, 0, []⟩ } }
  | some a =>
    if d.vlt.resuming then d
    else
      let (dir, blk) := (newestDir a rs).getD (PDir.blank, 1)
      let e := (d.newestEck a rs dir).getD ⟨0, 0, []⟩
      let (j, n) := (newestJck a rs).getD (⟨0, 0, [], []⟩, 1)
      { d with jnl := { d.jnl with jckpt := j, eckpt := e }, arm := { d.arm with plinth := ⟨dir, blk, n, .none⟩ } }

/-- Whether the copies taken suffice (R802): they hold the checkpoints that the control block names, or newer ones; or, where it names none, all
copies but one are there. With no armature there is no plinth, and an in-place resume reads none. -/
def Dev.replayReady (d : Dev) (rs : List PlinthRead) : Bool :=
  match d.arm.active with
  | none => true
  | some a =>
    if d.vlt.resuming then true
    else if d.jnl.cbValid && (d.jnl.cbJckpt != 0 || d.jnl.cbEckpt != 0) then
      let x := d.readPlinth rs
      decide (d.jnl.cbJckpt ≤ x.jnl.jckpt.number ∧ d.jnl.cbEckpt ≤ x.jnl.eckpt.number)
    else match a.plinthCfg with
      | none => true
      | some (_, c) => decide (c.code.c - 1 ≤ rs.length)

/-- The steward completes the plinth writes of a commit that a reset or power loss interrupted (table 3-16, R800). -/
def Dev.redoPlinth (d : Dev) : Dev :=
  match d.arm.active with
  | some a => if d.steward && (d.arm.plinth.dir.slotOf a.epoch).isNone && a.plinthPool.isSome then d.markPlinth a else d
  | none => d

/-! ### The procedure (R240) -/

/-- The start of an empty journal (R195): the next sequence is the covered sequence of the newer checkpoint + 2^32, or 1. -/
def Dev.startEmpty (d : Dev) : Dev :=
  let next := if d.jnl.jckpt.number = 0 then 1 else d.jnl.jckpt.covered + 2 ^ 32
  let d := (d.p Reg.JNL_HEAD_SEQ_SEQ (next - 1)).p Reg.JNL_TAIL_SEQ_SEQ next
  let d := { d with jnl := { d.jnl with recs := [], groups := [], waiting := [], payNext := 0 } }
  d.putCtrl next 0 0 d.jnl.jckpt.number d.jnl.eckpt.number

/-- Loads what the checkpoints hold: member states, lost ranges and exceptions. -/
def Dev.loadCkpts (d : Dev) : Dev :=
  let n := d.memberTable.length
  let keep := fun (x : Mbr × Nat) =>
    { x.1 with matched := (d.mbr x.2).matched, joinEpoch := (d.mbr x.2).joinEpoch, drl := (d.mbr x.2).drl }
  let d := { d with mbrs := (List.replicate n Mbr.blank).zipIdx.map keep }
  let d : Dev := d.jnl.jckpt.members.foldl (fun (d : Dev) e => d.applyState e) d
  let d := { d with arm := { d.arm with excs := d.jnl.eckpt.entries } }
  d.setLost d.jnl.jckpt.lost

/-- The journal index rebuilt from the records that replay keeps: those that the checkpoints cover have retired, and every stripe that holds
data records of the local or the adopted journal takes REWRITE first (R217, R240). -/
def Dev.rebuildIndex (d : Dev) (keep : List JRec) : Dev :=
  let c := d.jnl.jckpt.covered
  let ec := d.jnl.eckpt.covered
  let isState := fun (r : JRec) => r.typ == .memberState || r.typ == .lost
  let isExc := fun (r : JRec) => r.typ == .excInsert || r.typ == .excDelete
  let done := fun (r : JRec) => { r with inPlace := true, retired := (isState r && decide (r.seq ≤ c)) || (isExc r && decide (r.seq ≤ ec)) }
  let firsts := (keep.map fun r => (r.first, r.count)).eraseDups
  let held := keep ++ d.acd.adopted.filter (!·.retired)
  let stripes := ((held.filter fun r => !r.typ.isMeta).map fun r => (r.pool, r.stripe)).eraseDups
  let d := { d with jnl := { d.jnl with
    recs := keep.map done, groups := firsts.map fun x => JGroup.mk x.1 x.2 .other true true,
    waiting := [], flushes := [], readers := [], rewrite := stripes, disagree := [], marked := [], fixing := [],
    payNext := ((keep.getLast?).map fun r => (r.payIdx + r.payBlocks) % d.g Reg.JNL_PAY_BLOCKS_COUNT).getD 0 } }
  let d : Dev := (keep.filter fun r => isState r && decide (c < r.seq)).foldl (fun (d : Dev) r => d.applyMeta r) d
  let d : Dev := (keep.filter fun r => isExc r && decide (ec < r.seq)).foldl (fun (d : Dev) r => d.applyMeta r) d
  d.putCtrl d.jnl.cbTail 0 0 d.jnl.cbJckpt d.jnl.cbEckpt

/-- REPLAY (R240): the journal is rebuilt from the records in the protected area and the checkpoints of the plinth, and runs. `copies` is what
the plinth copies answer (R802), and `bad` are records whose CRC-32C fails. -/
def Dev.replay (d : Dev) (copies : List PlinthRead) (bad : List Nat) : Dev :=
  let d' := d.plinthRestore (d.plinthCopies copies)
  let rs := d'.plinthCopies copies
  if d.g Reg.JNL_STATUS_STATE != 1 || !d'.replayReady rs then d
  else
    let d := (d'.readPlinth rs).loadCkpts
    if !d.jnl.cbValid then (d.startEmpty.replayEnd).redoPlinth
    else
      let (keep, dropped) := d.replayKeep bad
      let head := (keep.map (·.seq)).foldl max (d.jnl.cbTail - 1)
      let d := d.incBy Reg.JNL_REPLAY_DISCARDS_COUNT dropped
      let d := (d.p Reg.JNL_HEAD_SEQ_SEQ head).p Reg.JNL_TAIL_SEQ_SEQ d.jnl.cbTail
      ((d.rebuildIndex keep).advanceTail.replayEnd).redoPlinth

end Sys2Proof.Machine
end

