-- ==== Sys2Proof/Machine/Sillage.lean ====
section
/-!
DEFINITION. Sillage and scrub (R261 to R286, R271 to R275): allowances, the choice of the next unit of work in class order, its
start, and the end of a resynchronisation, a fill or a scrub pass.
-/
namespace Sys2Proof.Machine

/-! ### What is pending -/

/-- Whether a sillage operation on a stripe runs already. -/
def Dev.silBusy (d : Dev) (p s : Nat) : Bool :=
  d.ops.any fun o => o.pool == p && o.stripe == s && (match o.kind with
    | .destage | .degraded _ | .overwrite _ => false
    | _ => true)

/-- Whether a stripe that a scrub counted as DEGRADED work is still not wholly readable (R273). -/
def Dev.stillCounted (d : Dev) (p : Nat) (c : PoolCfg) : Bool := d.sil.counted.any fun x => x.1 == p && !d.whollyReadable c p x.2

/-- Whether DEGRADED, RESYNC or FILL work is pending in a pool (R262). -/
def Dev.workPending (d : Dev) (p : Nat) (c : PoolCfg) : Bool :=
  !(d.hurtStripes p c).isEmpty || d.stillCounted p c || d.arm.excs.any (fun e => e.pool == p && e.relaxed) ||
  d.sil.resync.any (fun r => (c.extent r.member).isSome) || d.arm.fills.any (·.pool = p)

/-! ### Allowances (R262 to R264) -/

/-- A share in percent, 1 to 100. -/
def Dev.share (d : Dev) (f : Fld) : Nat := d.gClamp f 1 100

/-- The allowance of a member, in percent (R262). -/
def Dev.allowance (d : Dev) (m : Nat) : Nat :=
  let ps := d.silPools.filter fun pc => (pc.2.extent m).isSome
  if ps.any fun pc => d.critPending pc.1 pc.2 then d.share Reg.SIL_SHARE_CRIT_SHARE
  else if ps.any fun pc => d.workPending pc.1 pc.2 then d.share Reg.SIL_SHARE_SHARE
  else min 100 (d.g Reg.SIL_SHARE_SCRUB_SHARE)

/-- Whether a member has a host read, drydown or degraded-read command queued (R264). -/
def Dev.hostQueued (d : Dev) (m : Nat) : Bool :=
  d.mcmds.any fun c => c.member == m && !c.sillage && (c.kind == .read || c.kind == .write || c.kind == .tagWrite) && c.phase != .held

/-- Whether a member's sillage use in the 100 ms interval now ending is above its allowance (R263): on a ROT member the time with a sillage
command outstanding, on another the mean share of its command limit. -/
def Dev.silOver (d : Dev) (m : Nat) : Bool :=
  let x := d.mbr m
  if d.rot m then decide (d.allowance m * 100000 < 100 * x.silBusyUs)
  else decide (d.allowance m * (100000 * d.qdLimit m) < 100 * x.silSumUs)

/-- SILLAGE_INTERVAL: each member's use in the interval is measured against its allowance, and the next interval begins (R263). -/
def Dev.sillageInterval (d : Dev) : Dev :=
  let ms := List.range d.mbrs.length
  let d : Dev := ms.foldl (fun (d : Dev) m => d.silAccount m) d
  let fresh := fun (x : Mbr) => { x with silBusyUs := 0, silSumUs := 0 }
  { d with sil := { d.sil with overUse := ms.filter d.silOver }, mbrs := d.mbrs.map fresh }

/-- Whether a member is within its allowance, or may exceed it because nothing else waits for it (R264, R265). -/
def Dev.within (d : Dev) (m : Nat) : Bool :=
  (!d.sil.overUse.contains m && d.allowance m != 0) || (d.on Reg.SIL_SHARE_IDLE_FILL && !d.hostQueued m)

/-! ### Units of work -/

/-- A unit of work: the operation it starts, and the members it reads or writes. -/
structure SilUnit where
  kind : OpKind
  pool : Nat
  stripe : Nat
  excl : Bool
  rows : List RowWork
  members : List Nat
deriving DecidableEq, Repr

/-- Members that a reconstruction of fragments of a stripe reads, in the passes of R257, with the anchor that R807 adds. -/
def Dev.planMembers (d : Dev) (c : PoolCfg) (p s : Nat) (want : List Nat) : List Nat :=
  let av := fun q f => !want.contains f && d.fragAvailable c p s q f
  let plan := fun q => c.code.decodePlan (av q) (d.mirrorPick c p s (av q)) want
  let reads := match plan false with
    | some x => x.reads
    | none => match plan true with | some x => x.reads | none => []
  let anchor := if reads.any c.code.isAnchor then [] else (c.code.anchors.filter (av true)).take 1
  (reads ++ anchor).filterMap fun f => ((d.resolve c p s f).loc?).map (·.member)

/-- Members on which a stripe's fragments resolve. -/
def Dev.stripeMembers (d : Dev) (c : PoolCfg) (p s : Nat) : List Nat :=
  (List.range c.code.width).filterMap fun f => ((d.resolve c p s f).loc?).map (·.member)

/-- Target members of a relocation of fragments of a stripe. -/
def Dev.targetMembers (d : Dev) (c : PoolCfg) (p s : Nat) (fs : List Nat) : List Nat := (d.chooseTargets c p s fs).1.map fun t => t.2.1

/-- The unit that rebuilds a stripe (R267), where it has a fragment to rebuild and has not failed to find a spare (R130, R808). -/
def Dev.rebuildUnit (d : Dev) (p : Nat) (c : PoolCfg) (s : Nat) : Option SilUnit :=
  let want := d.rebuildFrags c p s
  if want.isEmpty || d.sil.noSpare.contains (p, s) || d.silBusy p s || !d.namesStripe c s then none
  else some ⟨.relocate, p, s, false, [], d.planMembers c p s want ++ d.targetMembers c p s want⟩

/-- The unit that repairs a marked stripe (R275): it reads every row and writes its spare targets. -/
def Dev.repairUnit (d : Dev) (p : Nat) (c : PoolCfg) (s : Nat) : Option SilUnit :=
  if d.silBusy p s then none
  else some ⟨.unrecRepair, p, s, true, [], d.stripeMembers c p s ++ d.targetMembers c p s (d.rebuildFrags c p s)⟩

/-- Order of CRITICAL and DEGRADED work: remaining redundancy, pool, group, cycle (R265). -/
def Dev.unitKey (d : Dev) (u : SilUnit) : Nat × Nat × Nat × Nat :=
  match d.pool u.pool with
  | some c => (d.redundancy c u.pool u.stripe, u.pool, c.group u.stripe, u.stripe / c.groups)
  | none => (0, 0, 0, 0)

/-- Lexical order of two unit keys. -/
def keyLt (a b : Nat × Nat × Nat × Nat) : Bool :=
  decide (a.1 < b.1 ∨ (a.1 = b.1 ∧ (a.2.1 < b.2.1 ∨ (a.2.1 = b.2.1 ∧
    (a.2.2.1 < b.2.2.1 ∨ (a.2.2.1 = b.2.2.1 ∧ a.2.2.2 < b.2.2.2))))))

/-- The first of some units by their keys. -/
def Dev.firstUnit (d : Dev) (us : List SilUnit) : Option SilUnit :=
  us.foldl (fun (b : Option SilUnit) u => match b with
    | none => some u
    | some x => if keyLt (d.unitKey u) (d.unitKey x) then some u else some x) none

/-- CRITICAL units that may start. -/
def Dev.criticalUnits (d : Dev) : List SilUnit :=
  d.silPools.flatMap fun pc =>
    (((d.jnl.marked.filter (·.1 = pc.1)).filterMap fun x => d.repairUnit pc.1 pc.2 x.2)) ++
    ((d.hurtStripes pc.1 pc.2).filter fun s => d.isCritical pc.1 pc.2 s && !d.jnl.marked.contains (pc.1, s)).filterMap (d.rebuildUnit pc.1 pc.2)

/-- DEGRADED units that may start, RELAXED relocations left out. -/
def Dev.degradedUnits (d : Dev) : List SilUnit :=
  d.silPools.flatMap fun pc =>
    ((d.hurtStripes pc.1 pc.2).filter fun s => !d.isCritical pc.1 pc.2 s && !d.jnl.marked.contains (pc.1, s)).filterMap (d.rebuildUnit pc.1 pc.2)

/-- RELAXED relocations that now have a target within the domain rule (R131), one unit for a stripe. -/
def Dev.relaxedUnits (d : Dev) : List SilUnit :=
  d.silPools.flatMap fun pc =>
    let es := d.arm.excs.filter fun e => e.pool == pc.1 && e.relaxed
    ((es.map (·.stripe)).eraseDups).filterMap fun s =>
      let ts := d.relaxedTargets pc.2 pc.1 s
      if ts.isEmpty || d.silBusy pc.1 s || !(d.rebuildFrags pc.2 pc.1 s).isEmpty then none
      else
        let from_ := (es.filter fun e => e.stripe == s && ts.any (·.1 = e.frag)).map (·.member)
        some ⟨.relocate, pc.1, s, false, [], from_ ++ ts.map fun t => t.2.1⟩

/-! ### Resynchronisation (R283) -/

/-- Data blocks of one dirty region on a member's extent of a pool: slots with a block in the region. -/
def Dev.regionSlots (d : Dev) (m i : Nat) (c : PoolCfg) : List Nat :=
  let lg := match (d.mbr m).drl with | some g => g.regionLog2 | none => d.drlLog2 m
  let per := 2 ^ (lg - 12)
  match c.extent m with
  | none => []
  | some e => (List.range (e.dataSlots + e.spareSlots)).filter fun s =>
      (List.range c.fragBlocks).any fun b => lbaOfBlock (d.tagSect m) e.base (c.blockOf s b) / per == i

/-- Block rows of a slot that lie in a region. -/
def Dev.regionRows (d : Dev) (m i : Nat) (c : PoolCfg) (slot : Nat) : List Nat :=
  let lg := match (d.mbr m).drl with | some g => g.regionLog2 | none => d.drlLog2 m
  let per := 2 ^ (lg - 12)
  match c.extent m with
  | none => []
  | some e => (List.range c.fragBlocks).filter fun b => lbaOfBlock (d.tagSect m) e.base (c.blockOf slot b) / per == i

/-- Regions of a member's whole capacity (R278). -/
def Dev.allRegions (d : Dev) (m : Nat) : Nat :=
  ceilDiv ((match d.memberTable[m]? with | some a => a.capacity | none => 0) * 4096) (2 ^ d.drlLog2 m)

/-- Regions of a member not yet resynchronised: the dirty ones, or, without a DRL, all not yet done (R281). -/
def Dev.regionsLeft (d : Dev) (m : Nat) : Nat :=
  match (d.mbr m).drl with
  | some g => g.bits.length
  | none => d.allRegions m - (d.mbr m).doneRegions

/-- The region a member's resynchronisation works on: the lowest dirty one, or, without a DRL, the next of all. -/
def Dev.resyncRegion (d : Dev) (m : Nat) : Option Nat :=
  match (d.mbr m).drl with
  | some g => g.bits.foldl (fun (b : Option Nat) x => match b with | none => some x | some y => some (min x y)) none
  | none => if (d.mbr m).doneRegions < d.allRegions m then some (d.mbr m).doneRegions else none

/-- Pools of the active armature that this package owns and that have an extent on a member, ascending; those sillage may not work on now are
among them. -/
def Dev.resyncPools (d : Dev) (m : Nat) : List (Nat × PoolCfg) :=
  match d.arm.active with
  | none => []
  | some a => a.poolNums.filterMap fun p =>
      if d.ownsPool p then (a.pool p).bind fun c => if (c.extent m).isSome then some (p, c) else none else none

/-- The unit of one slot of a region: none where the procedure skips the slot. -/
def Dev.resyncUnit (d : Dev) (m i p : Nat) (c : PoolCfg) (slot : Nat) : Option SilUnit :=
  let unit := fun (s f : Nat) =>
    let rows := (d.regionRows m i c slot).map fun r => freshRow r .decode [] [f]
    if d.namesStripe c s then some (⟨.resync m, p, s, false, rows, m :: d.planMembers c p s [f]⟩ : SilUnit) else none
  match c.extent m with
  | none => none
  | some e =>
    if slot < e.dataSlots then
      let sf := c.homeOf m slot
      if (d.exc p sf.1 sf.2).isSome then none else unit sf.1 sf.2
    else (d.arm.excs.find? fun x => x.pool == p && x.member == m && x.spare + e.dataSlots == slot).bind fun x => unit x.stripe x.frag

/-- The exceptions of a pool whose placed position is on a member, ascending. -/
def Dev.copyBackExcs (d : Dev) (m p : Nat) (c : PoolCfg) : List ExcEntry :=
  let lt := fun (a b : ExcEntry) => decide (a.stripe < b.stripe ∨ (a.stripe = b.stripe ∧ a.frag ≤ b.frag))
  (d.arm.excs.filter fun e => e.pool == p && (c.place e.stripe e.frag).member == m).mergeSort lt

/-- The next copy-back of a member: pool, its configuration and the exception. -/
def Dev.copyBackNext (d : Dev) (m : Nat) : Option (Nat × PoolCfg × ExcEntry) :=
  (d.resyncPools m).findSome? fun pc => ((d.copyBackExcs m pc.1 pc.2).head?).map fun e => (pc.1, pc.2, e)

/-- Whether operations of a member's resynchronisation run. -/
def Dev.resyncing (d : Dev) (m : Nat) : Bool := d.ops.any fun o => o.kind == .resync m

/-- Moves the cursor of a member's resynchronisation. -/
def Dev.setCursor (d : Dev) (r : ResyncAt) : Dev :=
  { d with sil := { d.sil with resync := updWhere (fun (x : ResyncAt) => x.member == r.member) (fun _ => r) d.sil.resync } }

/-- Clears a region's bit, durable in the vault (R283). -/
def Dev.clearRegion (d : Dev) (m i : Nat) : Dev :=
  let drop := fun (g : Drl) => { g with bits := g.bits.filter (· ≠ i) }
  (d.updMbr m fun x => { x with drl := x.drl.map drop, doneRegions := x.doneRegions + 1 }).emit (.vault "DRL" m)

/-- DONE of a member's resynchronisation: applied by a standalone package; in accord the steward applies it when the partner has
reported its pools too (table 14-4). -/
def Dev.resyncDone (d : Dev) (m : Nat) : Dev :=
  let partner := d.mirroring && !d.acd.resyncDone.contains m
  if !d.steward then (d.resyncList m false).peerSend 0x0F [m]
  else if partner then d
  else
    let d := { d with acd := { d.acd with resyncDone := d.acd.resyncDone.filter (· ≠ m) } }
    if (d.mbr m).st = .rebuilding then d.setState m .online .none false false else d

/-- A unit of resynchronisation that may start: its pool is neither initialising nor held, and nothing else works on its stripe or is to
repair it. -/
def Dev.resyncMay (d : Dev) (u : SilUnit) : Bool :=
  d.silPool u.pool && !d.silBusy u.pool u.stripe && !d.jnl.marked.contains (u.pool, u.stripe)

/-- The next unit of a member's resynchronisation, and the state with its cursor at that unit, regions cleared and DONE raised as far as they
go (`fuel` slots and regions at most). A unit that may not start yet holds the procedure at its slot. -/
def Dev.resyncNext : Nat → Dev → Nat → Option SilUnit × Dev
  | 0, d, _ => (none, d)
  | fuel + 1, d, m =>
    match d.sil.resync.find? (·.member = m) with
    | none => (none, d)
    | some r =>
      if (d.mbr m).awaitId || d.resyncing m then (none, d)
      else match r.region with
      | some i =>
        let ahead := (d.resyncPools m).flatMap fun pc => (d.regionSlots m i pc.2).filterMap fun s =>
          if r.pool < pc.1 ∨ (r.pool = pc.1 ∧ r.slot ≤ s) then some (pc, s) else none
        match ahead with
        | [] => Dev.resyncNext fuel ((d.clearRegion m i).setCursor ⟨m, none, false, 0, 0⟩) m
        | (pc, s) :: _ =>
          match d.resyncUnit m i pc.1 pc.2 s with
          | none => Dev.resyncNext fuel (d.setCursor ⟨m, some i, false, pc.1, s + 1⟩) m
          | some u => if d.resyncMay u then (some u, d.setCursor ⟨m, some i, false, pc.1, s⟩) else (none, d)
      | none =>
        match (if r.copyBack then none else d.resyncRegion m) with
        | some i => Dev.resyncNext fuel (d.setCursor ⟨m, some i, false, 0, 0⟩) m
        | none =>
          let d := d.setCursor ⟨m, none, true, 0, 0⟩
          match d.copyBackNext m with
          | none => (none, d.resyncDone m)
          | some (p, c, e) =>
            let u : SilUnit := ⟨.resync m, p, e.stripe, false, allRows c .copy [e.frag], [m, e.member]⟩
            if d.resyncMay u then (some u, d) else (none, d)

/-! ### Fill and scrub -/

/-- Cycles of a pool's group. -/
def PoolCfg.cycles (c : PoolCfg) : Nat := c.stripes / c.groups

/-- Removes a finished fill entry: the position is READABLE, and the partner of an accord removes its own (R797). -/
def Dev.fillDone (d : Dev) (f : FillEntry) : Dev :=
  let d := Dev.putFills { d with arm := { d.arm with fills := d.arm.fills.filter fun x => !(x.pool == f.pool && x.group == f.group && x.pos == f.pos) } }
  let d := d.writeRows (d.rowArms.map fun a => rowLine f.pool f.group a.epoch f.pos) .none
  if d.mirroring then d.peerSend 0x12 [f.pool, f.pos, f.group] else d

/-- The next step of one fill entry (R139, R270): its end, a stripe that counts as filled, or a unit of work. -/
def Dev.fillStep : Nat → Dev → FillEntry → Option SilUnit × Dev
  | 0, d, _ => (none, d)
  | fuel + 1, d, f =>
    match d.pool f.pool with
    | none => (none, d.fillDone f)
    | some c =>
      let s := f.cursor * c.groups + f.group
      let frag := c.fragAt s f.pos
      let m := (c.place s frag).member
      if d.ops.any fun o => o.kind == .fill f.pos && o.pool == f.pool && (match d.pool o.pool with
          | some x => x.group o.stripe == f.group | none => false) then (none, d)
      else if c.cycles ≤ f.cursor then (none, d.fillDone f)
      else if !d.namesStripe c s then Dev.fillStep fuel (d.fillAdvance f.pool f.group f.pos) { f with cursor := f.cursor + 1 }
      else if !(d.mbr m).st.active || d.silBusy f.pool s || d.jnl.marked.contains (f.pool, s) then (none, d)
      else match d.exc f.pool s frag with
        | some e =>
          if c.reclaim then (some ⟨.fill f.pos, f.pool, s, false, allRows c .copy [frag], [m, e.member]⟩, d)
          else Dev.fillStep fuel (d.fillAdvance f.pool f.group f.pos) { f with cursor := f.cursor + 1 }
        | none => (some ⟨.fill f.pos, f.pool, s, false, allRows c .decode [frag], m :: d.planMembers c f.pool s [frag]⟩, d)

/-- Fill entries in ascending pool and group (R270). -/
def Dev.fillOrder (d : Dev) : List FillEntry :=
  (d.arm.fills.filter fun f => d.silPool f.pool).mergeSort fun a b =>
    decide (a.pool < b.pool ∨ (a.pool = b.pool ∧ (a.group < b.group ∨ (a.group = b.group ∧ a.pos ≤ b.pos))))

/-- The first fill unit, with finished entries removed on the way: one group at a time (R270). -/
def Dev.fillNext (d : Dev) : Option SilUnit × Dev :=
  d.fillOrder.foldl (fun (acc : Option SilUnit × Dev) f => match acc.1 with
    | some _ => acc
    | none =>
      if acc.2.ops.any fun o => (match o.kind with | .fill _ => true | _ => false) && (o.pool != f.pool ||
          (match d.pool o.pool with | some x => x.group o.stripe != f.group | none => true)) then acc
      else match d.pool f.pool with
        | some c => Dev.fillStep (c.cycles + 1) acc.2 f
        | none => Dev.fillStep 1 acc.2 f) ((none : Option SilUnit), d)

/-- The stripe after one in a scrub pass: the next of its pool, or the first of the next pool sillage may work on. -/
def Dev.scrubAfter (d : Dev) (p s : Nat) : Option (Nat × Nat) :=
  match d.silPools.find? (·.1 = p) with
  | some (_, c) => if s + 1 < c.stripes then some (p, s + 1)
      else (d.silPools.find? fun pc => decide (p < pc.1)).map fun pc => (pc.1, 0)
  | none => (d.silPools.find? fun pc => decide (p < pc.1)).map fun pc => (pc.1, 0)

/-- A scrub pass begins (R271). -/
def Dev.scrubBegin (d : Dev) : Dev :=
  if d.sil.scrubAt.isSome then d
  else match d.silPools with
    | [] => d
    | pc :: _ => { d with sil := { d.sil with scrubAt := some (pc.1, 0), scrubStartUs := d.now } }

/-- The pass moves to its next stripe, or has none left: it ends once the scrubs under way have (R271). -/
def Dev.scrubMove (d : Dev) (p s : Nat) : Dev :=
  { d with sil := { d.sil with scrubAt := some ((d.scrubAfter p s).getD (64, 0)) } }

/-- The scrub unit of a stripe. -/
def Dev.scrubUnit (d : Dev) (p s : Nat) : Option SilUnit :=
  match d.silPools.find? (·.1 = p) with
  | some (_, c) =>
    if s < c.stripes ∧ d.namesStripe c s then some ⟨.scrub, p, s, false, [], d.stripeMembers c p s⟩ else none
  | none => none

/-! ### Starting work -/

/-- Whether every member of a unit is within its allowance. -/
def Dev.unitFits (d : Dev) (u : SilUnit) : Bool := u.members.all d.within

/-- Starts a unit. -/
def Dev.startUnit (d : Dev) (u : SilUnit) : Dev := d.startOp u.kind u.pool u.stripe u.excl u.rows

/-- Whether sillage other than CRITICAL may start: not paused by software or a non-operational state (R266, R518). -/
def Dev.silRuns (d : Dev) : Bool := !d.on Reg.SIL_CTRL_PAUSE && (!d.nonOperational || d.noppme)

/-- The next RESYNC unit over all REBUILDING members. -/
def Dev.resyncAny (d : Dev) : Option SilUnit × Dev :=
  (d.sil.resync.map (·.member)).foldl (fun (acc : Option SilUnit × Dev) m => match acc.1 with
    | some _ => acc
    | none => Dev.resyncNext (262144 + 4) acc.2 m) ((none : Option SilUnit), d)

/-- The next scrub: a stripe queued ahead of the pass (R296), or the pass's next; it waits while other sillage works on the stripe. A stripe
that is not read is passed over. -/
def Dev.scrubNext (d : Dev) : Dev :=
  match d.sil.scrubQueue with
  | (p, s) :: rest =>
    match d.scrubUnit p s with
    | some u => if d.unitFits u && !d.silBusy p s then Dev.startUnit { d with sil := { d.sil with scrubQueue := rest } } u else d
    | none => { d with sil := { d.sil with scrubQueue := rest } }
  | [] => match d.sil.scrubAt with
    | none => d
    | some (p, s) => match d.scrubUnit p s with
      | some u => if d.unitFits u && !d.silBusy p s then (d.scrubMove p s).startUnit u else d
      | none => if p = 64 then d.scrubEnded else (d.scrubMove p s).scrubEnded

/-- SILLAGE_START: the next unit of work in class order starts, where its members are within their allowances (R265). -/
def Dev.sillageStart (d : Dev) : Dev :=
  if !d.running then d
  else match d.firstUnit d.criticalUnits with
    | some u => if d.unitFits u then d.startUnit u else d
    | none =>
      if !d.silRuns then d
      else match (match d.firstUnit d.degradedUnits with | some u => some u | none => d.firstUnit d.relaxedUnits) with
        | some u => if d.unitFits u then d.startUnit u else d
        | none =>
          match d.resyncAny with
          | (some u, d) => if d.unitFits u then d.startUnit u else d
          | (none, d) =>
            match d.fillNext with
            | (some u, d) => if d.unitFits u then d.startUnit u else d
            | (none, d) => d.scrubNext

/-! ### Timers and commands -/

/-- EXC_BATCH_EXPIRY: the 50 µs of gathering end (R267 step 5). -/
def Dev.excBatchExpiry (d : Dev) : Dev := d.flushGather

/-- SCRUB_PERIOD_EXPIRY: a pass begins, where PERIOD_DAYS is not 0 and none runs (R271). -/
def Dev.scrubPeriodExpiry (d : Dev) : Dev := if d.g Reg.SIL_SCRUB_PERIOD_DAYS = 0 then d else d.scrubBegin

/-- SCRUB_NOW (R271). -/
def Dev.scrubNow (d : Dev) (req : Requester) : Dev := d.globalCmd req Reg.SIL_CTRL_SCRUB_NOW fun d => d.scrubBegin

/-- ITG_CLR_COUNTS (R335): the tag, PI and scrub finding counters clear. -/
def Dev.itgClrCounts (d : Dev) (req : Requester) : Dev :=
  d.globalCmd req Reg.ITG_CTRL_CLR_COUNTS fun d =>
    [Reg.ITG_TAG_ERRS_CRC, Reg.ITG_TAG_ERRS_IDENTITY, Reg.ITG_TAG_ERRS_ROLE, Reg.ITG_PI_ERRS_GUARD, Reg.ITG_PI_ERRS_APP,
      Reg.ITG_PI_ERRS_REF, Reg.ITG_SCRUB_FIND_TAG_REPAIRED, Reg.ITG_SCRUB_FIND_PARITY_REPAIRED, Reg.ITG_SCRUB_FIND_ANCHOR,
      Reg.ITG_SCRUB_FIND_UNRECOV].foldl (fun (d : Dev) f => d.p f 0) d

end Sys2Proof.Machine
end

