-- ==== Sys2Proof/Machine/MemberPorts.lean ====
section
/-!
DEFINITION. Meanings of the member port rows (chapter 13): the escalation of timeouts (R590 to R592), removal and arrival (R593 to
R596), enumeration and identification (R577 to R582), slot power (R597 to R600), and the commands of the MBR_ block.
-/
namespace Sys2Proof.Machine

/-! ### Where members stand -/

/-- Global link index of a member's entry (R568). -/
def ArmMember.globalLink (m : ArmMember) : Nat := 8 * m.group + m.link
/-- Global link index of a discovered namespace. -/
def Disc.globalLink (x : Disc) : Nat := 8 * x.group + x.link

/-- Whether a list of downstream ports begins with another. -/
def portsUnder (pre ports : List Nat) : Bool := pre == ports.take pre.length

/-- The matched members below a link, or below one downstream port path on it. -/
def Dev.membersBelow (d : Dev) (link : Nat) (ports : List Nat) : List Nat :=
  (List.range d.memberTable.length).filter fun m => match d.memberTable[m]? with
    | some a => a.globalLink == link && portsUnder ports (a.ports.take a.hops) && (d.mbr m).matched.isSome
    | none => false

/-- The mode a group runs in (R569). -/
def Dev.groupMode (d : Dev) (g : Nat) : Nat :=
  match d.arm.active with
  | some a => a.modes.getD g 0
  | none => d.opt.boot / 4 ^ g % 4

/-- Whether the group's mode provides a link (R568). -/
def Dev.linkExists (d : Dev) (l : Nat) : Bool := decide (l < 48 ∧ l % 8 < 2 ^ d.groupMode (l / 8))

/-- Link `l`. -/
def Dev.link (d : Dev) (l : Nat) : MLink := d.mport.links.getD l ⟨false, false, false, 0, 0⟩
/-- Link `l` changed. -/
def Dev.updLink (d : Dev) (l : Nat) (f : MLink → MLink) : Dev :=
  { d with mport := { d.mport with links := updAt l f d.mport.links } }

/-! ### Escalation (R590, R591) -/

/-- Releases every held command of a member, and lets go on what R591 lets go on. -/
def Dev.releaseHeld (d : Dev) (m : Nat) : Dev :=
  let held := d.mcmds.filter fun c => c.member == m && c.phase == .held
  (held.foldl (fun (d : Dev) c => match d.mcmd c.id with
    | some x => d.releaseOne x
    | none => d) d).pump m

/-- Every outstanding I/O command of a member fails internally, its identifier held (R590 step 3). -/
def Dev.failOutstanding (d : Dev) (m : Nat) : Dev :=
  let out := d.mcmds.filter fun c => c.member == m && c.kind.isIo && c.phase == .outstanding
  let hold := fun (c : MCmd) => { c with phase := .held }
  let d := d.silAccount m
  let d := { d with mcmds := updWhere (fun (c : MCmd) => c.member == m && c.kind.isIo && c.phase == .outstanding) hold d.mcmds }
  out.foldl (fun (d : Dev) c => d.failHeld c) d

/-- Whether a command is an Abort. -/
def MKind.isAbort : MKind → Bool
  | .abort _ => true
  | _ => false

/-- The members that a member's controller serves, itself among them. -/
def Dev.ctlMembers (d : Dev) (m : Nat) : List Nat :=
  match d.ctlOf m with
  | none => [m]
  | some k => (List.range d.memberTable.length).filter fun x => x == m || d.ctlOf x == some k

/-- The controller reset of R590 step 3: it takes every member that the controller serves, and counts one TMO for each that had commands
outstanding (log entry 136). -/
def Dev.resetMember (d : Dev) (m : Nat) : Dev :=
  if (d.mbr m).resetting != 0 then d
  else
    let ms := d.ctlMembers m
    let any := fun (x : Nat) => d.mcmds.any fun c => c.member == x && c.kind.isIo && c.phase == .outstanding
    let e := (d.inc Reg.MBR_ERRORS_ESCALATIONS).emit (.memberReset 0 m)
    ms.foldl (fun (e : Dev) x =>
      let e := e.updMbr x fun y => { y with resetting := 1 }
      let e := { e with mcmds := e.mcmds.filter fun c => !(c.member == x && c.kind.isAbort) }
      let e := e.failOutstanding x
      if any x then e.memberEvent x 0 else e) e

/-- The Abort limit of a member's controller, as found at identification. -/
def Dev.abortLimit (d : Dev) (m : Nat) : Nat :=
  match d.disc.find? fun x => x.status == 0 && x.member == m with
  | some x => x.abortLimit
  | none => 1

/-- MEMBER_COMMAND_TIMEOUT (R590 steps 1 and 3): the command fails internally and an Abort goes out, or, at the member's Abort
limit, its controller is reset. -/
def Dev.memberCommandTimeout (d : Dev) (id : Nat) : Dev :=
  match d.mcmd id with
  | none => d
  | some c =>
    if c.phase != .outstanding || !c.kind.isIo then d
    else
      let hold := fun (x : MCmd) => { x with phase := .held }
      let d := if c.sillage then d.silAccount c.member else d
      let d := { d with mcmds := updWhere (fun (x : MCmd) => x.id == id) hold d.mcmds }
      let near := d.ctlMembers c.member
      let aborts : Nat := (d.mcmds.filter fun (x : MCmd) => near.contains x.member && x.kind.isAbort).length
      let d :=
        if d.abortLimit c.member ≤ aborts then d.resetMember c.member
        else (d.submit (MCmd.new c.member (.abort id) .none 0 0 0 0 false [] [] false)).2
      (d.failHeld c).memberEvent c.member 0

/-- MEMBER_ABORT_TIMEOUT: nothing has arrived by 2T (R590 step 3). -/
def Dev.memberAbortTimeout (d : Dev) (id : Nat) : Dev :=
  match d.mcmd id with
  | none => d
  | some c => if c.phase = .held then d.resetMember c.member else d

/-- MEMBER_CTRL_RESET_DONE: queues are recreated and held identifiers released (R590 step 3). -/
def Dev.memberCtrlResetDone (d : Dev) (m : Nat) : Dev :=
  if (d.mbr m).resetting = 0 then d
  else (d.ctlMembers m).foldl (fun (d : Dev) x => (d.updMbr x fun y => { y with resetting := 0 }).releaseHeld x) d

/-- MEMBER_CTRL_RESET_TIMEOUT: the member's link is reset (R590 step 4). -/
def Dev.memberCtrlResetTimeout (d : Dev) (m : Nat) : Dev :=
  if (d.mbr m).resetting = 1 then
    (d.ctlMembers m).foldl (fun (d : Dev) x => d.updMbr x fun y => { y with resetting := 2 }) (d.emit (.memberReset 1 m))
  else d

/-- MEMBER_LINK_TIMEOUT: the link is not back, and the member takes GONE (R590 step 5, R594). -/
def Dev.memberLinkTimeout (d : Dev) (m : Nat) : Dev :=
  if (d.mbr m).resetting = 2 then (d.ctlMembers m).foldl (fun (d : Dev) x => (d.memberGone x).releaseHeld x) d else d

/-! ### Removal, link loss and errors -/

/-- Removes the discovered namespaces below a link or a downstream port. -/
def Dev.dropDisc (d : Dev) (link : Nat) (ports : List Nat) : Dev :=
  let d := { d with disc := d.disc.filter fun x => !(x.globalLink == link && portsUnder ports x.ports) }
  d.p Reg.MBR_DISC_COUNT_COUNT d.disc.length

/-- A link that is no longer up has nothing left to enumerate (R578). -/
def Dev.enumOff (d : Dev) (l : Nat) : Dev :=
  if !d.mport.enumLeft.contains l then d
  else
    let d := { d with mport := { d.mport with enumLeft := d.mport.enumLeft.filter (· ≠ l) } }
    if d.mport.enumLeft.isEmpty then d.p Reg.MBR_STATUS_ENUM_DONE 1 else d

/-- MEMBER_SURPRISE_REMOVAL: each member below the slot or link takes GONE at once (R593). -/
def Dev.memberSurpriseRemoval (d : Dev) (link : Nat) (ports : List Nat) : Dev :=
  let d := if ports.isEmpty then (d.updLink link fun x => { x with present := false, up := false }).enumOff link else d
  let d : Dev := (d.membersBelow link ports).foldl (fun (d : Dev) m => d.memberGone m) d
  d.dropDisc link ports

/-- A member link, or the link of a downstream port below it, is down with presence kept: its members are as after step 4 of R590
(R594). -/
def Dev.linkDown (d : Dev) (link : Nat) (ports : List Nat) : Dev :=
  let d := if ports.isEmpty then (d.updLink link fun x => { x with up := false }).enumOff link else d
  (d.membersBelow link ports).foldl (fun (d : Dev) m =>
    (d.updMbr m fun x => { x with resetting := 2 }).failOutstanding m) d

/-- Links that a commit has taken down to retrain them (R570): the members that were below them are as after step 4 of R590 (R594). -/
def Dev.retrained (d old : Dev) : Dev :=
  let ls := (List.range 48).filter fun l => (old.link l).up && !(d.link l).up
  (ls.flatMap fun l => old.membersBelow l []).foldl (fun (d : Dev) m =>
    (d.updMbr m fun x => { x with resetting := 2 }).failOutstanding m) d

/-- MEMBER_LINK_DOWN (R594). -/
def Dev.memberLinkDown (d : Dev) (link : Nat) (ports : List Nat) : Dev := if (d.link link).up then d.linkDown link ports else d

/-- MEMBER_AER_ERROR (R596): logged; a fatal error resets the link above the reporter, a non-fatal one that names a command counts an ERR. -/
def Dev.memberAerError (d : Dev) (link : Nat) (ports : List Nat) (bus devfn : Nat) (fatal : Bool) (m : Option Nat) : Dev :=
  let d := d.event 0x0E01 2 (leBytes 1 link ++ leBytes 1 bus ++ leBytes 1 devfn ++ leBytes 1 (if fatal then 1 else 0))
  if fatal then (d.emit (.linkReset link ports)).linkDown link ports
  else match m with
    | some m => d.memberEvent m 1
    | none => d

/-- MEMBER_ASYNC_EVENT (R588). -/
def Dev.memberAsyncEvent (d : Dev) (m : Nat) (k : AsyncKind) : Dev :=
  match k with
  | .fatal => d.memberEvent m 3
  | .warning b => if b.testBit 2 || b.testBit 3 then d.memberEvent m 3 else d.event 0x0E02 0 (leBytes 2 m ++ leBytes 4 b)
  | .nsChanged gone => if gone && (d.mbr m).matched.isSome then d.memberGone m else d
  | .other i => d.event 0x0E02 0 (leBytes 2 m ++ leBytes 4 i)

/-- MEMBER_STRAY_REQUEST (R576). -/
def Dev.memberStrayRequest (d : Dev) : Dev := (d.emit .unsupported).inc Reg.MBR_ERRORS_STRAY

/-! ### Slot power (R597 to R600) -/

/-- Whether two members are in one slot of a downstream port. -/
def Dev.sameSlot (d : Dev) (m k : Nat) : Bool :=
  m == k || match d.memberTable[m]?, d.memberTable[k]? with
    | some a, some b => a.globalLink == b.globalLink && a.ports.take a.hops == b.ports.take b.hops
    | _, _ => false

/-- Powers one slot on: a direct link's pin, or a member's downstream port. -/
def Dev.powerSlot (d : Dev) (s : Bool × Nat) : Dev :=
  if s.1 then { d with mport := { d.mport with slotsOff := d.mport.slotsOff.filter fun m => !d.sameSlot m s.2 } }
  else (d.pBit Reg.MBR_SLOT_PWR_ON s.2 true).emit (.pin "MSLOT_PWR" true)

/-- Powers on the next batch of waiting slots and starts the interval (R597). -/
def Dev.powerBatch (d : Dev) : Dev :=
  let n := max 1 (d.g Reg.MBR_PWR_CFG_BATCH)
  let now := d.mport.slotQueue.take n
  let d : Dev := now.foldl (fun (d : Dev) s => d.powerSlot s) d
  { d with mport := { d.mport with slotQueue := d.mport.slotQueue.drop n, batching := true } }

/-- Asks for a slot's power: in the next batch (R597). -/
def Dev.slotOn (d : Dev) (s : Bool × Nat) : Dev :=
  if d.mport.slotQueue.contains s then d
  else
    let d := { d with mport := { d.mport with slotQueue := d.mport.slotQueue ++ [s] } }
    if d.mport.batching then d else d.powerBatch

/-- SLOT_POWER_BATCH: INTERVAL_MS after the previous batch began (R597). -/
def Dev.slotPowerBatch (d : Dev) : Dev :=
  if !d.mport.batching then d
  else if d.mport.slotQueue.isEmpty then { d with mport := { d.mport with batching := false } }
  else d.powerBatch

/-- MPERST_RELEASE: 100 ms after slot power is stable (R600). -/
def Dev.mperstRelease (d : Dev) : Dev :=
  if d.mport.mperst && d.mport.slotQueue.isEmpty && d.on Reg.RST_STATUS_OPT_VALID then
    Dev.emit { d with mport := { d.mport with mperst := false } } (.pin "MPERST_N" true)
  else d

/-- The slot a command of MBR_SLOT_CMD names, with its link and port path: a link, or a member's slot (R598). -/
def Dev.slotOf (d : Dev) (member : Bool) (target : Nat) : Option ((Bool × Nat) × Nat × List Nat) :=
  if !member then (if d.linkExists target then some ((false, target), target, []) else none)
  else match d.memberTable[target]? with
    | none => none
    | some a =>
      if a.hops = 0 then some ((false, a.globalLink), a.globalLink, [])
      else some ((true, target), a.globalLink, a.ports.take a.hops)

/-- Refuses MBR_SLOT_CMD or MBR_FMT_CMD. -/
def Dev.mbrRefuse (d : Dev) : Dev := d.p Reg.MBR_STATUS_CMD_REFUSED 1

/-- SLOT_POWER_ON (R598). -/
def Dev.slotPowerOn (d : Dev) (req : Requester) (member : Bool) (target : Nat) : Dev :=
  d.globalCmd req Reg.MBR_SLOT_CMD_OP fun d =>
    match d.slotOf member target with
    | none => d.mbrRefuse
    | some (s, _, _) => d.slotOn s

/-- SLOT_POWER_OFF (R598): refused while a member in the slot is in use; its members take GONE. -/
def Dev.slotPowerOff (d : Dev) (req : Requester) (member : Bool) (target : Nat) : Dev :=
  d.globalCmd req Reg.MBR_SLOT_CMD_OP fun d =>
    match d.slotOf member target with
    | none => d.mbrRefuse
    | some (s, link, ports) =>
      let below := (List.range d.memberTable.length).filter fun m => match d.memberTable[m]? with
        | some a => a.globalLink == link && portsUnder ports (a.ports.take a.hops)
        | none => false
      if below.any fun m => (d.mbr m).st.active then d.mbrRefuse
      else
        let d := { d with mport := { d.mport with slotQueue := d.mport.slotQueue.filter (· ≠ s) } }
        let d := if s.1 then { d with mport := { d.mport with slotsOff := (d.mport.slotsOff ++ [s.2]).eraseDups } }
          else ((d.pBit Reg.MBR_SLOT_PWR_ON s.2 false).emit (.pin "MSLOT_PWR" false)).updLink s.2 fun x => { x with up := false }
        let d : Dev := below.foldl (fun (d : Dev) m => d.memberGone m) d
        d.dropDisc link ports

/-! ### Enumeration and identification -/

/-- Starts the enumeration of links, or of the subtree below a path of their downstream ports (R578): ENUM_DONE clears, and what was found
there and not matched is forgotten. -/
def Dev.enumerate (d : Dev) (ls ports : List Nat) : Dev :=
  if ls.isEmpty then d
  else
    let d := { d with disc := d.disc.filter fun x => x.status == 0 || !ls.contains x.globalLink || !portsUnder ports x.ports,
                      mport := { d.mport with enumLeft := (d.mport.enumLeft ++ ls).eraseDups } }
    (d.p Reg.MBR_DISC_COUNT_COUNT d.disc.length).p Reg.MBR_STATUS_ENUM_DONE 0

/-- Whether the member groups can train links: not in a package reset (table 16-3), under defaulted options (R708), in a dump and the wait after
it (table 15-6), or FENCED (R636). -/
def Dev.groupsUp (d : Dev) : Bool :=
  d.rst.reach == 0 && !d.on Reg.RST_STATUS_OPTIONS_DEFAULTED && !d.on Reg.VLT_STATUS_DUMPING && !d.vlt.dumpDone && d.acdState != 4

/-- MEMBER_HOTPLUG_ARRIVAL: a presence gain, or a link that comes up with its width, speed and mode (R594, R595). -/
def Dev.memberHotplugArrival (d : Dev) (link : Nat) (ports : List Nat) (up : Option (Nat × Nat × Bool)) : Dev :=
  if !d.linkExists link then d
  else
    let powered := fun (d : Dev) => (d.g Reg.MBR_SLOT_PWR_ON).testBit link
    let d := if ports.isEmpty then d.updLink link fun x => { x with present := true } else d
    let d := if ports.isEmpty && !powered d && d.on Reg.MBR_PWR_CFG_AUTO then d.slotOn (false, link) else d
    let here := fun (m : Nat) => match d.memberTable[m]? with | some a => a.globalLink == link && a.ports.take a.hops == ports | none => false
    let d : Dev := if !ports.isEmpty && d.on Reg.MBR_PWR_CFG_AUTO then
        (d.mport.slotsOff.filter here).foldl (fun (d : Dev) m => d.slotOn (true, m)) d
      else d
    match if d.groupsUp then up else none with
    | some (w, sp, fl) =>
      let d := if ports.isEmpty then d.updLink link fun x => { x with up := true, width := w, speed := sp, flit := fl } else d
      let d : Dev := (d.membersBelow link ports).foldl (fun (d : Dev) m =>
        if (d.mbr m).resetting = 2 then (d.updMbr m fun x => { x with resetting := 0 }).releaseHeld m else d) d
      d.enumerate [link] ports
    | none => if (d.link link).up then d.enumerate [link] ports else d

/-- Whether a namespace's controller meets every item of table 13-2 (R572). -/
def Disc.capable (x : Disc) : Bool :=
  let c := x.caps
  (decide (1 < c.major) || (c.major == 1 && decide (4 ≤ c.minor))) && c.mpsMin == 0 && decide (1 ≤ c.ioPairs) && c.entries &&
    decide (2 ≤ c.msixVectors) && (x.mdts == 0 || decide (4 ≤ x.mdts)) && c.commands && c.fua && c.writeZeroes

/-- Whether a namespace's format is the one R298 asks of its entry. -/
def Disc.formatOk (x : Disc) (tagSect : Bool) : Bool :=
  x.dataSize == 4096 && !x.pi && x.metaBytes == (if tagSect then 0 else 16)

/-- The same namespace in the discovery list: its location and NSID. -/
def Disc.same (x y : Disc) : Bool := x.group == y.group && x.link == y.link && x.ports == y.ports && x.nsid == y.nsid

/-- The status of a discovered namespace and the member it matches: the first check of table 13-5 that fails (R581). -/
def Dev.identify (d : Dev) (x : Disc) : Nat × Nat :=
  match d.arm.active with
  | none => (12, 0xFFFF)
  | some a =>
    match a.members.findIdx? fun e => e.nguid == x.nguid && e.nsid == x.nsid with
    | none => (1, 0xFFFF)
    | some m => match a.members[m]? with
      | none => (1, 0xFFFF)
      | some e =>
        if (d.mbr m).st = .retired then (2, 0xFFFF)
        else if e.group != x.group || e.link != x.link || e.hops != x.hops || e.ports.take e.hops != x.ports.take x.hops then (3, 0xFFFF)
        else if !x.formatOk e.tagSect then (4, 0xFFFF)
        else if x.capacity < e.capacity then (5, 0xFFFF)
        else if !x.capable then (6, 0xFFFF)
        else if x.label = 1 && x.labelIdent != a.identity then (7, 0xFFFF)
        else if x.label = 1 && x.labelMember != m then (8, 0xFFFF)
        else if x.label = 2 then (9, 0xFFFF)
        else if x.label = 0 && !(d.mbr m).labelPending then (10, 0xFFFF)
        else if d.disc.any fun y => y.status == 0 && y.member == m && !y.same x then (11, 0xFFFF)
        else (0, m)

/-- A namespace has been found and read (R577, R581): it takes its place in the list, and a match gives its member the ID event
and, where it is joining, its label. A RETIRED member's identification is logged (table 6-3). -/
def Dev.found (d : Dev) (x : Disc) : Dev :=
  let (st, m) := d.identify x
  let x := { x with status := st, member := m }
  let old := d.disc.any (·.same x)
  if !old && decide (4096 ≤ d.disc.length) then d.p Reg.MBR_STATUS_DISC_TRUNC 1
  else
    let d := { d with disc := if old then updWhere (·.same x) (fun _ => x) d.disc else d.disc ++ [x] }
    let d := d.p Reg.MBR_DISC_COUNT_COUNT d.disc.length
    if st = 0 then
      let ord := (d.disc.findIdx? (·.same x)).getD 0
      let d := d.updMbr m fun y => { y with matched := some ord, resetting := 0,
                                            joinEpoch := if x.label = 1 ∧ !y.labelPending then x.labelJoin else y.joinEpoch }
      (d.memberEvent m 5).labelMember m
    else if st = 2 then
      match d.memberTable.findIdx? fun e => e.nguid == x.nguid && e.nsid == x.nsid with
      | some r => d.memberEvent r 5
      | none => d
    else d

/-- Identifies the namespaces found so far against the member table of an epoch that has just been committed, where their links are up
(R581, R582, R800); a match that still stands is left as it is. `old` is the epoch before. -/
def Dev.identifyAgain (d : Dev) (old : Nat) : Dev :=
  if d.epoch = old then d
  else d.disc.foldl (fun (d : Dev) x =>
    let r := d.identify x
    if !(d.link x.globalLink).up || (r == (0, x.member) && x.status == 0 && (d.mbr x.member).matched.isSome) then d else d.found x) d

/-- MEMBER_ADMIN_COMPLETION (R577, R580, R590). -/
def Dev.memberAdminCompletion (d : Dev) (r : AdminResult) : Dev :=
  match r with
  | .identified x => d.found x
  | .enumEnd l =>
    d.enumOff l
  | .aborted id =>
    if !d.mcmds.any fun (c : MCmd) => c.kind == .abort id then d
    else
      let d : Dev := { d with mcmds := d.mcmds.filter fun (c : MCmd) => c.kind != .abort id }
      match d.mcmd id with
      | some c => if c.phase = .held then d.releaseOne c else d
      | none => d
  | .formatDone ok =>
    match d.mport.fmt with
    | none => d
    | some (ordinal, _) =>
      let d := (Dev.p { d with mport := { d.mport with fmt := none } } Reg.MBR_STATUS_FMT_BUSY 0).emit (.memberIdentify ordinal)
      if ok then d else d.p Reg.MBR_STATUS_FMT_ERR 1

/-! ### Commands of the MBR_ block -/

/-- MBR_RESCAN: every link is enumerated again, as far as it is up (R578). -/
def Dev.mbrRescan (d : Dev) (req : Requester) : Dev :=
  d.globalCmd req Reg.MBR_CTRL_RESCAN fun d => d.enumerate ((List.range 48).filter fun l => (d.link l).up) []

/-- The 64-byte discovery record of an entry (table 13-4). -/
def Disc.record (x : Disc) (ord : Nat) : List Byte :=
  leBytes 2 ord ++ leBytes 1 x.group ++ leBytes 1 x.link ++ leBytes 1 x.hops ++ leBytes 1 x.status ++
  leBytes 2 (if x.status = 0 then x.member else 0xFFFF) ++
  ((List.range 4).flatMap fun i => leBytes 1 (if i < x.hops then x.ports.getD i 0xFF else 0xFF)) ++
  leBytes 4 x.nsid ++ leBytes 16 x.nguid.toNat ++ leBytes 8 (if x.dataSize = 4096 then x.capacity else 0) ++
  leBytes 1 x.metaBytes ++
  leBytes 1 ((if x.rot then 1 else 0) + (if x.pi then 2 else 0) + (if x.dataSize = 4096 ∧ x.label = 0 then 4 else 0) +
    (if x.dataSize = 4096 ∧ x.label = 1 then 8 else 0)) ++
  leBytes 6 0 ++ leBytes 16 (if x.dataSize = 4096 ∧ x.label = 1 then x.labelIdent.toNat else 0)

/-- The whole discovery list as bytes. -/
def Dev.discBytes (d : Dev) : List Byte := (d.disc.zipIdx).flatMap fun x => x.1.record x.2

/-- MBR_DISC_DUMP (R579): the list goes to host memory through the primary port, or into the host area; an error, or a target
outside it, sets DISC_ERR. -/
def Dev.mbrDiscDump (d : Dev) (req : Requester) (internal ok : Bool) : Dev :=
  d.globalCmd req Reg.MBR_CTRL_DISC_DUMP fun d =>
    let d := d.p Reg.MBR_CTRL_DISC_INTERNAL (if internal then 1 else 0)
    let addr := d.g Reg.MBR_DISC_ADDR_ADDR * 64
    let bs := d.discBytes
    if !ok || (internal && !d.inHostArea addr bs.length) then d.p Reg.MBR_STATUS_DISC_ERR 1
    else if internal then (d.hbmWrite addr bs).p Reg.MBR_STATUS_DISC_DONE 1
    else (d.payloadWrite d.primaryB addr bs).p Reg.MBR_STATUS_DISC_DONE 1

/-- MBR_CLR_COUNTS. -/
def Dev.mbrClrCounts (d : Dev) (req : Requester) : Dev :=
  d.globalCmd req Reg.MBR_CTRL_CLR_COUNTS fun d =>
    ((d.p Reg.MBR_ERRORS_LATE 0).p Reg.MBR_ERRORS_ESCALATIONS 0).p Reg.MBR_ERRORS_STRAY 0

/-- MBR_FORMAT (R580). -/
def Dev.mbrFormat (d : Dev) (req : Requester) (ordinal : Nat) (meta16 : Bool) : Dev :=
  d.globalWr req Reg.MBR_FMT_CMD_ORDINAL (ordinal != 0 || meta16) fun d =>
    match d.disc[ordinal]? with
    | none => d.mbrRefuse
    | some x =>
      if d.mport.fmt.isSome || !(x.status == 1 || x.status == 12) then d.mbrRefuse
      else
        let d := { d with mport := { d.mport with fmt := some (ordinal, meta16) } }
        (d.p Reg.MBR_STATUS_FMT_BUSY 1).emit (.memberFormat ordinal meta16)

end Sys2Proof.Machine
end

