-- ==== Sys2Proof/Machine/Status.lean ====
section
/-!
DEFINITION. Values that status registers and log pages report and that follow from the rest of the state: sillage and scrub status,
stripe counts, units in service, members by state (tables 6-9, 6-19 to 6-22, 8-10, 11-14, 11-15).
-/
namespace Sys2Proof.Machine

/-! ### Sillage -/

/-- SIL_STATUS.REPAIRING. -/
def Dev.silRepairing (d : Dev) : Bool := d.silPools.any fun pc => d.workPending pc.1 pc.2
/-- SIL_STATUS.SCRUBBING. -/
def Dev.silScrubbing (d : Dev) : Bool := d.sil.scrubAt.isSome

/-- SIL_DEGRADED: stripes with at least one unreadable fragment. -/
def Dev.silDegraded (d : Dev) : Nat := (d.silPools.map fun pc => (d.hurtStripes pc.1 pc.2).length).foldl (· + ·) 0
/-- SIL_CRITICAL: stripes with remaining redundancy 0. -/
def Dev.silCritical (d : Dev) : Nat :=
  (d.silPools.map fun pc => ((d.hurtStripes pc.1 pc.2).filter (d.isCritical pc.1 pc.2)).length).foldl (· + ·) 0

/-- Health events of a kind in a member's window, saturating at 255 (R245, table 6-19). -/
def Dev.mbrCount (d : Dev) (m : Nat) (h : Health) : Nat := min 255 (d.window m h)

/-- SIL_MBR_PROGRESS of a member: regions done, and regions to resynchronise (table 6-21). -/
def Dev.mbrProgress (d : Dev) (m : Nat) : Nat × Nat :=
  if (d.mbr m).st = .rebuilding then ((d.mbr m).doneRegions, (d.mbr m).doneRegions + d.regionsLeft m) else (0, 0)

/-! ### Fabric -/

/-- Units in service: not retired, on a die that is not offline. -/
def Dev.unitsInService (d : Dev) : Nat :=
  ((List.range 32).map fun c => if d.fab.offline.contains (dieOf (regionOf c)) then 0 else (d.unitsIn c).length).foldl (· + ·) 0

/-! ### Log pages (tables 11-14, 11-15, R530) -/

/-- Members of the active armature in a state. -/
def Dev.membersIn (d : Dev) (st : MSt) : Nat :=
  ((List.range d.memberTable.length).filter fun m => (d.mbr m).st == st).length

/-- The Array Health log page (table 11-14). -/
def Dev.arrayHealth (d : Dev) : List Byte :=
  let bit := fun (b : Bool) (n : Nat) => if b then 2 ^ n else 0
  let flags := bit d.silCriticalFlag 0 + bit d.silRepairing 1 + bit d.silScrubbing 2 + bit d.mirroring 3 + bit (!d.cachePresent) 4
  leBytes 4 1 ++ leBytes 4 d.epoch ++ leBytes 4 (match d.arm.draining with | some a => a.epoch | none => 0) ++
  leBytes 1 (d.g Reg.JNL_STATUS_STATE) ++ leBytes 1 d.occupancy ++ leBytes 1 flags ++ leBytes 1 d.pkgState ++
  ([MSt.absent, .online, .suspect, .failed, .rebuilding, .retired].flatMap fun s => leBytes 2 (d.membersIn s)) ++
  leBytes 2 d.unitsInService ++ leBytes 2 0 ++ leBytes 8 d.silDegraded ++ leBytes 8 d.silCritical ++
  leBytes 4 d.jnl.marked.length ++ leBytes 4 d.jnl.lost.length ++ leBytes 8 d.head ++ leBytes 8 d.tail ++
  leBytes 4 (d.g Reg.SIL_SCRUB_PASSES) ++ leBytes 4 d.nvm.lastVendorEvent ++ leBytes 432 0

/-- One entry of the Member State log page (table 11-15). -/
def Dev.memberStateEntry (d : Dev) (m : Nat) : List Byte :=
  if d.memberTable.length ≤ m then leBytes 16 0
  else
    let x := d.mbr m
    let p := d.mbrProgress m
    leBytes 1 x.st.code ++
    leBytes 1 (x.cause.code + (if x.resyncDrl then 8 else 0) + (if x.drl.isSome then 16 else 0)) ++
    leBytes 1 (d.mbrCount m .tmo) ++ leBytes 1 (d.mbrCount m .err) ++ leBytes 1 (d.mbrCount m .slow) ++
    leBytes 1 (if p.2 = 0 then 0 else 100 * p.1 / p.2) ++ leBytes 2 0 ++ leBytes 8 (x.mark.getD 0)

/-- The Member State log page (table 11-15). -/
def Dev.memberStatePage (d : Dev) : List Byte :=
  leBytes 4 1 ++ leBytes 4 d.memberTable.length ++ leBytes 56 0 ++ (List.range 2048).flatMap d.memberStateEntry

/-- The Lost Ranges log page of one namespace, or of every one for NSID 0xFFFF_FFFF, by NSID and first LBA (R530). -/
def Dev.lostPage (d : Dev) (nsid : Nat) : List Byte :=
  let ls := (d.jnl.lost.filter fun l => nsid == 0xFFFFFFFF || l.nsid == nsid).mergeSort fun x y =>
    decide (x.nsid < y.nsid ∨ (x.nsid = y.nsid ∧ x.first ≤ y.first))
  leBytes 4 1 ++ leBytes 4 ls.length ++ leBytes 56 0 ++
    ls.flatMap fun l => (MetaEntry.lost l.nsid l.first l.len false l.repair).bytes

/-- A read of `len` bytes from an offset of a page; bytes beyond it are zero (R529). -/
def pageRead (page : List Byte) (off len : Nat) : List Byte :=
  let bs := (page.drop off).take len
  bs ++ List.replicate (len - bs.length) 0

/-! ### Health (table 11-12) -/

/-- Free spare slots over all pools, percent; 100 with no pools. -/
def Dev.availableSpare (d : Dev) : Nat :=
  match d.arm.active with
  | none => 100
  | some a =>
    let cs := a.poolNums.filterMap fun p => (a.pool p).map fun c => (p, c)
    let all := (cs.map fun pc => (pc.2.extents.map (·.spareSlots)).foldl (· + ·) 0).foldl (· + ·) 0
    let free := (cs.map fun pc => (pc.2.extents.map fun e => (d.freeSpares pc.2 pc.1 e.member).length).foldl (· + ·) 0).foldl (· + ·) 0
    if all = 0 then 100 else 100 * free / all

/-- SMART Critical Warning. -/
def Dev.criticalWarning (d : Dev) : Nat :=
  (if d.availableSpare < 10 then 1 else 0) +
  (if d.silCriticalFlag || !d.jnl.marked.isEmpty then 4 else 0) +
  (if d.on Reg.VLT_STATUS_LAST_DUMP_FAILED || d.on Reg.VLT_STATUS_HOLDUP_LOW then 16 else 0)

/-- The hottest thermal reading, in 0.125 °C. -/
def Dev.hottest (d : Dev) : Int := d.mgmt.therm.foldl max (d.mgmt.therm.headD 0)

/-- The SMART / Health values that are the device's own, as named values. -/
def Dev.smart (d : Dev) : List (String × Nat) :=
  [("Critical Warning", d.criticalWarning), ("Composite Temperature", (d.hottest / 8 + 273).toNat),
   ("Available Spare", d.availableSpare), ("Available Spare Threshold", 10),
   ("Percentage Used", d.g Reg.VLT_WEAR_PERCENT_USED),
   ("Data Units Read", ceilDiv (8 * d.nvm.blocksRead) 1000), ("Data Units Written", ceilDiv (8 * d.nvm.blocksWritten) 1000),
   ("Unsafe Shutdowns", d.nvm.unsafeShutdowns), ("Media and Data Integrity Errors", d.nvm.mediaErrors)]

end Sys2Proof.Machine
end

