-- ==== Sys2Proof/Machine/NvmeAdmin.lean ====
section
/-!
DEFINITION. Meanings of the NVMe admin rows and of the controller's own events (chapter 11): queues, log pages, Identify, Abort,
features, Format NVM and Sanitize, doorbells, CC.EN, shutdown and power states. The standards' structures are answered as
named values; the vendor log pages as bytes.
-/
namespace Sys2Proof.Machine

/-- Completes an admin command. -/
def Dev.adminDone (d : Dev) (portB : Bool) (cid : Nat) (st : NvStatus) (dw0 nsid : Nat) : Dev := d.complete portB 0 cid st dw0 0 nsid

/-- Whether PF0 of a port takes memory writes: link up, Memory Space Enable, D0 (R563). -/
def Dev.takesBar0 (d : Dev) (portB : Bool) : Bool :=
  (d.port portB).up && (d.port portB).pf0.mse && !(d.port portB).pf0.d3hot

/-! ### Queues (R486) -/

/-- CREATE_IO_CQ. -/
def Dev.createIoCq (d : Dev) (portB : Bool) (cid qid size vec : Nat) (ien : Bool) : Dev :=
  d.fetched portB 0 fun d =>
    let c := d.ctl portB
    if qid = 0 ∨ 1023 < qid ∨ c.cqs.any (·.id = qid) then d.adminDone portB cid .invalidQueueIdentifier 0 0
    else if size < 2 ∨ 65536 < size then d.adminDone portB cid .invalidQueueSize 0 0
    else if 1024 ≤ vec then d.adminDone portB cid .invalidInterruptVector 0 0
    else
      let d := d.updCtl portB fun x => { x with cqs := x.cqs ++ [NCq.mk qid size 0 0 vec ien []] }
      d.adminDone portB cid .success 0 0

/-- CREATE_IO_SQ. -/
def Dev.createIoSq (d : Dev) (portB : Bool) (cid qid size cqid prio : Nat) : Dev :=
  d.fetched portB 0 fun d =>
    let c := d.ctl portB
    if qid = 0 ∨ 1023 < qid ∨ c.sqs.any (·.id = qid) then d.adminDone portB cid .invalidQueueIdentifier 0 0
    else if size < 2 ∨ 65536 < size then d.adminDone portB cid .invalidQueueSize 0 0
    else if cqid = 0 ∨ 1023 < cqid then d.adminDone portB cid .invalidQueueIdentifier 0 0
    else if !c.cqs.any (·.id = cqid) then d.adminDone portB cid .completionQueueInvalid 0 0
    else
      let d := d.updCtl portB fun x => { x with sqs := x.sqs ++ [NSq.mk qid cqid size 0 0 prio] }
      d.adminDone portB cid .success 0 0

/-- Whether a command has not reached its point of table 11-5. -/
def HostCmd.catchable (c : HostCmd) : Bool :=
  match c.kind with
  | .write | .zeroes | .dealloc => !c.admitted
  | .read | .verify => !c.readIssued
  | .flush => true
  | .admin => false

/-- Takes a command's work away: its groups that wait, its degraded reads and its Flush; a barrier it set stays (R506). -/
def Dev.dropWork (d : Dev) (id : Nat) : Dev :=
  let keep := d.jnl.waiting.filter fun w => !(match w.use with | .host c => c == id | _ => false)
  let d := { d with jnl := { d.jnl with waiting := keep, flushes := d.jnl.flushes.filter (·.1 ≠ id) } }
  let ops := d.ops.filter fun o => o.kind == .degraded id
  ops.foldl (fun (d : Dev) o => d.endOp o) d

/-- A caught command completes once with a status (R504). -/
def Dev.catchCmd (d : Dev) (id : Nat) (st : NvStatus) : Dev := (d.dropWork id).finish id st 0

/-- DELETE_IO_SQ (table 11-10): unfetched commands are discarded, caught ones complete as aborted, and the queue leaves when
the others have completed. -/
def Dev.deleteIoSq (d : Dev) (portB : Bool) (cid qid : Nat) : Dev :=
  d.fetched portB 0 fun d =>
    let c := d.ctl portB
    if qid = 0 ∨ !c.sqs.any (·.id = qid) ∨ c.deleting.any (·.1 = qid) then d.adminDone portB cid .invalidQueueIdentifier 0 0
    else
      let empty := fun (q : NSq) => { q with head := q.tail }
      let d := d.updCtl portB fun x =>
        { x with sqs := updWhere (fun (q : NSq) => q.id == qid) empty x.sqs, deleting := x.deleting ++ [(qid, cid)] }
      let caught := d.cmds.filter fun x => x.portB == portB && x.sq == qid && !x.detached && x.catchable
      let d : Dev := caught.foldl (fun (d : Dev) x => d.catchCmd x.id .abortedSqDeletion) d
      d.sqDeleteCheck portB qid

/-- DELETE_IO_CQ: refused while a submission queue names it. -/
def Dev.deleteIoCq (d : Dev) (portB : Bool) (cid qid : Nat) : Dev :=
  d.fetched portB 0 fun d =>
    let c := d.ctl portB
    if qid = 0 ∨ !c.cqs.any (·.id = qid) then d.adminDone portB cid .invalidQueueIdentifier 0 0
    else if c.sqs.any (·.cq = qid) then d.adminDone portB cid .invalidQueueDeletion 0 0
    else
      let d := d.updCtl portB fun x => { x with cqs := x.cqs.filter (·.id ≠ qid) }
      d.adminDone portB cid .success 0 0

/-! ### Log pages and Identify -/

/-- The ANA state a controller reports for a pool's group (R494, R495): 1 Optimized, 3 Inaccessible, 15 Change. -/
def Dev.anaState (d : Dev) (pool : Nat) : Nat :=
  if d.acd.anaChange.testBit pool then 15 else if d.ownsPool pool then 1 else 3

/-- SPROG: done steps of the sanitize of R514, in 1/65,536 of its four steps. -/
def Dev.sprog (d : Dev) : Nat :=
  match d.nvm.erases.find? fun e => e.sanitize with
  | some e => 65536 * (if e.step = 0 then 0 else if e.step < 3 then 1 else 2) / 4
  | none => 65535

/-- Numbers with one name each. -/
def named (s : String) (xs : List Nat) : List (String × Nat) := xs.map fun x => (s, x)

/-- GET_LOG_PAGE (R528 to R530): `off` is LPO, `len` the bytes asked for, `rae` Retain Asynchronous Event. -/
def Dev.getLogPage (d : Dev) (portB : Bool) (cid lid nsid off len : Nat) (rae : Bool) : Dev :=
  d.fetchedAdmin portB cid fun d =>
    let info := fun (d : Dev) (what : String) (xs : List (String × Nat)) =>
      (d.emit (.info portB cid what xs)).adminDone portB cid .success 0 nsid
    let page := fun (d : Dev) (bs : List Byte) =>
      (d.emit (.page portB cid lid (pageRead bs off len))).adminDone portB cid .success 0 nsid
    match lid with
    | 0x01 => (d.emit (.errLog portB cid (d.ctl portB).errLog)).adminDone portB cid .success 0 nsid
    | 0x02 => info d "SMART / Health Information" d.smart
    | 0x03 => info d "Firmware Slot Information"
        ([("Active slot", d.mgmt.run), ("Next slot", d.mgmt.pending.getD 0)] ++
          d.mgmt.slots.zipIdx.map fun x => ("Revision", if x.1.st = 1 then leAt x.1.image 8 8 else 0))
    | 0x04 =>
      let xs := (d.ctl portB).changedNs
      let d := if rae then d else d.updCtl portB fun x => { x with changedNs := [] }
      info d "Changed Namespace List" (named "NSID" xs)
    | 0x05 => info d "Commands Supported and Effects"
        (named "Admin" [0x00, 0x01, 0x02, 0x04, 0x05, 0x06, 0x08, 0x09, 0x0A, 0x0C, 0x10, 0x11, 0x18, 0x80, 0x84] ++
          named "I/O" [0x00, 0x01, 0x02, 0x08, 0x09, 0x0C])
    | 0x0C => info d "Asymmetric Namespace Access" ((List.range 64).flatMap fun p => [("ANAGRPID", p + 1), ("State", d.anaState p)])
    | 0x0D => info d "Persistent Event" []
    | 0x81 => info d "Sanitize Status"
        [("SPROG", d.sprog), ("SSTAT", if d.sanitizing then 2 else if d.nvm.sanFailed then 3 else if d.nvm.sanDone then 1 else 0),
         ("Estimated Time For Overwrite", 0xFFFFFFFF), ("Estimated Time For Crypto Erase", 0xFFFFFFFF)]
    | 0xC0 => page d d.arrayHealth
    | 0xC1 => page d d.memberStatePage
    | 0xC2 => if nsid = 0xFFFFFFFF ∨ d.hasNs nsid then page d (d.lostPage nsid)
              else d.adminDone portB cid .invalidNamespaceOrFormat 0 nsid
    | _ => d.adminDone portB cid .invalidLogPage 0 nsid

/-- CNTLID (R482). -/
def Dev.cntlid (d : Dev) (portB : Bool) : Nat :=
  1 + 2 * (if d.solo then 0 else d.g Reg.ACD_STATUS_ROLE) + (if portB then 1 else 0)

/-- The CNTLIDs of the subsystem (R481). -/
def Dev.cntlids (d : Dev) : List Nat := if d.solo then [1, 2] else [1, 2, 3, 4]

/-- The 40 characters of MN (R483). -/
def modelNumber : List Byte :=
  (("Molgus Ciuri CV-2048".toList.map fun (c : Char) => BitVec.ofNat 8 c.toNat) ++ List.replicate 40 0x20).take 40

/-- Identify Controller (R483, R484, table 11-1). -/
def Dev.identifyCtrl (d : Dev) (portB : Bool) : List (String × Nat) :=
  [("VID", 0x1D7A), ("SSVID", d.opt.vendor), ("SN", leNat d.opt.sn), ("MN", leNat modelNumber), ("VS", 0x00020100),
   ("CAP.MQES", 0xFFFF), ("CAP.CQR", 1), ("CAP.AMS", 1), ("CAP.TO", 60), ("CAP.DSTRD", 0), ("CAP.NSSRS", 1), ("CAP.CSS NVM", 1),
   ("CAP.MPSMIN", 0), ("CAP.MPSMAX", 4), ("FRMW slot 1 read-only", 0), ("FRMW activation without reset", 1),
   ("ANACAP optimized", 1), ("ANACAP inaccessible", 1), ("ANACAP change", 1), ("ANACAP ANAGRPID changes", 0),
   ("SANICAP crypto erase", 1), ("SANICAP overwrite", 1), ("SANICAP block erase", 0), ("ONCS Write Zeroes", 1),
   ("ONCS Dataset Management", 1), ("ONCS Verify", 1), ("ONCS Save and Select", 1), ("FNA format all", 0), ("FNA crypto erase all", 0),
   ("FNA crypto erase", 1), ("SGLS supported", 1), ("SGLS bit bucket", 0), ("CNTLID", d.cntlid portB), ("VER", 0x00020100), ("MDTS", 10),
   ("CNTRLTYPE", 1), ("ACL", 63), ("AERL", 15), ("FRMW NOFS", 3), ("ELPE", 255), ("NPSS", 4), ("APSTA", 1), ("MTFA", 3),
   ("ANATT", 1), ("ANAGRPMAX", 64), ("NANAGRPID", 64), ("NN", 512), ("MNAN", 512), ("AWUN", 511), ("AWUPF", 511), ("ACWU", 0),
   ("VWC.present", if d.cachePresent then 1 else 0), ("RTD3E", 20000000), ("RTD3R", 30000000), ("KAS", 0), ("FWUG", 1),
   ("SUBNQN", leNat d.opt.subnqn), ("FR", d.g Reg.MBX_FW_REV_VALUE)]

/-- NGUID as its 16 bytes read little-endian: bytes 0 to 11 of the array identity, then the NSID big-endian (R491). -/
def Dev.nguid (d : Dev) (nsid : Nat) : Nat :=
  let ident := match d.arm.active with | some a => a.identity.toNat | none => 0
  leNat (leBytes 12 ident ++ (leBytes 4 nsid).reverse)

/-- Share of a namespace's format that is left, in percent (FPI). -/
def Dev.fpi (d : Dev) (nsid : Nat) : Nat :=
  let zs := d.arm.zeroing.filter (·.ns = nsid)
  let total := (zs.map (·.total)).foldl (· + ·) 0
  if total = 0 then (if zs.isEmpty then 100 else 0) else ceilDiv (100 * (total - (zs.map (·.done)).foldl (· + ·) 0)) total

/-- Identify Namespace (R491, R494, R497, R499, R511). -/
def Dev.identifyNs (d : Dev) (nsid : Nat) : List (String × Nat) :=
  match d.nsPool nsid with
  | none => []
  | some (n, _) =>
    let cap := d.nsCapacity nsid
    let f := (AMap.get d.nvm.fmts nsid).getD ⟨0, 0, false⟩
    [("NSZE", cap), ("NCAP", cap), ("NUSE", cap), ("FLBAS", f.fmt), ("DPS", f.pi + (if f.piFirst then 8 else 0)), ("DLFEAT", 1),
     ("NAWUN", 0), ("NAWUPF", 0), ("NABSPF", 0), ("EUI64", 0), ("ANAGRPID", n.pool + 1), ("NGUID", d.nguid nsid),
     ("FPI", if d.formatting nsid then 0x80 + d.fpi nsid else 0x80)]

/-- The namespaces of the active epoch with an NSID above a number, rising. -/
def Dev.nsidsAbove (d : Dev) (nsid : Nat) : List Nat :=
  (match d.arm.active with | some a => ((a.namespaces.map fun (n : ArmNs) => n.nsid).filter fun x => decide (nsid < x)) | none => []).mergeSort

/-- IDENTIFY (R500). -/
def Dev.identifyCmd (d : Dev) (portB : Bool) (cid cns nsid cntid : Nat) : Dev :=
  d.fetchedAdmin portB cid fun d =>
    let ok := fun (xs : List (String × Nat)) => (d.emit (.info portB cid "Identify" (("CNS", cns) :: xs))).adminDone portB cid .success 0 nsid
    let ns := fun (xs : List (String × Nat)) =>
      if nsid = 0 ∨ 512 < nsid then d.adminDone portB cid .invalidNamespaceOrFormat 0 nsid else ok xs
    let has := d.hasNs nsid
    match cns with
    | 0x00 | 0x11 => ns (d.identifyNs nsid)
    | 0x01 => ok (d.identifyCtrl portB)
    | 0x02 | 0x07 | 0x10 => ok (named "NSID" (d.nsidsAbove nsid))
    | 0x03 => if has then ok [("NGUID", d.nguid nsid), ("CSI", 0)] else d.adminDone portB cid .invalidNamespaceOrFormat 0 nsid
    | 0x05 => ns (if has then [("LBAFEE 1 PIF", 0), ("LBAFEE 2 PIF", 2), ("LBAFEE 3 PIF", 0), ("LBAFEE 4 PIF", 2)] else [])
    | 0x06 => ok [("VSL", 0), ("WZSL", 0), ("DMRL", 0)]
    | 0x08 => ns (match d.nsPool nsid with | some (n, _) => [("ANAGRPID", n.pool + 1), ("NSTAT", 1)] | none => [])
    | 0x12 => if has then ok (named "CNTLID" (d.cntlids.filter (cntid ≤ ·))) else d.adminDone portB cid .invalidNamespaceOrFormat 0 nsid
    | 0x13 => ok (named "CNTLID" (d.cntlids.filter (cntid ≤ ·)))
    | 0x1C => ok [("NVM command set", 1)]
    | _ => d.adminDone portB cid .invalidField 0 nsid

/-! ### Abort (R503 to R506) -/

/-- ABORT: a target that has not reached its point is caught, and completes before the Abort; completion dword 0 says which. -/
def Dev.abort (d : Dev) (portB : Bool) (cid sq target : Nat) : Dev :=
  d.fetched portB 0 fun d =>
    if sq = 0 ∧ (d.ctl portB).aers.contains target then
      let d := d.updCtl portB fun x => { x with aers := x.aers.filter (· ≠ target) }
      (d.adminDone portB target .commandAbortRequested 0 0).adminDone portB cid .success 0 0
    else match d.cmds.find? fun x => x.portB == portB && x.sq == sq && x.cid == target && !x.detached && x.catchable with
      | some x => (d.catchCmd x.id .commandAbortRequested).adminDone portB cid .success 0 0
      | none => d.adminDone portB cid .success 1 0

/-! ### Features (R525 to R527) -/

/-- A controller's power state changed; the most recent operational state is kept (R519), and watch regions power up once the package is operational (R374). -/
def Dev.setPower (d : Dev) (portB : Bool) (ps : Nat) : Dev :=
  (d.updCtl portB fun x => { x with pstate := ps, lastOp := if ps < 3 then ps else if x.pstate < 3 then x.pstate else x.lastOp }).jnlStatus.watchUp

/-- Features of table 11-11, and whether each can be saved. -/
def featSaveable (fid : Nat) : Option Bool :=
  match fid with
  | 0x01 | 0x02 | 0x04 | 0x08 | 0x0B | 0x0C | 0x11 | 0xC0 | 0xC1 => some true
  | 0x06 | 0x07 | 0x09 | 0x0A => some false
  | _ => none

/-- Where a feature value is kept: threshold selects and interrupt vectors have one value each. -/
def featKey (fid cdw11 : Nat) : Nat :=
  if fid = 0x04 then fid + 256 * bitsOf cdw11 21 16 else if fid = 0x09 then fid + 256 * bitsOf cdw11 15 0 else fid

/-- A feature's default value. -/
def featDefault (fid : Nat) : Nat := if fid = 0x06 then 1 else if fid = 0x07 then 1022 + 1022 * 65536 else 0

/-- The APST entry of a power state: idle time in ms and the state entered. -/
def apstEntry (t : List DWord) (ps : Nat) : Nat × Nat :=
  let e := t.getD ps 0
  (e.bits 31 8, e.bits 7 3)

/-- The status of a Set Features with good attributes. -/
def Dev.featError (d : Dev) (portB : Bool) (fid nsid cdw11 : Nat) (table : List DWord) : Option NvStatus :=
  match fid with
  | 0x02 => if 4 < bitsOf cdw11 4 0 ∨ (bitsOf cdw11 4 0 = 4 ∧ !d.solo) then some .invalidField else none
  | 0x06 => if d.cachePresent then none else some .invalidField
  | 0x07 => if (d.ctl portB).cqs.any (·.id ≠ 0) ∨ (d.ctl portB).sqs.any (·.id ≠ 0) then some .commandSequenceError
            else if bitsOf cdw11 15 0 = 0xFFFF ∨ bitsOf cdw11 31 16 = 0xFFFF then some .invalidField else none
  | 0x09 => if 1024 ≤ bitsOf cdw11 15 0 then some .invalidField else none
  | 0x0C => if table.any fun e => e.bits 31 8 != 0 && (e.bits 7 3 > 4 || (e.bits 7 3 == 4 && !d.solo)) then some .invalidField else none
  | 0xC0 => if d.hasNs nsid then none else some .invalidNamespaceOrFormat
  | _ => none

/-- A saved feature value replaced. -/
def Dev.putSaved (d : Dev) (portB : Bool) (key : Nat) (v : DWord) : Dev :=
  { d with nvm := { d.nvm with saved := (d.nvm.saved.filter fun x => !(x.1 == portB && x.2.1 == key)) ++ [(portB, key, v)] } }

/-- Saves a feature value in the vault (R525); an APST table with it. -/
def Dev.saveFeat (d : Dev) (portB : Bool) (fid cdw11 : Nat) (table : List DWord) : Dev :=
  let d := d.putSaved portB (featKey fid cdw11) (BitVec.ofNat 64 cdw11)
  let d : Dev := if fid = 0x0C then table.zipIdx.foldl (fun (d : Dev) x => d.putSaved portB (0x10000 + x.2) x.1) d else d
  d.emit (.vault "saved features" fid)

/-- A feature takes a value. -/
def Dev.applyFeat (d : Dev) (portB : Bool) (fid nsid cdw11 : Nat) (table : List DWord) : Dev :=
  let put := fun (d : Dev) (v : Nat) => d.updCtl portB fun x => { x with feats := AMap.put x.feats (featKey fid cdw11) (BitVec.ofNat 64 v) }
  match fid with
  | 0x02 => if d.activating then d.updCtl portB fun x => { x with psWait := some (bitsOf cdw11 4 0) }
            else d.setPower portB (bitsOf cdw11 4 0)
  | 0x06 => d.updCtl portB fun x => { x with wce := cdw11.testBit 0 }
  | 0x07 => d
  | 0x0C => (put d cdw11).updCtl portB fun x => { x with apst := (table ++ List.replicate 32 0).take 32 }
  | 0x11 => (put d (cdw11 % 2)).jnlStatus
  | 0xC0 => Dev.emit { d with nvm := { d.nvm with appTags := AMap.put d.nvm.appTags nsid (cdw11 % 65536) } } (.vault "saved features" fid)
  | 0xC1 => put d (cdw11 % 16)
  | _ => put d cdw11

/-- SET_FEATURES: `table` is the APST data (R520). -/
def Dev.setFeatures (d : Dev) (portB : Bool) (cid fid nsid cdw11 : Nat) (save : Bool) (table : List DWord) : Dev :=
  d.fetched portB 0 fun d =>
    match featSaveable fid with
    | none => d.adminDone portB cid .invalidField 0 nsid
    | some sv =>
      if fid = 0x06 ∧ !d.cachePresent then d.adminDone portB cid .invalidField 0 nsid
      else if save && !sv then d.adminDone portB cid .featureNotSaveable 0 nsid
      else match d.featError portB fid nsid cdw11 table with
        | some st => d.adminDone portB cid st 0 nsid
        | none =>
          let d := d.applyFeat portB fid nsid cdw11 table
          let d := if save && fid ≠ 0xC0 then d.saveFeat portB fid cdw11 table else d
          d.adminDone portB cid .success (if fid = 0x07 then featDefault fid else 0) nsid

/-- The current value of a feature. -/
def Dev.featNow (d : Dev) (portB : Bool) (fid nsid cdw11 : Nat) : Nat :=
  let c := d.ctl portB
  match fid with
  | 0x02 => c.pstate
  | 0x06 => if c.wce then 1 else 0
  | 0x07 => featDefault fid
  | 0xC0 => (AMap.get d.nvm.appTags nsid).getD 0
  | _ => (c.feat (featKey fid cdw11)).toNat

/-- GET_FEATURES: `sel` 0 current, 1 default, 2 saved, 3 capabilities. -/
def Dev.getFeatures (d : Dev) (portB : Bool) (cid fid nsid cdw11 sel : Nat) : Dev :=
  d.fetchedAdmin portB cid fun d =>
    match featSaveable fid with
    | none => d.adminDone portB cid .invalidField 0 nsid
    | some sv =>
      if fid = 0x06 ∧ !d.cachePresent then d.adminDone portB cid .invalidField 0 nsid
      else if fid = 0xC0 ∧ !d.hasNs nsid then d.adminDone portB cid .invalidNamespaceOrFormat 0 nsid
      else
        let saved := (d.nvm.saved.find? fun x => x.1 == portB && x.2.1 == featKey fid cdw11).map fun x => x.2.2.toNat
        let v := match sel with
          | 0 => d.featNow portB fid nsid cdw11
          | 1 => featDefault fid
          | 2 => if fid = 0xC0 then d.featNow portB fid nsid cdw11 else saved.getD (featDefault fid)
          | _ => (if sv then 1 else 0) + (if fid = 0xC0 then 2 else 0) + 4
        let d := if fid = 0x0C ∧ sel = 0 then d.emit (.page portB cid 0x0C ((d.ctl portB).apst.flatMap fun e => leBytes 8 e.toNat)) else d
        d.adminDone portB cid .success v nsid

/-- ASYNC_EVENT_REQUEST: up to 16 wait; a notice that is kept is delivered to it. -/
def Dev.asyncEventRequest (d : Dev) (portB : Bool) (cid : Nat) : Dev :=
  d.fetched portB 0 fun d =>
    let c := d.ctl portB
    if 16 ≤ c.aers.length then d.adminDone portB cid .aerLimitExceeded 0 0
    else match c.notices with
      | [] => d.updCtl portB fun x => { x with aers := x.aers ++ [cid] }
      | (typ, info, page) :: rest =>
        let d := d.updCtl portB fun x => { x with notices := rest }
        (d.emit (.aen portB typ info page)).adminDone portB cid .success (typ + info * 256 + page * 65536) 0

/-! ### Format NVM and Sanitize (R510 to R515) -/

/-- Whether Format NVM and Sanitize wait for the armature engine (R512). -/
def Dev.armBusy (d : Dev) : Bool := d.maq == 5 || d.on Reg.ARM_STATUS_DRAINING

/-- The namespaces of the active epoch in pools that this package owns, or that it does not. -/
def Dev.nsidsOwned (d : Dev) (own : Bool) : List Nat :=
  match d.arm.active with
  | some a => (a.namespaces.filter fun n => d.ownsPool n.pool == own).map (·.nsid)
  | none => []

/-- Asks the partner to work on its pools, in accord, where it owns some of them (R620). -/
def Dev.askPartner (d : Dev) (sanitize : Bool) (nsid cdw10 cdw11 : Nat) (there : Bool) : Dev :=
  if d.solo || !there then d
  else Dev.peerSend { d with acd := { d.acd with nsOps := d.acd.nsOps ++ [NsOpWait.mk sanitize nsid 1 .success] } } 0x10
    [if sanitize then 2 else 1, nsid, cdw10, cdw11, 0, 0, 0, 0]

/-- Starts an erasure. -/
def Dev.startErase (d : Dev) (e : Erase) : Dev :=
  Dev.eraseAdvance (Dev.emit { d with nvm := { d.nvm with erases := d.nvm.erases ++ [e] } } (.vault "progress" 0))

/-- FORMAT_NVM (R510 to R512, table 11-7). -/
def Dev.formatNvm (d : Dev) (portB : Bool) (cid nsid lbaf pi ses : Nat) (piFirst : Bool) : Dev :=
  d.fetched portB 0 fun d =>
    let all := nsid == 0xFFFFFFFF
    if d.sanitizing then d.adminDone portB cid .sanitizeInProgress 0 nsid
    else if d.nvm.sanFailed then d.adminDone portB cid .sanitizeFailed 0 nsid
    else if !all && !d.hasNs nsid then d.adminDone portB cid .invalidNamespaceOrFormat 0 nsid
    else if 4 < lbaf ∨ 3 < pi ∨ (lbaf = 0 ∧ pi ≠ 0) then d.adminDone portB cid .invalidFormat 0 nsid
    else if 2 < ses then d.adminDone portB cid .invalidField 0 nsid
    else
      let mine := (d.nsidsOwned true).filter fun n => all || n == nsid
      let theirs := (d.nsidsOwned false).filter fun n => all || n == nsid
      let fmt : NsFmt := ⟨lbaf, pi, piFirst⟩
      let d := d.askPartner false nsid (lbaf + 32 * pi + (if piFirst then 256 else 0) + 512 * ses) 0 (!theirs.isEmpty)
      d.startErase { sanitize := false, nsids := mine, ses := ses, newFmt := fmt, step := 0, portB := portB, cid := cid, owPass := 0,
                     pattern := 0, invert := false, noDealloc := false, remote := false, silent := false, waiting := d.armBusy }

/-- SANITIZE (R513 to R515): `action` 1 exit failure mode, 3 overwrite, 4 crypto erase; others are unsupported. The command completes
when the operation has been started. -/
def Dev.sanitize (d : Dev) (portB : Bool) (cid action passes pattern : Nat) (ause invert noDealloc : Bool) : Dev :=
  d.fetched portB 0 fun d =>
    if d.nvm.erases.any (·.sanitize) then d.adminDone portB cid .sanitizeInProgress 0 0
    else if action = 1 then
      if d.nvm.sanFailed && !d.nvm.sanAuse then d.adminDone portB cid .sanitizeFailed 0 0
      else Dev.adminDone { d with nvm := { d.nvm with sanFailed := false } } portB cid .success 0 0
    else if action ≠ 3 ∧ action ≠ 4 then d.adminDone portB cid .invalidField 0 0
    else
      let d := d.adminDone portB cid .success 0 0
      let d := { d with nvm := { d.nvm with sanDone := false, sanAuse := ause } }
      let n := if passes = 0 then 16 else min passes 16
      let d := d.askPartner true 0xFFFFFFFF
        (action + (if ause then 8 else 0) + 16 * (passes % 16) + (if invert then 256 else 0) + (if noDealloc then 512 else 0)) pattern true
      d.startErase { sanitize := true, nsids := d.nsidsOwned true, ses := if action = 3 then 3 else 2, newFmt := ⟨0, 0, false⟩, step := 0,
                     portB := portB, cid := cid, owPass := n, pattern := pattern % 2 ^ 32, invert := invert, noDealloc := noDealloc,
                     remote := false, silent := false, waiting := d.armBusy }

/-! ### Plain admin rows -/

/-- KEEP_ALIVE is accepted. -/
def Dev.keepAlive (d : Dev) (portB : Bool) (cid : Nat) : Dev := d.fetched portB 0 fun d => d.adminDone portB cid .success 0 0

/-- An opcode the device does not support, on any queue (R490, R500). -/
def Dev.badOpcode (d : Dev) (portB : Bool) (sq cid : Nat) : Dev :=
  d.fetched portB sq fun d => d.complete portB sq cid .invalidOpcode 0 0 0

/-- NAMESPACE_MANAGEMENT (R490). -/
def Dev.namespaceManagement (d : Dev) (portB : Bool) (cid : Nat) : Dev := d.badOpcode portB 0 cid
/-- NAMESPACE_ATTACHMENT (R490). -/
def Dev.namespaceAttachment (d : Dev) (portB : Bool) (cid : Nat) : Dev := d.badOpcode portB 0 cid

/-! ### Doorbells -/

/-- NVME_SQ_DOORBELL: a valid tail of an existing queue is taken, unless the queue is being deleted. -/
def Dev.nvmeSqDoorbell (d : Dev) (portB : Bool) (sq tail : Nat) : Dev :=
  if !d.takesBar0 portB || (d.ctl portB).deleting.any (·.1 = sq) then d
  else
    let set := fun (q : NSq) => if tail < q.size then { q with tail := tail } else q
    d.updCtl portB fun c => { c with sqs := updWhere (fun (q : NSq) => q.id == sq) set c.sqs }

/-- NVME_CQ_DOORBELL: a valid head frees slots, and completions that waited are posted. -/
def Dev.nvmeCqDoorbell (d : Dev) (portB : Bool) (cq head : Nat) : Dev :=
  if !d.takesBar0 portB then d
  else
    let set := fun (q : NCq) => if head < q.size then { q with head := head } else q
    (d.updCtl portB fun c => { c with cqs := updWhere (fun (q : NCq) => q.id == cq) set c.cqs }).drainCqs portB

/-! ### Enable, disable, shutdown (R485, R521) -/

/-- CC_ENABLE: the admin queues take their sizes, and the controller becomes ready as soon as R485 allows. -/
def Dev.ccEnable (d : Dev) (portB : Bool) (ams asqs acqs : Nat) : Dev :=
  if !d.takesBar0 portB || (d.ctl portB).en then d
  else
    (d.updCtl portB fun c => { c with en := true, enUs := d.now, ams := ams, shst := 0, shutdown := false,
                                      sqs := [NSq.mk 0 0 asqs 0 0 0], cqs := [NCq.mk 0 acqs 0 0 0 true []] }).readyCheck

/-- READY_TIMEOUT: 30 s after CC.EN a controller that is held not ready sets CSTS.CFS. -/
def Dev.readyTimeout (d : Dev) (portB : Bool) : Dev :=
  if (d.ctl portB).en && !(d.ctl portB).rdy && d.heldNotReady then d.updCtl portB fun c => { c with cfs := true } else d

/-- The saved feature values of a controller, or none. -/
def Dev.savedFeats (d : Dev) (portB : Bool) : AMap DWord :=
  d.nvm.saved.foldl (fun m x => if x.1 == portB && decide (x.2.1 < 0x10000) then AMap.put m x.2.1 x.2.2 else m) []

/-- The saved APST table of a controller. -/
def Dev.savedApst (d : Dev) (portB : Bool) : List DWord :=
  (List.range 32).map fun i => match d.nvm.saved.find? fun x => x.1 == portB && x.2.1 == 0x10000 + i with
    | some x => x.2.2
    | none => 0

/-- The commands of a controller that is reset (table 11-10): admitted writes go on without a completion, every other command ends
without one, and unfetched commands are discarded with their queues. -/
def Dev.dropCommands (d : Dev) (portB : Bool) : Dev :=
  let mine := d.cmds.filter fun c => c.portB == portB && !c.detached
  let detach := fun (c : HostCmd) => if c.portB == portB && c.admitted then { c with detached := true } else c
  let d : Dev := (mine.filter (!·.admitted)).foldl (fun (d : Dev) c =>
    let d := d.dropWork c.id
    { d with cmds := d.cmds.filter (·.id ≠ c.id) }) d
  let hush := fun (e : Erase) => if e.portB == portB && !e.remote then { e with silent := true } else e
  { d with cmds := d.cmds.map detach, nvm := { d.nvm with erases := d.nvm.erases.map hush } }

/-- A controller level reset: features return to their saved values, CSTS.CFS clears where the hold has ended (R485), and an image
that waits for it is activated (R744). -/
def Dev.ctlReset (d : Dev) (portB : Bool) : Dev :=
  let d := d.dropCommands portB
  let ps := ((AMap.get (d.savedFeats portB) 0x02).getD 0).bits 4 0
  let d := d.updCtl portB fun c =>
    { c with en := false, rdy := false, cfs := c.cfs && d.heldNotReady, shst := 0, ams := 0, sqs := [], cqs := [],
             feats := d.savedFeats portB, aers := [], notices := [], pstate := ps, lastOp := if ps < 3 then ps else 0,
             apst := d.savedApst portB, shutdown := false, shutBarrier := none, deleting := [], psWait := none }
  let keep := d.mgmt.act.map fun (a : FwAct) => { a with cmd := a.cmd.filter fun (c : Bool × Nat) => c.1 != portB || decide (tunnelCid ≤ c.2) }
  let d := { d with mgmt := { d.mgmt with act := keep, waiting := d.mgmt.waiting.filter fun w => w.1 != portB || decide (tunnelCid ≤ w.2.1) } }
  let d := match d.mgmt.pending with
    | some n => if d.mgmt.act.isNone then { d with mgmt := { d.mgmt with pending := none, act := some ⟨n, none⟩ } } else d
    | none => d
  d.jnlStatus

/-- CC_DISABLE. -/
def Dev.ccDisable (d : Dev) (portB : Bool) : Dev :=
  if d.takesBar0 portB && (d.ctl portB).en then (d.ctlReset portB).eraseAdvance else d

/-- SHUTDOWN_NORMAL: fetching stops; SHST is complete when commands have completed and, where the cache is reported present, a barrier
has reached the tail. -/
def Dev.shutdownNormal (d : Dev) (portB : Bool) : Dev :=
  if !d.takesBar0 portB || !(d.ctl portB).en || (d.ctl portB).shst ≠ 0 then d
  else
    let d := if d.cachePresent then d.barrier else d
    let d := d.updCtl portB fun c => { c with shutdown := true, shst := 1, shutBarrier := if d.cachePresent then some d.head else none }
    d.shutdownCheck portB

/-- SHUTDOWN_ABRUPT: SHST is complete at once; admitted writes complete, other commands end without a completion. -/
def Dev.shutdownAbrupt (d : Dev) (portB : Bool) : Dev :=
  if !d.takesBar0 portB || !(d.ctl portB).en then d
  else
    let gone := d.cmds.filter fun c => c.portB == portB && !c.detached && !c.admitted
    let d : Dev := gone.foldl (fun (d : Dev) c =>
      let d := d.dropWork c.id
      { d with cmds := d.cmds.filter (·.id ≠ c.id) }) d
    d.updCtl portB fun c => { c with shutdown := true, shst := 2, shutBarrier := none }

/-- APST_TRANSITION (R520): the idle time of the current state's table entry has passed. -/
def Dev.apstTransition (d : Dev) (portB : Bool) : Dev :=
  let c := d.ctl portB
  let (ms, ps) := apstEntry c.apst c.pstate
  if c.rdy && (c.feat 0x0C).toNat.testBit 0 && ms != 0 && (ps == 3 || (ps == 4 && d.solo)) then d.setPower portB ps else d

end Sys2Proof.Machine
end

