-- ==== Sys2Proof/Machine/CwqOps.lean ====
section
/-!
DEFINITION. Shared operations of channels and codec work queues: ring indices (R439), the published head (R453), completions with the
completion store (R454 to R462, R473), moderation (R474, R475), and a channel's return to IDLE (table 9-12).
-/
namespace Sys2Proof.Machine

/-! ### Channels -/

/-- A channel that runs nothing. -/
def Chan.idle : Chan := ⟨none, none, none, none, [0, 0, 0, 0], 0, 0, 0⟩
/-- Channel `ch`. -/
def Dev.chan (d : Dev) (ch : Nat) : Chan := (AMap.get d.cwq.chans ch).getD Chan.idle
/-- Channel `ch` changed. -/
def Dev.updChan (d : Dev) (ch : Nat) (f : Chan → Chan) : Dev :=
  { d with cwq := { d.cwq with chans := AMap.put d.cwq.chans ch (f (d.chan ch)) } }
/-- CHN_STATUS.STATE (table 9-10). -/
def Dev.chState (d : Dev) (ch : Nat) : Nat := d.gi Reg.CHN_STATUS_STATE ch
/-- Sets CHN_STATUS.STATE. -/
def Dev.setChState (d : Dev) (ch st : Nat) : Dev := d.pi Reg.CHN_STATUS_STATE ch st

/-- Whether a channel is internal (R340, R342): an idle one by FAB_INTCH.COUNT, a busy one by what it runs. -/
def Dev.chInternal (d : Dev) (ch : Nat) : Bool :=
  if d.chState ch = 0 then decide (16 - d.gClamp Reg.FAB_INTCH_COUNT 1 15 ≤ ch % 16) else d.gi Reg.CHN_STATUS_INTERNAL ch != 0

/-- The port that owns a channel (R386): the entry's, or the primary port. -/
def Dev.chPort (d : Dev) (ch : Nat) : Bool := match (d.chan ch).run with | some r => r.portB | none => d.primaryB

/-- The cluster of a channel. -/
def chCluster (ch : Nat) : Nat := ch / 16

/-- Raises an event bit of a channel, and the interrupt of a direct program, or of an entry's queue where it asks for events (R476,
table 9-21). -/
def Dev.chEvent (d : Dev) (ch : Nat) (f : Fld) (ofEntry : Bool) : Dev :=
  let d := d.pi f ch 1
  match (d.chan ch).run with
  | none => if d.gi Reg.CHN_IRQ_EN ch ≠ 0 then d.irqPrimary (d.gi Reg.CHN_IRQ_VECTOR ch) else d
  | some r =>
    let cq := d.gi Reg.CWQ_SQ_CTRL_CQ r.sq
    if ofEntry && r.events && d.gi Reg.CWQ_CQ_CTRL_IEN cq != 0 then d.irq r.portB 1 (d.gi Reg.CWQ_CQ_CTRL_VECTOR cq) else d

/-- The last step of an ending: LAST is set, END or FAULT is raised, and the channel is IDLE with no loop active (table 9-12); a
channel that FAB_INTCH has meanwhile made internal loses DIRECT (table 9-14). -/
def Dev.chFinish (d : Dev) (ch : Nat) : Dev :=
  match (d.chan ch).ending with
  | none => d
  | some e =>
    let d := d.pi Reg.CHN_STATUS_LAST ch e.status
    let d := d.chEvent ch (if e.status = 0 then Reg.CHN_EVENTS_END else Reg.CHN_EVENTS_FAULT) false
    let d := ((d.setChState ch 0).pi Reg.CHN_STATUS_LOOPS ch 0).pi Reg.CHN_STATUS_INTERNAL ch 0
    let d := { d with cwq := { d.cwq with chans := AMap.erase d.cwq.chans ch } }
    if d.chInternal ch then d.pi Reg.CHN_CTRL_DIRECT ch 0 else d

/-! ### Rings (R439) -/

/-- Position of a ring index. -/
def posOf (i : Nat) : Nat := i % 65536
/-- Wrap bit of a ring index. -/
def wrapOf (i : Nat) : Nat := i / 65536 % 2
/-- The index after one. -/
def ringNext (size i : Nat) : Nat :=
  if posOf i + 1 = size then (1 - wrapOf i) * 65536 else wrapOf i * 65536 + posOf i + 1
/-- Entries between a head and a tail; valid where the result does not exceed the size. -/
def ringUsed (h t size : Nat) : Int :=
  if wrapOf t = wrapOf h then (posOf t : Int) - posOf h else (size : Int) - posOf h + posOf t

/-- Size of a submission ring. -/
def Dev.sqSize (d : Dev) (q : Nat) : Nat := 2 ^ (max 4 (min 16 (d.gi Reg.CWQ_SQ_CTRL_SIZE_LOG2 q)))
/-- Size of a completion ring. -/
def Dev.cqSize (d : Dev) (q : Nat) : Nat := 2 ^ (max 4 (min 16 (d.gi Reg.CWQ_CQ_CTRL_SIZE_LOG2 q)))

/-! ### Queue state -/

/-- A submission queue's state. -/
def Dev.sq (d : Dev) (q : Nat) : SqSt := (AMap.get d.cwq.sqs q).getD ⟨[], 0, 0, 0, [], none, false⟩
/-- A submission queue's state changed. -/
def Dev.updSq (d : Dev) (q : Nat) (f : SqSt → SqSt) : Dev :=
  { d with cwq := { d.cwq with sqs := AMap.put d.cwq.sqs q (f (d.sq q)) } }
/-- A completion queue's state. -/
def Dev.cq (d : Dev) (q : Nat) : CqSt := (AMap.get d.cwq.cqs q).getD ⟨[], 0, 0⟩
/-- A completion queue's state changed. -/
def Dev.updCq (d : Dev) (q : Nat) (f : CqSt → CqSt) : Dev :=
  { d with cwq := { d.cwq with cqs := AMap.put d.cwq.cqs q (f (d.cq q)) } }
/-- CWQ_SQ_STATUS.STATE. -/
def Dev.sqState (d : Dev) (q : Nat) : Nat := d.gi Reg.CWQ_SQ_STATUS_STATE q

/-- The completion store of a port, and what waits outside it. -/
def Dev.store (d : Dev) (portB : Bool) : List CqCpl := if portB then d.cwq.storeB else d.cwq.storeA
/-- The store of a port replaced, with CWQ_GSTATUS.HELD (table 10-24). -/
def Dev.setStore (d : Dev) (portB : Bool) (xs : List CqCpl) : Dev :=
  let d := if portB then { d with cwq := { d.cwq with storeB := xs } } else { d with cwq := { d.cwq with storeA := xs } }
  d.p Reg.CWQ_GSTATUS_HELD (d.cwq.storeA.length + d.cwq.storeB.length)
/-- Completions that wait outside the store of a port. -/
def Dev.outside (d : Dev) (portB : Bool) : List CqCpl := if portB then d.cwq.outB else d.cwq.outA
/-- The completions outside a port's store replaced. -/
def Dev.setOutside (d : Dev) (portB : Bool) (xs : List CqCpl) : Dev :=
  if portB then { d with cwq := { d.cwq with outB := xs } } else { d with cwq := { d.cwq with outA := xs } }

/-! ### The published head (R453) -/

/-- Writes the published head and state of an SQ, or leaves it to be written when the port may send. -/
def Dev.writeHead (d : Dev) (q : Nat) : Dev :=
  let b := d.queueOwnerB false q
  if d.canSend b 1 then
    let bytes := leBytes 4 (d.gi Reg.CWQ_SQ_HEAD_INDEX q) ++ leBytes 1 (d.sqState q) ++ leBytes 3 0
    (d.emit (.dma b false (d.gi Reg.CWQ_SQ_WB_ADDR q * 8) bytes)).updSq q fun s => { s with dirty := false }
  else d.updSq q fun s => { s with dirty := true }

/-- Sets an SQ's state and writes it back (R453). -/
def Dev.setSqState (d : Dev) (q st : Nat) : Dev := (d.pi Reg.CWQ_SQ_STATUS_STATE q st).writeHead q

/-- A draining SQ whose last completion has been posted is QUIESCED (R466). -/
def Dev.quiesceCheck (d : Dev) (q : Nat) : Dev :=
  if d.sqState q = 2 ∧ (d.sq q).started.isEmpty then d.setSqState q 3 else d

/-! ### Completions -/

/-- The 32 bytes of a CQ entry (table 10-3). -/
def CqCpl.bytes (c : CqCpl) (seq time tail : Nat) : List Byte :=
  leBytes 8 c.user ++ leBytes 4 c.residue ++ leBytes 4 seq ++ leBytes 4 time ++ leBytes 2 c.sq ++ leBytes 2 c.cid ++ leBytes 2 c.ch ++
  leBytes 1 c.status ++ leBytes 1 ((if wrapOf tail = 0 then 1 else 0) + (if c.recorded then 2 else 0) + (if c.early then 4 else 0)) ++
  leBytes 4 c.detail

/-- CWQ_TIME (R459). -/
def Dev.cwqTime (d : Dev) : Nat := d.now % 2 ^ 32

/-- Sends a CQ's vector, if its interrupts are enabled; both counts restart (R474). -/
def Dev.cqIrq (d : Dev) (q : Nat) : Dev :=
  let d := d.updCq q fun s => { s with pending := 0 }
  if d.gi Reg.CWQ_CQ_CTRL_IEN q ≠ 0 then d.irq (d.queueOwnerB true q) 1 (d.gi Reg.CWQ_CQ_CTRL_VECTOR q) else d

/-- Whether a CQ is full. -/
def Dev.cqFull (d : Dev) (q : Nat) : Bool :=
  ringUsed (d.gi Reg.CWQ_CQ_HEAD_INDEX q) (d.gi Reg.CWQ_CQ_TAIL_INDEX q) (d.cqSize q) == d.cqSize q

/-- A WAIT completes: the channel's cluster wakes (R368), and the channel goes on with the next instruction (R417). -/
def Dev.waitEnd (d : Dev) (ch : Nat) : Dev :=
  let d := (d.updChan ch fun c => { c with wait := none }).wakeCluster (chCluster ch)
  let d := (d.setChState ch 1).pi Reg.CHN_PC_PC ch ((d.gi Reg.CHN_PC_PC ch + 32) % 2 ^ 64)
  if d.gi Reg.CHN_CTRL_PROG_HBM ch = 0 then d.sendRead (d.chPort ch) ⟨1, .chnFetch ch, d.gi Reg.CHN_PC_PC ch, 32⟩ else d

/-- Completes the WAIT EVENT of every channel that waits for a queue (R417). -/
def Dev.wakeEvent (d : Dev) (q : Nat) : Dev :=
  (d.cwq.chans.filter fun c => match c.2.wait with | some w => w.kind == 3 && w.value == q | none => false).foldl
    (fun (d : Dev) c => d.waitEnd c.1) d

/-- Writes one completion into a CQ slot that is free (R453, R457, R458, R461), and counts it. -/
def Dev.cqWrite (d : Dev) (c : CqCpl) : Dev :=
  let q := c.cq
  let d := if (d.sq c.sq).dirty then d.writeHead c.sq else d
  let tail := d.gi Reg.CWQ_CQ_TAIL_INDEX q
  let seq := d.gi Reg.CWQ_CQ_SEQ_SEQ q
  let d := d.emit (.dma (d.queueOwnerB true q) false (d.gi Reg.CWQ_CQ_BASE_ADDR q * 4096 + 32 * posOf tail) (c.bytes seq d.cwqTime tail))
  let d := (d.pi Reg.CWQ_CQ_TAIL_INDEX q (ringNext (d.cqSize q) tail)).pi Reg.CWQ_CQ_SEQ_SEQ q (seq + 1)
  let d := d.pi Reg.CWQ_CQ_STATUS_FULL q (if d.cqFull q then 1 else 0)
  let d := d.updCq q fun s => { s with pending := s.pending + 1, pendingUs := if s.pending = 0 then d.now else s.pendingUs }
  let d := if c.irqNow || decide (max 1 (d.gi Reg.CWQ_CQ_MOD_COUNT q) ≤ (d.cq q).pending) then d.cqIrq q else d
  let d := d.wakeEvent q
  let d := d.updSq c.sq fun s => { s with started := s.started.erase (c.cid, c.ch) }
  let d := d.pi Reg.CWQ_SQ_STATUS_ACTIVE c.sq (d.sq c.sq).started.length
  d.quiesceCheck c.sq

/-- Whether a completion can be written now. -/
def Dev.cqOpen (d : Dev) (c : CqCpl) : Bool :=
  d.canSend (d.queueOwnerB true c.cq) 1 && d.gi Reg.CWQ_CQ_CTRL_ENABLE c.cq != 0

/-- A channel that its completion kept ENDING goes IDLE. -/
def Dev.releaseChan (d : Dev) (c : CqCpl) : Dev := match c.chan with | some ch => d.chFinish ch | none => d

/-- Puts a completion on its way: written, waiting for a slot of a full CQ (R462), held in the store, or waiting outside a full store
(R473). The channel is IDLE once its completion is written or held. -/
def Dev.cqPost (d : Dev) (c : CqCpl) : Dev :=
  let b := d.queueOwnerB true c.cq
  if !d.cqOpen c then
    let d := if (d.port b).pf1.d3hot then d.sendPme b else d
    if (d.store b).length < 480 then (d.setStore b (d.store b ++ [{ c with chan := none }])).releaseChan c
    else d.setOutside b (d.outside b ++ [c])
  else if d.cqFull c.cq || !(d.cq c.cq).waiting.isEmpty then
    let d := d.updCq c.cq fun s => { s with waiting := s.waiting ++ [c] }
    (d.pi Reg.CWQ_CQ_STATUS_FULL_SEEN c.cq 1).pi Reg.CWQ_CQ_STATUS_WAITING c.cq (d.cq c.cq).waiting.length
  else (d.cqWrite c).releaseChan c

/-- Posts the completions that wait for slots of a CQ, as far as there is room (`fuel` at most). -/
def Dev.cqDrain (d : Dev) (q : Nat) : Nat → Dev
  | 0 => d
  | n + 1 =>
    match (d.cq q).waiting with
    | [] => d
    | c :: rest =>
      if d.cqFull q || !d.cqOpen c then d
      else
        let d := (d.updCq q fun s => { s with waiting := rest }).pi Reg.CWQ_CQ_STATUS_WAITING q rest.length
        Dev.cqDrain ((d.cqWrite c).releaseChan c) q n

/-- Fills a port's store from outside, as far as there is room. -/
def Dev.refillStore (d : Dev) (portB : Bool) : Dev :=
  (d.outside portB).foldl (fun (d : Dev) c =>
    if (d.store portB).length < 480 then
      let d := d.setOutside portB ((d.outside portB).drop 1)
      (d.setStore portB (d.store portB ++ [{ c with chan := none }])).releaseChan c
    else d) d

/-- Posts what waits for slots of a port's CQs, as far as there is room (R462). -/
def Dev.drainWaiting (d : Dev) (portB : Bool) : Dev :=
  (d.cwq.cqs.map (·.1)).foldl (fun (d : Dev) q =>
    if d.queueOwnerB true q == portB then d.cqDrain q ((d.cq q).waiting.length + 1) else d) d

/-- Releases a port's store in the order held, after what has begun to wait for slots earlier; a completion of a CQ that is disabled
stays (R462, R473). -/
def Dev.drainStore (d : Dev) (portB : Bool) : Dev :=
  let d := d.drainWaiting portB
  let held := d.store portB
  let d : Dev := held.foldl (fun (d : Dev) c =>
    if d.cqOpen c then (d.setStore portB ((d.store portB).erase c)).cqPost c else d) d
  d.refillStore portB

end Sys2Proof.Machine
end

