-- ==== Sys2Proof/Machine/Channel.lean ====
section
/-!
DEFINITION. Channel programs (chapter 9): endings (R423 to R429), counters and their waiters (R410, R411, R415, R417), transfer units
(R380 to R384), MOVE and MAC (R398 to R409), the other instructions, and the rows that run them. Instructions reach a channel as the
32 bytes its fetch delivers.
-/
namespace Sys2Proof.Machine

/-! ### Fetch and the next instruction -/

/-- Asks for the instruction at the PC, where the program lies in host memory (R390, R391). -/
def Dev.fetchIns (d : Dev) (ch : Nat) : Dev :=
  if d.gi Reg.CHN_CTRL_PROG_HBM ch = 0 then d.sendRead (d.chPort ch) ⟨1, .chnFetch ch, d.gi Reg.CHN_PC_PC ch, 32⟩ else d

/-- Goes to another PC and asks for its instruction. -/
def Dev.gotoPc (d : Dev) (ch pc : Nat) : Dev :=
  ((d.setChState ch 1).pi Reg.CHN_PC_PC ch (pc % 2 ^ 64)).fetchIns ch

/-- The current instruction has completed. -/
def Dev.nextIns (d : Dev) (ch : Nat) : Dev := d.gotoPc ch (d.gi Reg.CHN_PC_PC ch + 32)

/-! ### Endings (table 9-12) -/

/-- Registers of a loop level. -/
def loopCount (v : Nat) : Fld := { Reg.CHN_LOOP1_COUNT with base := Reg.CHN_LOOP1_COUNT.base + 8 * (v - 1) }
/-- INDEX register of a loop level. -/
def loopIndex (v : Nat) : Fld := { Reg.CHN_LOOP1_INDEX with base := Reg.CHN_LOOP1_INDEX.base + 8 * (v - 1) }
/-- Semaphore register `n`. -/
def semReg (n : Nat) : Fld := { Reg.CHN_SEM0_VALUE with base := Reg.CHN_SEM0_VALUE.base + 4 * n }

/-- Whether a loop level is active. -/
def Dev.loopOn (d : Dev) (ch v : Nat) : Bool := (d.gi Reg.CHN_STATUS_LOOPS ch).testBit (v - 1)

/-- Address of a channel's status record; bit [5] acts as 0 (table 9-18). -/
def Dev.recAddr (d : Dev) (ch : Nat) : Nat := d.gi Reg.CHN_REC_ADDR_ADDR ch / 2 * 64

/-- The status record (table 9-13). -/
def Dev.statusRecord (d : Dev) (ch : Nat) (e : Ending) : List Byte :=
  leBytes 1 e.status ++ leBytes 1 (d.chan ch).opcode ++ leBytes 1 (d.gi Reg.CHN_STATUS_LOOPS ch) ++
  leBytes 1 (d.gi Reg.CHN_STATUS_COMPLETED_EARLY ch) ++ leBytes 2 ch ++ leBytes 2 0 ++ leBytes 8 (d.gi Reg.CHN_PC_PC ch) ++
  leBytes 4 e.residue ++ leBytes 4 e.detail ++
  ([1, 2, 3, 4].flatMap fun v => leBytes 4 (d.gi (loopIndex v) ch) ++ leBytes 4 (d.gi (loopCount v) ch)) ++ leBytes 8 0

/-- The completion step of an ending, with whether a record was written. -/
def Dev.endPost (d : Dev) (ch : Nat) (recorded : Bool) : Dev :=
  match (d.chan ch).ending with
  | none => d
  | some e =>
    let e := { e with step := 2, recorded := recorded }
    let d := d.updChan ch fun c => { c with ending := some e }
    match (d.chan ch).run with
    | some r =>
      if d.gi Reg.CHN_STATUS_COMPLETED_EARLY ch ≠ 0 then d.chFinish ch
      else d.cqPost ⟨d.gi Reg.CWQ_SQ_CTRL_CQ r.sq, r.sq, r.cid, (d.chan ch).user, e.residue, ch, e.status, e.detail, recorded, false,
                     r.irqNow, some ch⟩
    | none => d.chFinish ch

/-- The record step of an ending (R428): not for OK, BUS_MASTER or RESET, nor for an entry with record address 0. -/
def Dev.endRecord (d : Dev) (ch : Nat) : Dev :=
  match (d.chan ch).ending with
  | none => d
  | some e =>
    let a := d.recAddr ch
    if e.step ≠ 0 then d
    else if e.status = 0 ∨ e.status = 0x0D ∨ e.status = 0x0E ∨ ((d.chan ch).run.isSome ∧ a = 0) then d.endPost ch false
    else if d.gi Reg.CHN_CTRL_REC_HBM ch ≠ 0 then (d.hbmWrite a (d.statusRecord ch e)).endPost ch true
    else if d.canSend (d.chPort ch) 1 then
      let d := d.updChan ch fun c => { c with ending := some { e with step := 1 } }
      (d.emit (.dma (d.chPort ch) false a (d.statusRecord ch e))).sendRead (d.chPort ch) ⟨1, .chnRec ch, a + 60, 4⟩
    else d

/-- Begins a channel's ending with a status: what it was doing is dropped, and RESIDUE and DETAIL are set (R425 to R427). -/
def Dev.endChan (d : Dev) (ch status detail : Nat) : Dev :=
  let c := d.chan ch
  if d.chState ch = 0 ∨ c.ending.isSome then d
  else
    let residue := match c.work with
      | some w => w.len - min w.len (4096 * w.done)
      | none => 0
    let mine := fun (u : ReadUser) => match u with
      | .chnFetch x => x == ch | .chnSrc x _ _ _ => x == ch | .chnBack x => x == ch | _ => false
    let d := d.forgetReads (d.chPort ch) mine
    let d := { d with cwq := { d.cwq with waiters := d.cwq.waiters.filter (·.ch ≠ ch) } }
    let d := d.updChan ch fun c => { c with work := none, wait := none, ending := some ⟨status, detail, residue, 0, false⟩ }
    (((d.setChState ch 4).pi Reg.CHN_RESIDUE_VALUE ch residue).pi Reg.CHN_DETAIL_VALUE ch detail).endRecord ch

/-! ### Staging -/

/-- First byte of a channel's window in its cluster's staging, and the window's size in bytes (table 9-19). -/
def Dev.stageWin (d : Dev) (ch : Nat) : Nat × Nat :=
  let base := min 767 (d.gi Reg.CHN_STAGE_BASE ch)
  (chCluster ch * 0x400000 + base * 4096, min (d.gi Reg.CHN_STAGE_SIZE ch) (768 - base) * 4096)

/-- One staging byte. -/
def Dev.stageByte (d : Dev) (a : Nat) : Byte := (AMap.get d.cwq.staging a).getD 0

/-- Bytes of a channel's window. -/
def Dev.stageRead (d : Dev) (ch off len : Nat) : List Byte := (List.range len).map fun i => d.stageByte ((d.stageWin ch).1 + off + i)

/-- Writes bytes into a channel's window. -/
def Dev.stageWrite (d : Dev) (ch off : Nat) (bytes : List Byte) : Dev :=
  let put := fun (m : AMap Byte) (x : Byte × Nat) =>
    let a := (d.stageWin ch).1 + off + x.2
    if x.1 = 0 then AMap.erase m a else AMap.put m a x.1
  { d with cwq := { d.cwq with staging := bytes.zipIdx.foldl put d.cwq.staging } }

/-- Pages of 0 to 767 that some host channel's window of a cluster covers (R383). -/
def Dev.coveredPages (d : Dev) (c : Nat) : Nat :=
  let ws := (List.range 16).filterMap fun i =>
    let ch := c * 16 + i
    if d.chInternal ch then none
    else some (min 767 (d.gi Reg.CHN_STAGE_BASE ch), min (d.gi Reg.CHN_STAGE_SIZE ch) (768 - min 767 (d.gi Reg.CHN_STAGE_BASE ch)))
  ((List.range 768).filter fun p => ws.any fun w => decide (w.1 ≤ p ∧ p < w.1 + w.2)).length

/-- Transit pages of a cluster that are free (R383). -/
def Dev.freePages (d : Dev) (c : Nat) : Nat :=
  let used := (d.cwq.chans.map fun x => if chCluster x.1 = c then
    (match x.2.work with | some w => (w.units.map (·.pages)).foldl (· + ·) 0 | none => 0) else 0).foldl (· + ·) 0
  stagingBlocks - d.coveredPages c - used - (d.cluster c).staged

/-! ### Counters and waiters (R410, R411, R417) -/

/-- The register that a waiter waits on. -/
def Waiter.fld (w : Waiter) : Fld := match w.sem with | some n => semReg n | none => Reg.CHN_LEVEL_VALUE

/-- Serves the waiters of one counter in the order in which they began, as far as it reaches (`fuel` at most). -/
def Dev.serve (d : Dev) (target : Nat) (sem : Option Nat) : Nat → Dev
  | 0 => d
  | n + 1 =>
    match d.cwq.waiters.find? fun w => w.target == target && w.sem == sem with
    | none => d
    | some w =>
      let have_ := d.gi w.fld target
      if have_ < w.amount then d
      else
        let d := d.pi w.fld target (have_ - w.amount)
        let d := { d with cwq := { d.cwq with waiters := d.cwq.waiters.erase w } }
        match w.unit with
        | none => Dev.serve (d.waitEnd w.ch) target sem n
        | some u =>
          let grant := fun (x : TUnit) => if x.n = u then { x with pace := x.pace - 1 } else x
          let d := d.updChan w.ch fun c => { c with work := c.work.map fun k => { k with units := k.units.map grant } }
          let more := match (d.chan w.ch).work with
            | some k => k.units.any fun x => x.n == u && x.pace != 0
            | none => false
          let d := if more then { d with cwq := { d.cwq with waiters := d.cwq.waiters ++ [w] } } else d
          Dev.serve d target sem n

/-- Serves a counter's waiters. -/
def Dev.serveAll (d : Dev) (target : Nat) (sem : Option Nat) : Dev := d.serve target sem (2 * d.cwq.waiters.length + 2048)

/-! ### Transfer units -/

/-- PI bytes of a block in a channel's format (R403). -/
def Dev.chPiLen (d : Dev) (ch : Nat) : Nat := if d.gi Reg.CHN_PI_GUARD64 ch ≠ 0 then 16 else 8

/-- Number of transfer units. -/
def Work.total (w : Work) : Nat := ceilDiv w.len 4096
/-- Data bytes of a unit. -/
def Work.bytes (w : Work) (u : Nat) : Nat := min 4096 (w.len - 4096 * u)
/-- Whether a unit's sources are all there. -/
def TUnit.ready (u : TUnit) : Bool := u.awaited.isEmpty && u.pace == 0

/-- Whether a host source and a host destination of a work overlap, so that units must follow one another (R399). -/
def Work.overlaps (w : Work) : Bool :=
  w.srcs.any fun s => w.dsts.any fun t => s.space == 0 && t.space == 0 &&
    decide (s.addr < t.addr + 2 * w.len ∧ t.addr < s.addr + 2 * w.len)

/-- CHN_STATUS.STATE of a channel that runs a MOVE or MAC: STALLED while a unit awaits source data (R421). -/
def Dev.syncState (d : Dev) (ch : Nat) : Dev :=
  match (d.chan ch).work with
  | some w => d.setChState ch (if w.units.any (!·.ready) then 3 else 1)
  | none => d

/-- Begins one more unit: its host reads go out and its paced sources begin to wait. -/
def Dev.beginUnit (d : Dev) (ch : Nat) (w : Work) (pages : Nat) : Dev :=
  let u := w.next
  let n := w.bytes u
  let p := if w.pi = 1 then d.chPiLen ch else 0
  let host := (w.srcs.zipIdx.filter fun s => s.1.space = 0).map fun s => (s.2, (s.1.addr + u * (4096 + p)) % 2 ^ 64)
  let mrrs := ((d.port (d.chPort ch)).fn 1).mrrs
  let parts := host.flatMap fun h => (splitRead mrrs (n + p + 1) 0 h.2 (n + p)).map fun x => (h.1, x)
  let paced := if w.pacer.isSome then (w.srcs.filter (·.space = 3)).length else 0
  let unit : TUnit := ⟨u, parts.map fun x => (x.1, x.2.1), [], paced, pages⟩
  let d := d.updChan ch fun c => { c with work := some { w with units := w.units ++ [unit], next := u + 1 } }
  let d : Dev := parts.foldl (fun (d : Dev) x => d.sendRead (d.chPort ch) ⟨1, .chnSrc ch u x.1 x.2.1, x.2.2.1, x.2.2.2⟩) d
  match w.pacer with
  | some t =>
    if paced = 0 then d
    else Dev.serveAll { d with cwq := { d.cwq with waiters := d.cwq.waiters ++ [Waiter.mk t none ch n (some u)] } } t none
  | none => d

/-- Begins units while fewer than two are in flight and their transit pages are free (R380, R383). -/
def Dev.beginUnits (d : Dev) (ch : Nat) : Dev :=
  let one := fun (d : Dev) =>
    match (d.chan ch).work with
    | none => d
    | some w =>
      let pages := ((w.srcs ++ w.dsts).filter (·.space ≠ 3)).length
      let room := if w.overlaps then 1 else 2
      if w.stop.isSome || decide (w.total ≤ w.next) || decide (room ≤ w.units.length) || decide (d.freePages (chCluster ch) < pages) then d
      else d.beginUnit ch w pages
  (one (one d)).syncState ch

/-- The channels of a cluster in the order in which its engines serve them: round robin by local number, from the one after the last served
(R381). Items of internal channels go ahead of them: their blocks are computed in the command that delivers them. -/
def Dev.serveOrder (d : Dev) (c : Nat) : List Nat := (List.range 16).map fun i => c * 16 + ((d.cluster c).served + 1 + i) % 16

/-- Units of a cluster's channels that waited for transit pages may begin (R381, R383). -/
def Dev.kickCluster (d : Dev) (c : Nat) : Dev :=
  ((d.serveOrder c).filter fun ch => (d.chan ch).work.isSome).foldl (fun (d : Dev) ch => d.beginUnits ch) d

/-- The instruction with its units ends. -/
def Dev.workDone (d : Dev) (ch : Nat) : Dev :=
  let d := d.updChan ch fun c => { c with work := none }
  (d.nextIns ch).kickCluster (chCluster ch)

/-- What follows a unit or a read-back, in order: HALF, FULL, completion (R402). -/
def Dev.runAfter (d : Dev) (ch : Nat) : Dev :=
  match (d.chan ch).work with
  | none => d
  | some w =>
    if w.backs ≠ 0 then d
    else
      let d := d.updChan ch fun c => { c with work := some { w with after := [] } }
      w.after.foldl (fun (d : Dev) a => match a with
        | .half => d.chEvent ch Reg.CHN_EVENTS_HALF true
        | .full => d.chEvent ch Reg.CHN_EVENTS_FULL true
        | .complete => d.workDone ch) d

/-- Stops a channel for an ending that lets units in flight complete up to a count (R423, R426): with none left it ends now. -/
def Dev.stopWork (d : Dev) (ch status detail : Nat) (keep : TUnit → Bool) : Dev :=
  match (d.chan ch).work with
  | none => d.endChan ch status detail
  | some w =>
    if w.stop.isSome then d
    else
      let left := w.units.takeWhile keep
      if left.isEmpty then (d.endChan ch status detail).kickCluster (chCluster ch)
      else (d.updChan ch fun c => { c with work := some { w with units := left, stop := some (status, detail) } }).syncState ch

/-- An abort or the watchdog (R422 to R424): units that are not stalled complete. -/
def Dev.abortChan (d : Dev) (ch status detail : Nat) : Dev :=
  if d.chState ch = 0 ∨ (d.chan ch).ending.isSome then d else d.stopWork ch status detail TUnit.ready

/-- A fault of unit `u`: the units before it complete. -/
def Dev.unitFails (d : Dev) (ch u status detail : Nat) : Dev := d.stopWork ch status detail fun x => decide (x.n < u)

/-- Source bytes of a unit: host data as it arrived, HBM and staging as they are now; host paths read zero outside the host area. -/
def Dev.srcBytes (d : Dev) (rd : Nat → Byte) (ch : Nat) (w : Work) (u : TUnit) (j : Nat) (s : End) : List Byte :=
  let p := if w.pi = 1 then d.chPiLen ch else 0
  let n := w.bytes u.n + p
  let a := (s.addr + u.n * (4096 + p)) % 2 ^ 64
  match s.space with
  | 0 => ((u.data.filter (·.1 = j)).mergeSort fun x y => decide (x.2.1 ≤ y.2.1)).flatMap fun x => x.2.2
  | 1 => d.hostBytes rd a n
  | _ => d.stageRead ch a n

/-- A CHECK of one block (R404, R405): the first failing status. -/
def Dev.piCheck (d : Dev) (ch refs : Nat) (data pi : List Byte) : Option Nat :=
  let wide := d.gi Reg.CHN_PI_GUARD64 ch ≠ 0
  let typ := max 1 (d.gi Reg.CHN_PI_TYPE ch)
  let b := blockOfBytes data
  let guard := if wide then beNat (pi.take 8) else beNat (pi.take 2)
  let app := beNat ((pi.drop (if wide then 8 else 2)).take 2)
  let ref := if wide then beNat ((pi.drop 10).take 6) else beNat ((pi.drop 4).take 4)
  let top := if wide then 2 ^ 48 else 2 ^ 32
  let good := if wide then guard64 b else guard16 b
  if app = 0xFFFF ∧ (typ ≠ 3 ∨ ref = top - 1) then none
  else if guard ≠ good then some 0x08
  else if app ≠ d.gi Reg.CHN_PI_APP_TAG ch then some 0x09
  else if typ ≠ 3 ∧ ref ≠ refs % top then some 0x0A
  else none

/-- PI that INSERT generates for one block (R404). -/
def Dev.piMake (d : Dev) (ch refs : Nat) (data : List Byte) : List Byte :=
  let wide := d.gi Reg.CHN_PI_GUARD64 ch ≠ 0
  let typ := max 1 (d.gi Reg.CHN_PI_TYPE ch)
  let b := blockOfBytes data
  let be := fun n v => (leBytes n v).reverse
  let app := d.gi Reg.CHN_PI_APP_TAG ch
  if wide then be 8 (guard64 b) ++ be 2 app ++ be 6 (if typ = 3 then 2 ^ 48 - 1 else refs)
  else be 2 (guard16 b) ++ be 2 app ++ be 4 (if typ = 3 then 2 ^ 32 - 1 else refs)

/-- Symbols of bytes: bytes, or little-endian halfwords (R406). -/
def symsOf (gf16 : Bool) : List Byte → List Nat
  | a :: b :: r => if gf16 then (a.toNat + 256 * b.toNat) :: symsOf gf16 r else a.toNat :: b.toNat :: symsOf gf16 r
  | [a] => [a.toNat]
  | [] => []

/-- One output stream of a MAC: the sum of its sources, each multiplied by its coefficient (R406). -/
def macOut (gf16 : Bool) (row : List Nat) (srcs : List (List Byte)) (n : Nat) : List Byte :=
  let w := if gf16 then 16 else 8
  let cols := srcs.map (symsOf gf16)
  (List.range (if gf16 then n / 2 else n)).flatMap fun x =>
    leBytes (w / 8) ((row.zip cols).foldl (fun acc cs => acc ^^^ gfMul w cs.1 (cs.2.getD x 0)) 0)

/-- The unit in service that a line offset of a MAC is assigned to: in turn, by ascending unit number (R343). -/
def Dev.offsetUnit (d : Dev) (c i : Nat) : Option Nat := let us := d.unitsIn c; us[i % us.length]?

/-- One output stream of a transfer unit: every line offset that a unit is assigned, computed over the source lines of that offset (R343). -/
def Dev.macLines (d : Dev) (c : Nat) (gf16 : Bool) (row : List Nat) (srcs : List (List Byte)) (n : Nat) : List Byte :=
  (List.range (ceilDiv n 64)).flatMap fun i => match d.offsetUnit c i with
    | some _ => macOut gf16 row (srcs.map fun b => (b.drop (64 * i)).take 64) (min 64 (n - 64 * i))
    | none => []

/-- Writes a unit's bytes to one destination. -/
def Dev.dstWrite (d : Dev) (ch : Nat) (e : End) (a : Nat) (bytes : List Byte) : Dev :=
  match e.space with
  | 0 => d.payloadWrite (d.chPort ch) a bytes
  | 1 => d.hbmWrite a bytes
  | _ =>
    let old := d.stageRead ch a bytes.length
    d.stageWrite ch a (if e.xorInto then List.zipWith (· ^^^ ·) old bytes else bytes)

/-- After a unit is visible: counts, events and read-backs (R400 to R402, R410), and the next units. -/
def Dev.unitVisible (d : Dev) (ch : Nat) (u : TUnit) (outLen : Nat) : Dev :=
  match (d.chan ch).work with
  | none => d
  | some w =>
    let n := w.bytes u.n
    let d := if w.dsts.any (·.space = 3) then
        Dev.serveAll (d.pi Reg.CHN_LEVEL_VALUE ch (min (d.gi Reg.CHN_LEVEL_VALUE ch + n) 0xFFFFFFFF)) ch none
      else d
    let w := (d.chan ch).work.getD w
    let done := w.done + 1
    let bytes := min w.len (4096 * done)
    let half := w.irqHalf && !w.halfSeen && decide (ceilDiv w.len 2 ≤ bytes)
    let last := decide (done = w.total)
    let evs := (if half then [AfterBack.half] else []) ++ (if last && w.irqFull then [AfterBack.full] else []) ++
      (if last then [AfterBack.complete] else [])
    let hosts := w.dsts.filter (·.space = 0)
    let back := if half || (last && w.irqFull) then hosts else if last then hosts.filter (·.flush) else []
    let w := { w with units := w.units.drop 1, done := done, halfSeen := w.halfSeen || half, after := w.after ++ evs,
                      backs := w.backs + back.length }
    let d := d.updChan ch fun c => { c with work := some w }
    let d : Dev := back.foldl (fun (d : Dev) t =>
      d.sendRead (d.chPort ch) ⟨1, .chnBack ch, (t.addr + u.n * outLen + outLen - (4096 - n) - 1) % 2 ^ 64 / 4 * 4, 4⟩) d
    match w.stop with
    | some (st, det) => if w.units.isEmpty then (d.endChan ch st det).kickCluster (chCluster ch) else d.syncState ch
    | none => ((d.runAfter ch).beginUnits ch).kickCluster (chCluster ch)

/-- Whether a unit meets an uncorrectable line of the host area, in a source or in a destination that it writes in part (R170, R171). -/
def Dev.unitBad (d : Dev) (ch : Nat) (w : Work) (u : TUnit) : Bool :=
  let p := d.chPiLen ch
  let src := 4096 + if w.pi = 1 then p else 0
  let dst := 4096 + if w.pi = 2 then p else 0
  let n := w.bytes u.n
  (w.srcs.any fun s => s.space == 1 && d.badRead ((s.addr + u.n * src) % 2 ^ 64) (n + (src - 4096))) ||
  (w.dsts.any fun t => t.space == 1 &&
    d.writeBad ((t.addr + u.n * dst) % 2 ^ 64) (n + (dst - 4096)))

/-- Whether the oldest unit of a channel can be served: its sources are there, and its writes can go out. -/
def Dev.canServe (d : Dev) (ch : Nat) : Bool :=
  match (d.chan ch).work with
  | none => false
  | some w => match w.units with
    | [] => false
    | u :: _ => u.ready && (!w.dsts.any (·.space = 0) || d.canSend (d.chPort ch) 1)

/-- The channel of a cluster whose unit its engines serve next (R381). -/
def Dev.turn (d : Dev) (c : Nat) : Option Nat := (d.serveOrder c).find? d.canServe

/-- TRANSFER_UNIT_DONE (R343, R380, R381): the oldest unit of the channel whose turn it is is computed and written, and becomes visible. -/
def Dev.transferUnitDone (d : Dev) (rd : Nat → Byte) (ch : Nat) : Dev :=
  match (d.chan ch).work with
  | none => d
  | some w =>
    match w.units with
    | [] => d
    | u :: _ =>
      let c := chCluster ch
      if d.turn c != some ch then d
      else
      let d := d.updCluster c fun x => { x with served := ch % 16 }
      if d.unitBad ch w u then (d.unitFails ch u.n 0x07 u.n).kickCluster (chCluster ch)
      else
        let n := w.bytes u.n
        let p := d.chPiLen ch
        let ins := w.srcs.zipIdx.map fun s => (s.1, d.srcBytes rd ch w u s.2 s.1)
        if w.mac then
          let srcs := ins.map fun s => swapBytes s.1.swap (s.2.take n)
          let d : Dev := (w.dsts.zip w.rows).foldl (fun (d : Dev) t =>
            d.dstWrite ch t.1 ((t.1.addr + 4096 * u.n) % 2 ^ 64) (swapBytes t.1.swap (d.macLines c w.gf16 t.2 srcs n))) d
          d.unitVisible ch u 4096
        else
          match ins, w.dsts with
          | (s, bs) :: _, t :: _ =>
            let refs := (d.chan ch).refs
            let bad := if w.pi = 1 then d.piCheck ch refs (bs.take 4096) (bs.drop 4096) else none
            match bad with
            | some st => (d.unitFails ch u.n st u.n).kickCluster (chCluster ch)
            | none =>
              let out := swapBytes s.swap (bs.take n)
              let full := if w.pi = 2 then out ++ d.piMake ch refs out else out
              let step := if w.pi = 2 then 4096 + p else 4096
              let d := if w.pi = 0 then d else d.updChan ch fun c => { c with refs := refs + 1 }
              (d.dstWrite ch t ((t.addr + step * u.n) % 2 ^ 64) full).unitVisible ch u step
          | _, _ => d

/-! ### Instructions -/

/-- The index of a loop level; 0 where the instruction names none. -/
def Dev.loopAt (d : Dev) (ch lv : Nat) : Nat := if lv = 0 then 0 else d.gi (loopIndex lv) ch

/-- A signed 32-bit stride. -/
def signed32 (x : Nat) : Int := if x < 2 ^ 31 then x else (x : Int) - 2 ^ 32

/-- An address with its loop stride, modulo 2^64 (R396). -/
def strided (a idx stride : Nat) : Nat := (((a : Int) + (idx : Int) * signed32 stride) % (2 ^ 64 : Int)).toNat

/-- The channel of the same region that a 6-bit number names (R411, R415). -/
def localChan (ch n : Nat) : Nat := ch / 64 * 64 + n % 64

/-- Whether a STAGING access goes beyond the window (R389). -/
def Dev.stageBad (d : Dev) (ch : Nat) (space a len : Nat) : Bool := space == 3 && decide ((d.stageWin ch).2 < a + len ∨ (d.stageWin ch).2 = 0)

/-- Starts a MOVE or MAC. -/
def Dev.startWork (d : Dev) (ch : Nat) (w : Work) : Dev := (d.updChan ch fun c => { c with work := some w }).beginUnits ch

/-- MOVE: access checks, then its units (R388, R389, R396, R412). -/
def Dev.runMove (d : Dev) (ch : Nat) (paced : Bool) (level flush : Nat) (irqFull irqHalf : Bool)
    (pi swap dsp ssp pacer len src dst ss ds : Nat) : Dev :=
  let idx := d.loopAt ch level
  let sa := strided src idx ss
  let da := strided dst idx ds
  let target := localChan ch pacer
  if level ≠ 0 ∧ !d.loopOn ch level then d.endChan ch 0x03 1
  else if ssp = 2 ∨ dsp = 2 then d.endChan ch 0x04 2
  else if paced && d.chInternal target then d.endChan ch 0x04 3
  else if d.stageBad ch ssp sa len then d.endChan ch 0x05 8
  else if d.stageBad ch dsp da len then d.endChan ch 0x05 16
  else d.startWork ch
    { mac := false, gf16 := false, len := len, pi := pi, pacer := if paced && ssp == 3 then some target else none, irqHalf := irqHalf,
      irqFull := irqFull, srcs := [⟨ssp, sa, swap, false, false⟩], dsts := [⟨dsp, da, 0, flush ≠ 2, false⟩], rows := [], units := [],
      next := 0, done := 0, backs := 0, after := [], halfSeen := false, stop := none }

/-- MAC: its table is checked, then its units run (R347, R384, R395, R406 to R409). -/
def Dev.runMac (d : Dev) (ch : Nat) (tbl : List Byte) (paced : Bool) (level : Nat) (gf16 irqFull irqHalf : Bool)
    (n pacer k len ss ds : Nat) : Dev :=
  let idx := d.loopAt ch level
  let target := localChan ch pacer
  if level ≠ 0 ∧ !d.loopOn ch level then d.endChan ch 0x03 1
  else if tbl.length ≠ macTableLen n k gf16 then d.endChan ch 0x06 4
  else match readMacTable n k gf16 tbl with
    | .error o => d.endChan ch 0x03 (0x8000 + o)
    | .ok (srcs, dsts, rows) =>
      let s := srcs.map fun x => End.mk x.space (strided x.addr idx ss) x.swap false false
      let t := dsts.map fun x => End.mk x.space (strided x.addr idx ds) x.swap (x.flush ≠ 2) x.xorInto
      let all := (s ++ t).zipIdx
      match all.find? fun x => x.1.space == 2, all.find? fun x => d.stageBad ch x.1.space x.1.addr len with
      | some x, _ => d.endChan ch 0x04 (0x8000 + 16 * x.2 + 8)
      | none, some x => if paced && d.chInternal target then d.endChan ch 0x04 3 else d.endChan ch 0x05 (0x8000 + 16 * x.2)
      | none, none =>
        if paced && d.chInternal target then d.endChan ch 0x04 3
        else if 256 < (all.filter (·.1.space ≠ 3)).length then d.endChan ch 0x05 4
        else if (d.unitsIn (chCluster ch)).isEmpty then d.endChan ch 0x0C 0
        else d.startWork ch
          { mac := true, gf16 := gf16, len := len, pi := 0, pacer := if paced then some target else none, irqHalf := irqHalf,
            irqFull := irqFull, srcs := s, dsts := t, rows := rows, units := [], next := 0, done := 0, backs := 0, after := [],
            halfSeen := false, stop := none }

/-- LOOP BEGIN (R413, R414). -/
def Dev.runLoopBegin (d : Dev) (ch v count skip : Nat) : Dev :=
  let pc := d.gi Reg.CHN_PC_PC ch
  if d.loopOn ch v || (List.range (v - 1)).any (fun i => !d.loopOn ch (i + 1)) then d.endChan ch 0x03 2
  else if count = 0 then d.gotoPc ch (pc + 32 * (skip + 1))
  else
    let d := ((d.pi (loopCount v) ch count).pi (loopIndex v) ch 0).updChan ch fun c => { c with starts := c.starts.set (v - 1) (pc + 32) }
    (d.pi Reg.CHN_STATUS_LOOPS ch (d.gi Reg.CHN_STATUS_LOOPS ch ||| 2 ^ (v - 1))).gotoPc ch (pc + 32)

/-- LOOP NEXT (R413, R414). -/
def Dev.runLoopNext (d : Dev) (ch v : Nat) : Dev :=
  if !d.loopOn ch v || (List.range (4 - v)).any (fun i => d.loopOn ch (v + 1 + i)) then d.endChan ch 0x03 2
  else
    let i := d.gi (loopIndex v) ch + 1
    let d := d.pi (loopIndex v) ch i
    if i < d.gi (loopCount v) ch then d.gotoPc ch ((d.chan ch).starts.getD (v - 1) 0)
    else (d.pi Reg.CHN_STATUS_LOOPS ch (d.gi Reg.CHN_STATUS_LOOPS ch - 2 ^ (v - 1))).nextIns ch

/-- WAIT (R416, R417): kind 0 SEM, 1 LEVEL, 2 TIMER, 3 EVENT. -/
def Dev.runWait (d : Dev) (ch kind target value timeout : Nat) : Dev :=
  let t := localChan ch target
  if kind = 0 ∧ d.chInternal t then d.endChan ch 0x04 2
  else
    let d := (d.updChan ch fun c => { c with wait := some ⟨kind, target, value, timeout⟩ }).setChState ch 2
    let add := fun (sem : Option Nat) =>
      Dev.serveAll { d with cwq := { d.cwq with waiters := d.cwq.waiters ++ [Waiter.mk t sem ch value none] } } t sem
    match kind with
    | 0 => add (some (target / 64))
    | 1 => add none
    | 2 => if value = 0 then d.waitEnd ch else d
    | _ => d

/-- SIGNAL (R415, R416, R418): kind 0 SEM, 1 IRQ, 2 COMPLETE. -/
def Dev.runSignal (d : Dev) (ch kind target value user : Nat) : Dev :=
  let t := localChan ch target
  match kind with
  | 0 =>
    if d.chInternal t then d.endChan ch 0x04 2
    else
      let f := semReg (target / 64)
      ((d.pi f t (min (d.gi f t + value) 0xFFFFFFFF)).serveAll t (some (target / 64))).nextIns ch
  | 1 => (d.chEvent ch Reg.CHN_EVENTS_USER true).nextIns ch
  | _ =>
    if d.gi Reg.CHN_STATUS_COMPLETED_EARLY ch ≠ 0 then d.endChan ch 0x03 1
    else
      let d := (d.pi Reg.CHN_STATUS_COMPLETED_EARLY ch 1).pi Reg.CHN_USER_VALUE ch user
      let d := match (d.chan ch).run with
        | some r => d.cqPost ⟨d.gi Reg.CWQ_SQ_CTRL_CQ r.sq, r.sq, r.cid, user, 0, ch, 0, 0, false, true, r.irqNow, none⟩
        | none => d
      d.nextIns ch

/-- END (R420): the program ends with OK and its user value. -/
def Dev.runEnd (d : Dev) (ch user : Nat) : Dev :=
  let early := d.gi Reg.CHN_STATUS_COMPLETED_EARLY ch ≠ 0
  let d := (d.pi Reg.CHN_USER_VALUE ch user).updChan ch fun c => { c with user := if early then c.user else user }
  d.endChan ch 0x00 0

/-- Whether a channel can run the instruction that its fetch has delivered (R392): running, nothing under way, powered, out of reset. -/
def Dev.canRun (d : Dev) (ch : Nat) : Bool :=
  let c := d.chan ch
  decide (ch < 512) && d.chState ch == 1 && !d.chInternal ch && c.work.isNone && c.wait.isNone && c.ending.isNone &&
  d.powered (regionOf (chCluster ch)) && !d.fab.inReset.contains (chCluster ch) &&
  (d.gi Reg.CHN_CTRL_PROG_HBM ch != 0 || (d.findTag (.chnFetch ch)).isSome)

/-- An instruction arrives at a channel and starts: it is checked first (R395), and `tbl` is the MAC table of a MAC. -/
def Dev.runIns (d : Dev) (ch : Nat) (w : BitVec 256) (tbl : List Byte) : Dev :=
  if !d.canRun ch then d
  else
    let d := (d.freeUser (.chnFetch ch)).updChan ch fun c => { c with opcode := insByte w 0 }
    let d := d.wakeCluster (chCluster ch)
    match decodeIns w with
    | .error o => d.endChan ch 0x03 o
    | .ok i =>
      match i with
      | .move paced level flush full half pi swap dsp ssp pacer len src dst ss ds =>
        d.runMove ch paced level flush full half pi swap dsp ssp pacer len src dst ss ds
      | .mac paced level gf16 full half n pacer k len _ ss ds => d.runMac ch tbl paced level gf16 full half n pacer k len ss ds
      | .loopBegin v count skip => d.runLoopBegin ch v count skip
      | .loopNext v => d.runLoopNext ch v
      | .wait kind target value timeout => d.runWait ch kind target value timeout
      | .signal kind target value user => d.runSignal ch kind target value user
      | .nop => d.nextIns ch
      | .end_ user => d.runEnd ch user

/-- Whether an instruction word belongs to a row: its opcode, and for some rows the low bits of byte 1. Words of no opcode of table
9-2 belong to every row. -/
def isRow (w : BitVec 256) (op : Nat) (b1 : Nat → Bool) : Bool :=
  (insByte w 0 == op && b1 (insByte w 1)) || insByte w 0 == 0 || decide (7 < insByte w 0)

/-- The instruction that a channel's fetch delivers: the word of host memory, or that at the PC in HBM, where a channel reads zero outside the
host area (R165, R390). -/
def Dev.insWord (d : Dev) (rd : Nat → Byte) (ch : Nat) (w : BitVec 256) : BitVec 256 :=
  if d.gi Reg.CHN_CTRL_PROG_HBM ch = 0 then w else BitVec.ofNat 256 (leAt (d.hostBytes rd (d.gi Reg.CHN_PC_PC ch) 32) 0 32)

/-- Where the table of a MAC lies, and its length. -/
def tableAt (w : BitVec 256) : Nat × Nat :=
  match decodeIns w with
  | .ok (.mac _ _ gf16 _ _ n _ k _ table _ _) => (table, macTableLen n k gf16)
  | _ => (0, 0)

/-- The table of a MAC as its fetch delivers it (R390, R408). -/
def Dev.macTable (d : Dev) (rd : Nat → Byte) (ch : Nat) (w : BitVec 256) (tbl : List Byte) : List Byte :=
  if d.gi Reg.CHN_CTRL_PROG_HBM ch = 0 then tbl else d.hostBytes rd (tableAt w).1 (tableAt w).2

/-- Whether a fetch from HBM, of an instruction or of its table, meets an uncorrectable line (table 4-4). -/
def Dev.fetchBad (d : Dev) (ch : Nat) (w : BitVec 256) : Bool :=
  d.gi Reg.CHN_CTRL_PROG_HBM ch != 0 &&
  (d.badRead (d.gi Reg.CHN_PC_PC ch) 32 || ((tableAt w).2 != 0 && d.badRead (tableAt w).1 (tableAt w).2))

/-- A row's instruction: a word of another row is none of its business. A fetch that meets an uncorrectable line ends the program with the data
error status (log entry 132). -/
def Dev.rowIns (d : Dev) (rd : Nat → Byte) (ch : Nat) (w : BitVec 256) (tbl : List Byte) (op : Nat) (b1 : Nat → Bool) : Dev :=
  let x := d.insWord rd ch w
  if d.canRun ch && d.fetchBad ch x then d.endChan ch 0x07 0
  else if isRow x op b1 then d.runIns ch x (d.macTable rd ch x tbl) else d

/-- MOVE (R398). -/
def Dev.chMove (d : Dev) (rd : Nat → Byte) (ch : Nat) (w : BitVec 256) : Dev := d.rowIns rd ch w [] 0x01 fun _ => true
/-- MAC (R406); `tbl` is its table as fetched from host memory (R408). -/
def Dev.chMac (d : Dev) (rd : Nat → Byte) (ch : Nat) (w : BitVec 256) (tbl : List Byte) : Dev := d.rowIns rd ch w tbl 0x02 fun _ => true
/-- LOOP_BEGIN (R413). -/
def Dev.chLoopBegin (d : Dev) (rd : Nat → Byte) (ch : Nat) (w : BitVec 256) : Dev := d.rowIns rd ch w [] 0x03 fun b => b % 2 == 0
/-- LOOP_NEXT (R413). -/
def Dev.chLoopNext (d : Dev) (rd : Nat → Byte) (ch : Nat) (w : BitVec 256) : Dev := d.rowIns rd ch w [] 0x03 fun b => b % 2 == 1
/-- WAIT_SEM (R417). -/
def Dev.chWaitSem (d : Dev) (rd : Nat → Byte) (ch : Nat) (w : BitVec 256) : Dev := d.rowIns rd ch w [] 0x04 fun b => b % 4 == 0
/-- WAIT_LEVEL (R417). -/
def Dev.chWaitLevel (d : Dev) (rd : Nat → Byte) (ch : Nat) (w : BitVec 256) : Dev := d.rowIns rd ch w [] 0x04 fun b => b % 4 == 1
/-- WAIT_TIMER (R417). -/
def Dev.chWaitTimer (d : Dev) (rd : Nat → Byte) (ch : Nat) (w : BitVec 256) : Dev := d.rowIns rd ch w [] 0x04 fun b => b % 4 == 2
/-- WAIT_EVENT (R417). -/
def Dev.chWaitEvent (d : Dev) (rd : Nat → Byte) (ch : Nat) (w : BitVec 256) : Dev := d.rowIns rd ch w [] 0x04 fun b => b % 4 == 3
/-- SIGNAL_SEM (R415). -/
def Dev.chSignalSem (d : Dev) (rd : Nat → Byte) (ch : Nat) (w : BitVec 256) : Dev := d.rowIns rd ch w [] 0x05 fun b => b % 4 == 0
/-- SIGNAL_IRQ (R418). -/
def Dev.chSignalIrq (d : Dev) (rd : Nat → Byte) (ch : Nat) (w : BitVec 256) : Dev := d.rowIns rd ch w [] 0x05 fun b => b % 4 == 1
/-- SIGNAL_COMPLETE (R418); a word of the reserved kind 3 comes here. -/
def Dev.chSignalComplete (d : Dev) (rd : Nat → Byte) (ch : Nat) (w : BitVec 256) : Dev := d.rowIns rd ch w [] 0x05 fun b => decide (2 ≤ b % 4)
/-- NOP (R420). -/
def Dev.chNop (d : Dev) (rd : Nat → Byte) (ch : Nat) (w : BitVec 256) : Dev := d.rowIns rd ch w [] 0x06 fun _ => true
/-- END (R420). -/
def Dev.chEnd (d : Dev) (rd : Nat → Byte) (ch : Nat) (w : BitVec 256) : Dev := d.rowIns rd ch w [] 0x07 fun _ => true

/-! ### Timers and register commands -/

/-- WAIT_TIMER_EXPIRY: the time of a WAIT TIMER has passed. -/
def Dev.waitTimerExpiry (d : Dev) (ch : Nat) : Dev :=
  match (d.chan ch).wait with
  | some w => if w.kind = 2 then d.waitEnd ch else d
  | none => d

/-- WAIT_TIMEOUT: the timeout of a WAIT expires first (R417), which wakes the cluster (R368); a WAIT with timeout 0 has none. -/
def Dev.waitTimeout (d : Dev) (ch : Nat) : Dev :=
  match (d.chan ch).wait with
  | some w => if w.timeout = 0 then d else (d.wakeCluster (chCluster ch)).endChan ch 0x0B 0
  | none => d

/-- CHANNEL_WATCHDOG (R422): detail is the state at expiry. -/
def Dev.channelWatchdog (d : Dev) (ch : Nat) : Dev := if d.chInternal ch then d else d.abortChan ch 0x02 (d.chState ch)

/-- A write of a channel's command bits (R431, R432): global, and refused as a violation while the channel is internal. -/
def Dev.chnCmd (d : Dev) (req : Requester) (ch off : Nat) (differs : Bool) (act : Dev → Dev) : Dev :=
  if 512 ≤ ch then d
  else if !d.reaches req then d.emit .unsupported
  else if d.writesGlobal req && !d.chInternal ch then act d
  else if differs then d.violation req (0x80000 + 0x100 * ch + off) false
  else d

/-- CHN_ABORT (R423, R424). -/
def Dev.chnAbort (d : Dev) (req : Requester) (ch : Nat) : Dev := d.chnCmd req ch 0 true fun d => d.abortChan ch 0x01 0

/-- Makes an idle channel run from its program address, with no loop active (R371, R391, R404, R414). -/
def Dev.chanStart (d : Dev) (ch : Nat) (run : Option ChRun) : Dev :=
  let d := d.updChan ch fun _ => { Chan.idle with run := run, refs := d.gi Reg.CHN_PI_REF_REF ch }
  let d := ((d.pi Reg.CHN_STATUS_COMPLETED_EARLY ch 0).pi Reg.CHN_STATUS_LOOPS ch 0).pi Reg.CHN_STATUS_INTERNAL ch 0
  let d := (d.setChState ch 1).wakeRegion (regionOf (chCluster ch)) false
  let d := d.wakeCluster (chCluster ch)
  d.gotoPc ch (d.gi Reg.CHN_PROG_ADDR_ADDR ch * 32)

/-- CHN_START (R430). -/
def Dev.chnStart (d : Dev) (req : Requester) (ch : Nat) : Dev :=
  if 512 ≤ ch then d
  else if !d.reaches req then d.emit .unsupported
  else if !d.writesGlobal req then d.violation req (0x80000 + 0x100 * ch) false
  else if d.chInternal ch || d.gi Reg.CHN_CTRL_DIRECT ch == 0 || d.chState ch != 0 then d.pi Reg.CHN_STATUS_START_REFUSED ch 1
  else d.chanStart ch none

/-- CHN_CLR_LEVEL (R410). -/
def Dev.chnClrLevel (d : Dev) (req : Requester) (ch : Nat) : Dev := d.chnCmd req ch 0 true fun d => d.pi Reg.CHN_LEVEL_VALUE ch 0

/-- CHN_SEM_WRITE: the semaphore takes the value, and waits on it are tested again (table 9-14). -/
def Dev.chnSemWrite (d : Dev) (req : Requester) (ch sem v : Nat) : Dev :=
  d.chnCmd req ch (0x68 + 4 * (sem % 4)) (d.gi (semReg (sem % 4)) ch != v) fun d => (d.pi (semReg (sem % 4)) ch v).serveAll ch (some (sem % 4))

/-- MACs of clusters that no longer have a unit in service end with NO_UNIT: no unit computes what is left of them (R343, R347). -/
def Dev.noUnitCheck (d : Dev) : Dev :=
  (d.cwq.chans.filter fun x => (d.unitsIn (chCluster x.1)).isEmpty && (match x.2.work with | some w => w.mac | none => false)).foldl
    (fun (d : Dev) x => if (d.chan x.1).ending.isSome then d else d.stopWork x.1 0x0C 0 fun _ => false) d

end Sys2Proof.Machine
end

