-- ==== Sys2Proof/Machine/CwqCmd.lean ====
section
/-!
DEFINITION. Meanings of the codec work queue rows (chapter 10): doorbells, entry fetch, arbitration and start, abort, enabling and
disabling queues, and the moderation timer; and what port events do to queues (table 10-7).
-/
namespace Sys2Proof.Machine

/-- A write to a queue's registers (R436): from its owner or the management core; else a silent violation, counted where the value written
differs from the value read (R19). -/
def Dev.queueCmd (d : Dev) (req : Requester) (cq : Bool) (q addr : Nat) (differs : Bool) (act : Dev → Dev) : Dev :=
  let ok := match req with
    | .mgmt => true
    | .portA => !d.queueOwnerB cq q
    | .portB => d.queueOwnerB cq q
  if (if cq then 256 else 1024) ≤ q then d
  else if !d.reaches req then d.emit .unsupported
  else if ok then act d
  else if differs then d.violation req addr false
  else d

/-! ### Fetch -/

/-- Entries of an SQ asked for and not yet arrived. -/
def Dev.sqInflight (d : Dev) (q : Nat) : Nat :=
  let b := d.queueOwnerB false q
  ((d.port b).tags.filter fun t => t.user == .sqFetch q && !t.quarantined).length +
    ((d.port b).waiting.filter fun r => r.user == .sqFetch q).length

/-- Asks for the next entry of a running SQ, while at most 16 are fetched and not started (R448). -/
def Dev.fetchOne (d : Dev) (q : Nat) : Dev :=
  let s := d.sq q
  if d.sqState q ≠ 1 ∨ s.fetchAt = d.gi Reg.CWQ_SQ_TAIL_INDEX q ∨ 16 ≤ (s.fetched.filter (!·.removed)).length + d.sqInflight q then d
  else
    let a := d.gi Reg.CWQ_SQ_BASE_ADDR q * 4096 + 64 * posOf s.fetchAt
    (d.updSq q fun s => { s with fetchAt := ringNext (d.sqSize q) s.fetchAt }).sendRead (d.queueOwnerB false q) ⟨1, .sqFetch q, a, 64⟩

/-- Asks for every entry that may be fetched now. -/
def Dev.fetchMore (d : Dev) (q : Nat) : Dev := (List.range 16).foldl (fun (d : Dev) _ => d.fetchOne q) d

/-- SQ_DOORBELL (R440): an index within range becomes the tail; any other is a silent violation. -/
def Dev.sqDoorbell (d : Dev) (req : Requester) (q t : Nat) : Dev :=
  let addr := 0x100000 + 4 * q
  d.queueCmd req false q addr (t != 0) fun d =>
    let h := d.gi Reg.CWQ_SQ_HEAD_INDEX q
    let size := d.sqSize q
    let u := ringUsed h t size
    if t < 2 ^ 17 ∧ posOf t < size ∧ ringUsed h (d.gi Reg.CWQ_SQ_TAIL_INDEX q) size ≤ u ∧ u ≤ size then
      (d.pi Reg.CWQ_SQ_TAIL_INDEX q t).fetchMore q
    else if t = 0 then d
    else d.violation req addr false

/-- CQ_DOORBELL (R441): a head within range frees slots, and completions that wait are posted. -/
def Dev.cqDoorbell (d : Dev) (req : Requester) (q h : Nat) : Dev :=
  let addr := 0x101000 + 4 * q
  d.queueCmd req true q addr (h != 0) fun d =>
    let old := d.gi Reg.CWQ_CQ_HEAD_INDEX q
    let size := d.cqSize q
    let u := ringUsed old h size
    if h < 2 ^ 17 ∧ posOf h < size ∧ 0 ≤ u ∧ u ≤ ringUsed old (d.gi Reg.CWQ_CQ_TAIL_INDEX q) size then
      let d := d.pi Reg.CWQ_CQ_HEAD_INDEX q h
      let d := d.pi Reg.CWQ_CQ_STATUS_FULL q (if d.cqFull q then 1 else 0)
      d.cqDrain q ((d.cq q).waiting.length + 1)
    else if h = 0 then d
    else d.violation req addr false

/-! ### Started entries -/

/-- Whether an index lies at or after `h` and before `t`. -/
def ringBetween (h t i size : Nat) : Bool := decide (0 ≤ ringUsed h i size ∧ ringUsed h i size < ringUsed h t size)

/-- CWQ_SQ_ABORT_RES (table 10-17): an outcome of table 10-5 and the abort that it is of. -/
def Dev.abortResult (d : Dev) (q result cid : Nat) : Dev :=
  (d.pi Reg.CWQ_SQ_ABORT_RES_RESULT q result).pi Reg.CWQ_SQ_ABORT_RES_CMD_ID q cid

/-- A held abort lapses when the published head passes its window (R464). -/
def Dev.heldLapse (d : Dev) (q : Nat) : Dev :=
  match (d.sq q).held with
  | none => d
  | some (cid, stop) =>
    if ringUsed (d.gi Reg.CWQ_SQ_HEAD_INDEX q) stop (d.sqSize q) ≤ 0 then
      (d.updSq q fun s => { s with held := none }).abortResult q 6 cid
    else d

/-- The published head passes removed entries that have become the oldest (`fuel` at most). -/
def Dev.skipRemoved (d : Dev) (q : Nat) : Nat → Dev
  | 0 => d
  | n + 1 =>
    match (d.sq q).fetched with
    | e :: rest =>
      if e.removed then
        let d := (d.updSq q fun s => { s with fetched := rest, dirty := true }).pi Reg.CWQ_SQ_HEAD_INDEX q (ringNext (d.sqSize q) e.idx)
        Dev.skipRemoved (d.heldLapse q) q n
      else d
    | [] => d

/-- An entry counts as started (R452): the published head moves past it. -/
def Dev.markStarted (d : Dev) (q : Nat) (e : SqEntry) (cid ch : Nat) : Dev :=
  let d := d.pi Reg.CWQ_SQ_HEAD_INDEX q (ringNext (d.sqSize q) e.idx)
  let d := d.updSq q fun s => { s with fetched := s.fetched.filter (·.idx ≠ e.idx), started := s.started ++ [(cid, ch)], dirty := true }
  ((d.pi Reg.CWQ_SQ_STATUS_ACTIVE q (d.sq q).started.length).heldLapse q).skipRemoved q 16

/-- Posts the completion of an entry that never ran. -/
def Dev.postUnrun (d : Dev) (q cid status detail : Nat) (irqNow : Bool) : Dev :=
  d.cqPost ⟨d.gi Reg.CWQ_SQ_CTRL_CQ q, q, cid, 0, 0, 0xFFFF, status, detail, false, false, irqNow, none⟩

/-- An entry removed by an abort (R463, R464): it completes at once, and the published head passes it in ring order. -/
def Dev.removeEntry (d : Dev) (q : Nat) (e : SqEntry) : Dev :=
  let cid := leAt e.bytes 2 2
  let mark := fun (x : SqEntry) => if x.idx = e.idx then { x with removed := true } else x
  let d := d.updSq q fun s => { s with fetched := s.fetched.map mark, started := s.started ++ [(cid, 0xFFFF)] }
  let d := (d.pi Reg.CWQ_SQ_STATUS_ACTIVE q (d.sq q).started.length).skipRemoved q 16
  (d.postUnrun q cid 0x10 0 ((leAt e.bytes 1 1).testBit 3)).fetchMore q

/-- Halts an SQ with a cause of table 10-6 (R466, R468): fetching stops, unstarted entries are discarded, and it drains. -/
def Dev.drainSq (d : Dev) (q : Nat) : Dev :=
  let d := d.forgetReads (d.queueOwnerB false q) fun u => u == .sqFetch q
  let held := (d.sq q).held
  let d := d.updSq q fun s => { s with fetched := [], held := none }
  let d := match held with | some (cid, _) => d.abortResult q 6 cid | none => d
  let d := (d.pi Reg.CWQ_SQ_CTRL_ENABLE q 0).setSqState q 2
  d.quiesceCheck q

/-- Halts a running SQ and keeps the cause. -/
def Dev.haltSq (d : Dev) (q cause : Nat) : Dev :=
  if d.sqState q ≠ 1 then d else (d.pi Reg.CWQ_SQ_STATUS_ERR q cause).drainSq q

/-- SQ_ENTRY_FETCHED: the oldest read of an SQ answers with the entry's 64 bytes, or fails with a cause: 0 unsupported request,
1 completer abort, 3 poisoned data (R448, R464, table 10-6). -/
def Dev.sqEntryFetched (d : Dev) (q : Nat) (res : Option (List Byte)) (cause : Nat) : Dev :=
  match d.findTag (.sqFetch q) with
  | none => d
  | some (b, t) =>
    let d := d.freeTag b t
    if d.sqState q ≠ 1 then d
    else match res with
      | none => d.haltSq q (0x10 + cause % 4)
      | some bytes =>
        let e : SqEntry := ⟨(d.sq q).arrive, (bytes ++ List.replicate 64 0).take 64, false⟩
        let d := d.updSq q fun s => { s with fetched := s.fetched ++ [e], arrive := ringNext (d.sqSize q) s.arrive }
        match (d.sq q).held with
        | some (cid, stop) =>
          if cid = leAt bytes 2 2 ∧ ringBetween (d.gi Reg.CWQ_SQ_HEAD_INDEX q) stop e.idx (d.sqSize q) then
            let d := (d.updSq q fun s => { s with held := none }).abortResult q 5 cid
            d.removeEntry q e
          else d
        | none => d

/-! ### Arbitration and start (R449, R450) -/

/-- The first failing byte of an entry (R445, table 10-1). -/
def entryError (b : List Byte) : Option Nat :=
  let base := leAt b 4 2
  let size := leAt b 6 2
  let zeros := fun (from_ n : Nat) => (List.range n).map fun i => (leAt b (from_ + i) 1 != 0, from_ + i)
  let wd := leAt b 0x18 4
  firstFail ([failIf (leAt b 0 1 ≠ 1) 0, failIf (767 < base) 4, failIf (768 < size + base) 6, failIf (leAt b 8 8 % 32 ≠ 0) 8,
    failIf (leAt b 0x10 8 % 64 ≠ 0) 0x10, failIf (600000 < wd) 0x18, failIf (leAt b 0x26 2 ≠ 0) 0x20] ++
    zeros 0x1E 2 ++ zeros 0x28 24)

/-- The cluster that R339 gives a queue's entries, within the region limit (R725); none where they must wait. -/
def Dev.sqCluster (d : Dev) (q : Nat) : Option Nat :=
  match d.arm.active with
  | none => none
  | some a => match (a.routes.find? (·.1 = q)) with
    | none => none
    | some r => match d.routeCluster r.2 with
      | none => none
      | some c =>
        let c := d.limitCluster (BitVec.allOnes 32) c
        if d.powered (regionOf c) || d.regionAllowed (regionOf c) then some c else none

/-- The lowest-numbered idle host channel of a cluster with DIRECT 0 (R449). -/
def Dev.freeHostChan (d : Dev) (c : Nat) : Option Nat :=
  ((List.range 16).map (c * 16 + ·)).find? fun ch => d.chState ch == 0 && !d.chInternal ch && d.gi Reg.CHN_CTRL_DIRECT ch == 0

/-- The oldest unstarted entry of an SQ with the channel it would run on, where it is dispatchable (R449). -/
def Dev.dispatchable (d : Dev) (q : Nat) : Option (SqEntry × Nat) :=
  match (d.sq q).fetched with
  | [] => none
  | e :: _ =>
    if d.sqState q ≠ 1 ∨ ((leAt e.bytes 1 1).testBit 2 ∧ !(d.sq q).started.isEmpty) ∨ !d.canSend (d.queueOwnerB false q) 1 then none
    else match d.sqCluster q with
      | none => none
      | some c => (d.freeHostChan c).map fun ch => (e, ch)

/-- WEIGHT and BURST of an SQ (table 10-14). -/
def Dev.sqWeight (d : Dev) (q : Nat) : Nat := max 1 (d.gi Reg.CWQ_SQ_ARB_WEIGHT q)
/-- BURST of an SQ. -/
def Dev.sqBurst (d : Dev) (q : Nat) : Nat := max 1 (min 128 (d.gi Reg.CWQ_SQ_ARB_BURST q))

/-- The queue that the arbiter serves next, with the state it leaves (R450). A grant takes the queue's BURST as it then is (R451). -/
def Dev.arbitrate (d : Dev) : Option Nat × Dev :=
  let go_on := match d.cwq.grant with
    | some (q, n) => if n ≠ 0 ∧ (d.sq q).credit ≠ 0 ∧ (d.dispatchable q).isSome then some q else none
    | none => none
  match go_on with
  | some q => (some q, d)
  | none =>
    let ptr := match d.cwq.grant with | some (q, _) => (q + 1) % 1024 | none => d.cwq.arbPtr
    let d := { d with cwq := { d.cwq with arbPtr := ptr, grant := none } }
    let e := (d.cwq.sqs.map (·.1)).filter fun q => (d.dispatchable q).isSome
    if e.isEmpty then (none, d)
    else
      let d : Dev := if e.all (fun q => (d.sq q).credit == 0) then
          (d.cwq.sqs.map (·.1)).foldl (fun (d : Dev) q => if d.sqState q = 1 then d.updSq q fun s => { s with credit := d.sqWeight q } else d) d
        else d
      let ready := e.filter fun q => (d.sq q).credit != 0
      let key := fun q => (q + 1024 - ptr) % 1024
      let best := ready.foldl (fun (b : Option Nat) q => match b with
        | none => some q
        | some x => if key q < key x then some q else some x) none
      (best, { d with cwq := { d.cwq with grant := best.map fun q => (q, d.sqBurst q) } })

/-- Loads a channel's registers from an entry (R447) and starts it. -/
def Dev.loadEntry (d : Dev) (q : Nat) (e : SqEntry) (ch : Nat) : Dev :=
  let b := e.bytes
  let fl := leAt b 1 1
  let wd := leAt b 0x18 4
  let d := ((d.pi Reg.CHN_PROG_ADDR_ADDR ch (leAt b 8 8 / 32)).pi Reg.CHN_REC_ADDR_ADDR ch (leAt b 0x10 8 / 32)).pi
    Reg.CHN_STAGE_BASE ch (leAt b 4 2)
  let d := ((d.pi Reg.CHN_STAGE_SIZE ch (leAt b 6 2)).pi Reg.CHN_WDOG_MS ch (if wd = 0 then 10000 else wd)).pi
    Reg.CHN_PI_GUARD64 ch (bit (fl.testBit 5))
  let d := ((d.pi Reg.CHN_PI_TYPE ch (max 1 (fl / 64))).pi Reg.CHN_PI_APP_TAG ch (leAt b 0x1C 2)).pi Reg.CHN_PI_REF_REF ch (leAt b 0x20 6)
  let d := (d.pi Reg.CHN_CTRL_PROG_HBM ch (bit (fl.testBit 0))).pi Reg.CHN_CTRL_REC_HBM ch (bit (fl.testBit 1))
  d.chanStart ch (some ⟨q, e.idx, leAt b 2 2, d.queueOwnerB false q, fl.testBit 3, fl.testBit 4⟩)

/-- ENTRY_START: the arbiter starts one dispatchable entry, or completes an invalid one with ENTRY (R445, R449, R450). -/
def Dev.entryStart (d : Dev) : Dev :=
  let (q?, d) := d.arbitrate
  match q? with
  | none => d
  | some q => match d.dispatchable q with
    | none => d
    | some (e, ch) =>
      let spend := fun (s : SqSt) => { s with credit := s.credit - 1 }
      let d := d.updSq q spend
      let d := { d with cwq := { d.cwq with grant := d.cwq.grant.map fun (g : Nat × Nat) => (g.1, g.2 - 1) } }
      let cid := leAt e.bytes 2 2
      match entryError e.bytes with
      | some o => ((d.markStarted q e cid 0xFFFF).postUnrun q cid 0x12 o ((leAt e.bytes 1 1).testBit 3)).fetchMore q
      | none => ((d.markStarted q e cid ch).loadEntry q e ch).fetchMore q

/-- HEAD_WRITEBACK_TIMER (R453). -/
def Dev.headWritebackTimer (d : Dev) (q : Nat) : Dev := if (d.sq q).dirty then d.writeHead q else d

/-! ### Abort (R463 to R465) -/

/-- SQ_ABORT. -/
def Dev.sqAbort (d : Dev) (req : Requester) (q cid : Nat) : Dev :=
  d.queueCmd req false q (0xA0024 + 0x40 * q) (cid != 0) fun d =>
    let res := fun (d : Dev) (r : Nat) => d.abortResult q r cid
    let run := d.cwq.chans.find? fun x => x.2.ending.isNone && (match x.2.run with | some r => r.sq == q && r.cid == cid | none => false)
    let s := d.sq q
    let t := d.gi Reg.CWQ_SQ_TAIL_INDEX q
    if s.held.isSome then res d 7
    else match run with
      | some x => (res d 1).abortChan x.1 0x01 0
      | none => match s.fetched.find? fun e => !e.removed && leAt e.bytes 2 2 == cid with
        | some e => (res d 2).removeEntry q e
        | none =>
          if s.started.any (·.1 = cid) then res d 4
          else if d.sqState q = 1 ∧ s.arrive ≠ t then
            (res d 3).updSq q fun s => { s with held := some (cid, t) }
          else res d 4

/-! ### Enabling and disabling -/

/-- The first failing check of table 10-6, in order. -/
def Dev.sqEnableError (d : Dev) (q : Nat) : Option Nat :=
  let cq := d.gi Reg.CWQ_SQ_CTRL_CQ q
  let routed := match d.arm.active with | some a => a.routes.any (·.1 = q) | none => false
  if !routed then some 0x01
  else if d.gi Reg.CWQ_CQ_CTRL_ENABLE cq = 0 then some 0x02
  else if d.queueOwnerB true cq != d.queueOwnerB false q then some 0x03
  else if d.sqState q = 2 then some 0x04
  else none

/-- SQ_ENABLE: the checks run; with none failing the SQ is RUNNING from its published head (R467). A running SQ stays as it is. -/
def Dev.sqEnable (d : Dev) (req : Requester) (q : Nat) : Dev :=
  d.queueCmd req false q (0xA0000 + 0x40 * q) (d.gi Reg.CWQ_SQ_CTRL_ENABLE q == 0) fun d =>
    if d.sqState q = 1 then d
    else match d.sqEnableError q with
      | some c => (d.pi Reg.CWQ_SQ_CTRL_ENABLE q 0).pi Reg.CWQ_SQ_STATUS_ERR q c
      | none =>
        let h := d.gi Reg.CWQ_SQ_HEAD_INDEX q
        let d := ((d.pi Reg.CWQ_SQ_CTRL_ENABLE q 1).pi Reg.CWQ_SQ_STATUS_ERR q 0).pi Reg.CWQ_SQ_TAIL_INDEX q h
        let d := d.updSq q fun s => { s with fetched := [], fetchAt := h, arrive := h, credit := d.sqWeight q, held := none }
        d.setSqState q 1

/-- SQ_DISABLE (R466). -/
def Dev.sqDisable (d : Dev) (req : Requester) (q : Nat) : Dev :=
  d.queueCmd req false q (0xA0000 + 0x40 * q) (d.gi Reg.CWQ_SQ_CTRL_ENABLE q != 0) fun d =>
    if d.sqState q = 1 then d.drainSq q else d.pi Reg.CWQ_SQ_CTRL_ENABLE q 0

/-- RESET_IDX (R470): the published head becomes 0 while the SQ is DISABLED or QUIESCED; otherwise a silent violation. -/
def Dev.resetIdx (d : Dev) (req : Requester) (q : Nat) : Dev :=
  d.queueCmd req false q (0xA0000 + 0x40 * q) true fun d =>
    if d.sqState q = 0 ∨ d.sqState q = 3 then d.pi Reg.CWQ_SQ_HEAD_INDEX q 0 else d.violation req (0xA0000 + 0x40 * q) false

/-- CQ_ENABLE: tail and head return to 0, and the queue's held completions are posted first (R471, R473). -/
def Dev.cqEnable (d : Dev) (req : Requester) (q : Nat) : Dev :=
  d.queueCmd req true q (0xB0000 + 0x40 * q) (d.gi Reg.CWQ_CQ_CTRL_ENABLE q == 0) fun d =>
    if d.gi Reg.CWQ_CQ_CTRL_ENABLE q ≠ 0 then d
    else
      let d := ((d.pi Reg.CWQ_CQ_CTRL_ENABLE q 1).pi Reg.CWQ_CQ_TAIL_INDEX q 0).pi Reg.CWQ_CQ_HEAD_INDEX q 0
      let b := d.queueOwnerB true q
      let d := d.pi Reg.CWQ_CQ_STATUS_FULL q 0
      if d.canSend b 1 then d.drainStore b else d

/-- Whether an SQ that names a CQ is RUNNING or DRAINING. -/
def Dev.cqInUse (d : Dev) (q : Nat) : Bool :=
  (List.range 1024).any fun n => (d.sqState n == 1 || d.sqState n == 2) && d.gi Reg.CWQ_SQ_CTRL_CQ n == q

/-- CQ_DISABLE (R471). -/
def Dev.cqDisable (d : Dev) (req : Requester) (q : Nat) : Dev :=
  d.queueCmd req true q (0xB0000 + 0x40 * q) (d.gi Reg.CWQ_CQ_CTRL_ENABLE q != 0) fun d =>
    if d.cqInUse q then d.violation req (0xB0000 + 0x40 * q) false else d.pi Reg.CWQ_CQ_CTRL_ENABLE q 0

/-- CQ_MOD_TIMER (R474): the oldest completion since the last interrupt has waited TIME_US. -/
def Dev.cqModTimer (d : Dev) (q : Nat) : Dev := if (d.cq q).pending = 0 then d else d.cqIrq q

/-! ### Table 10-7 -/

/-- Halts the SQs whose route the active epoch no longer has (cause 0x15). -/
def Dev.haltRoutes (d : Dev) : Dev :=
  (d.cwq.sqs.map (·.1)).foldl (fun (d : Dev) q =>
    if d.sqEnableError q = some 0x01 then d.haltSq q 0x15 else d) d

/-- What follows a change of the regions or of the row writes of a device `old`: everything that waited for writes now visible, a commit's
switch with what it does to links, matches and routes among it (R361, R570, R581, table 10-7). -/
def Dev.rowsSettled (d old : Dev) : Dev := ((d.rowsDue.retrained old).identifyAgain old.epoch).haltRoutes

/-- The SQs that a port owns and that have been used. -/
def Dev.portSqs (d : Dev) (portB : Bool) : List Nat := (d.cwq.sqs.map (·.1)).filter fun q => d.queueOwnerB false q == portB

/-- Bus master enable of a port's PF1 is cleared, or the function is reset: its SQs halt with 0x14 and the programs that it owns end
with BUS_MASTER (R559, table 10-7). -/
def Dev.cwqBusMaster (d : Dev) (portB : Bool) : Dev :=
  let d : Dev := (d.portSqs portB).foldl (fun (d : Dev) q => d.haltSq q 0x14) d
  (d.cwq.chans.filter fun x => x.2.ending.isNone && d.chPort x.1 == portB).foldl (fun (d : Dev) x => d.endChan x.1 0x0D 0) d

/-- Bus master enable is set again, or PF1 returns to D0: held completions are posted, heads are written, records and reads go on. -/
def Dev.cwqResume (d : Dev) (portB : Bool) : Dev :=
  let d := d.pumpReads portB 1
  let d := d.drainStore portB
  let d : Dev := (d.portSqs portB).foldl (fun (d : Dev) q => (if (d.sq q).dirty then d.writeHead q else d).fetchMore q) d
  (d.cwq.chans.filter fun x => d.chPort x.1 == portB && (match x.2.ending with | some e => e.step == 0 | none => false)).foldl
    (fun (d : Dev) x => d.endRecord x.1) d

/-- Counts discarded completions (CWQ_DROPPED). -/
def Dev.dropped (d : Dev) (n : Nat) : Dev := d.incBy Reg.CWQ_DROPPED_COUNT n

/-- Per-queue registers of a queue return to Init. -/
def Dev.initQueueRegs (d : Dev) (lo : Nat) : Dev := d.clearRegs lo 0x40

/-- An FLR or conventional reset of a port's PF1 (table 10-7): its programs end with BUS_MASTER, what is held for it is discarded and
counted, the completions that wait for a moderated interrupt among it (table 12-9), and its queues' registers return to Init. -/
def Dev.cwqPortReset (d : Dev) (portB : Bool) : Dev :=
  let d := d.cwqBusMaster portB
  let mine := d.cwq.chans.filter fun x => d.chPort x.1 == portB
  let cqs := (List.range 256).filter fun q => d.queueOwnerB true q == portB
  let sqs := (List.range 1024).filter fun q => d.queueOwnerB false q == portB
  let waits := (cqs.map fun q => (d.cq q).waiting.length + (d.cq q).pending).foldl (· + ·) 0
  let d := d.dropped ((d.store portB).length + (d.outside portB).length + waits)
  let d := (d.setStore portB []).setOutside portB []
  let d : Dev := mine.foldl (fun (d : Dev) x => d.chFinish x.1) d
  let d := { d with cwq := { d.cwq with sqs := d.cwq.sqs.filter fun s => !sqs.contains s.1, cqs := d.cwq.cqs.filter fun c => !cqs.contains c.1 } }
  let d : Dev := sqs.foldl (fun (d : Dev) q => d.initQueueRegs (0xA0000 + 0x40 * q)) d
  cqs.foldl (fun (d : Dev) q => d.initQueueRegs (0xB0000 + 0x40 * q)) d

/-- A reset of reach CLUSTER or wider ends a channel's program (R43, R429): an entry is interrupted, a direct program leaves LAST at
RESET. -/
def Dev.chanReset (d : Dev) (ch reach : Nat) : Dev :=
  match AMap.get d.cwq.chans ch with
  | none => d
  | some c =>
    let mine := fun (u : ReadUser) => match u with
      | .chnFetch x => x == ch | .chnSrc x _ _ _ => x == ch | .chnBack x => x == ch | .chnRec x => x == ch | _ => false
    let d := d.forgetReads (d.chPort ch) mine
    let early := d.gi Reg.CHN_STATUS_COMPLETED_EARLY ch ≠ 0
    let waits := (d.cwq.cqs.any fun q => q.2.waiting.any fun x => x.chan == some ch) || (d.cwq.outA ++ d.cwq.outB).any fun x => x.chan == some ch
    let free := fun (x : CqCpl) => if x.chan = some ch then { x with chan := none } else x
    let d := { d with cwq := { d.cwq with
      chans := AMap.erase d.cwq.chans ch, waiters := d.cwq.waiters.filter fun w => w.ch != ch && w.target != ch,
      cqs := d.cwq.cqs.map fun q => (q.1, { q.2 with waiting := q.2.waiting.map free }),
      outA := d.cwq.outA.map free, outB := d.cwq.outB.map free } }
    match c.run with
    | none => d.pi Reg.CHN_STATUS_LAST ch 0x0E
    | some r =>
      if early || waits then d
      else d.cqPost ⟨d.gi Reg.CWQ_SQ_CTRL_CQ r.sq, r.sq, r.cid, 0, 0, ch, 0x11, reach, false, false, r.irqNow, none⟩

end Sys2Proof.Machine
end

