-- ==== Sys2Proof/Machine/Ports.lean ====
section
/-!
DEFINITION. The host ports (chapter 12): configuration writes, FLR, Bus Master Enable, D-states, completions and their timeouts, tag
quarantine, the translated window and the expansion ROM.
-/
namespace Sys2Proof.Machine

/-! ### Functions -/

/-- A function in its reset state (R560). -/
def Fn.blank : Fn := ⟨false, false, false, false, false, [], [], [], false⟩

/-- Reports an error through AER: PCI Express's bit of the uncorrectable error status. -/
def Dev.aerReport (d : Dev) (portB : Bool) (fn err : Nat) : Dev :=
  (d.updPort portB fun p => { p with aer := if p.aer.contains (fn, err) then p.aer else p.aer ++ [(fn, err)] }).emit (.aer portB fn err)

/-- Bits of the uncorrectable error status register. -/
def aerPoisoned : Nat := 12
/-- Completion Timeout. -/
def aerTimeout : Nat := 14
/-- Unexpected Completion. -/
def aerUnexpected : Nat := 16

/-- Sends the MSI-X messages that are pending, unmasked and may be sent (R477). -/
def Dev.flushPba (d : Dev) (portB : Bool) (fn : Nat) : Dev :=
  let f := (d.port portB).fn fn
  let d := d.updFn portB fn fun x => { x with pba := [] }
  f.pba.foldl (fun (d : Dev) v => d.irq portB fn v) d

/-- Quarantines every outstanding tag of a function, and drops its waiting reads (R559). -/
def Dev.abandonTags (d : Dev) (portB : Bool) (fn : Nat) : Dev :=
  let q := fun (x : TagUse) => if x.fn = fn then { x with quarantined := true, user := .none } else x
  d.updPort portB fun p => { p with tags := p.tags.map q, waiting := p.waiting.filter (·.fn ≠ fn) }

/-- An armature LOAD that reads through a port loses its source (table 12-8). -/
def Dev.loadLost (d : Dev) (portB : Bool) : Dev :=
  if d.maq == 1 && !d.on Reg.ARM_CTRL_SRC_INTERNAL && d.primaryB == portB then d.armReject (headErr 0x0109) else d

/-- A function issues no further request (R559). -/
def Dev.busMasterOff (d : Dev) (portB : Bool) (fn : Nat) : Dev :=
  let d := d.updFn portB fn fun x => { x with bme := false }
  let d := if fn = 0 then d else (d.cwqBusMaster portB).loadLost portB
  d.abandonTags portB fn

/-- BUS_MASTER_DISABLE (R559, table 10-7). -/
def Dev.busMasterDisable (d : Dev) (portB : Bool) (fn : Nat) : Dev :=
  if 1 < fn ∨ !((d.port portB).fn fn).bme then d else d.busMasterOff portB fn

/-- What a function that may send again does: posts, reads and messages that waited go out (R473, R559, R563). -/
def Dev.fnResume (d : Dev) (portB : Bool) (fn : Nat) : Dev :=
  let d := if fn = 0 then d.drainCqs portB else d.cwqResume portB
  d.flushPba portB fn

/-- BUS_MASTER_ENABLE. -/
def Dev.busMasterEnable (d : Dev) (portB : Bool) (fn : Nat) : Dev :=
  if 1 < fn then d else (d.updFn portB fn fun x => { x with bme := true }).fnResume portB fn

/-- The CQs of a port with completions since their last interrupt. -/
def Dev.moderated (d : Dev) (portB : Bool) : List Nat :=
  (d.cwq.cqs.filter fun q => d.queueOwnerB true q.1 == portB && q.2.pending != 0).map (·.1)

/-- DSTATE_CHANGE: D3hot first sends the pending interrupts of the port, or a PME (R478, R563, R564); D0 resumes. -/
def Dev.dstateChange (d : Dev) (portB : Bool) (fn : Nat) (d3 : Bool) : Dev :=
  if 1 < fn then d
  else
    let f := match portB, fn with
      | false, 0 => Reg.XLT_LINKA_DSTATE_PF0 | false, _ => Reg.XLT_LINKA_DSTATE_PF1
      | true, 0 => Reg.XLT_LINKB_DSTATE_PF0 | true, _ => Reg.XLT_LINKB_DSTATE_PF1
    let d := d.p f (if d3 then 3 else 0)
    if d3 then
      let ms := if fn = 1 then d.moderated portB else []
      let x := (d.port portB).pf1
      let d : Dev := if ms.isEmpty then d
        else if !x.msixEn || x.msixMask then d.sendPme portB
        else ms.foldl (fun (d : Dev) q => d.cqIrq q) d
      d.updFn portB fn fun x => { x with d3hot := true }
    else (d.updFn portB fn fun x => { x with d3hot := false }).fnResume portB fn

/-! ### Resets of functions (R560, R561) -/

/-- The XLT_ENTRY registers of a port return to Init. -/
def Dev.initEntries (d : Dev) (portB : Bool) : Dev :=
  d.clearRegs (0x201000 + (if portB then portBOffset else 0)) 0x800

/-- The steps of an FLR. -/
def Dev.fnReset (d : Dev) (portB : Bool) (fn : Nat) : Dev :=
  let d := d.busMasterOff portB fn
  let d := if fn = 0 then d.ctlReset portB else (d.cwqPortReset portB).initEntries portB
  let link := match portB, fn with
    | false, 0 => Reg.XLT_LINKA_DSTATE_PF0 | false, _ => Reg.XLT_LINKA_DSTATE_PF1
    | true, 0 => Reg.XLT_LINKB_DSTATE_PF0 | true, _ => Reg.XLT_LINKB_DSTATE_PF1
  (d.updFn portB fn fun _ => Fn.blank).p link 0

/-- FLR. -/
def Dev.flr (d : Dev) (portB : Bool) (fn : Nat) : Dev := if 1 < fn then d else (d.fnReset portB fn).eraseAdvance

/-- A port's link is down and both its functions are in their reset state; no tag stays quarantined (R556, R561). -/
def Dev.portDown (d : Dev) (portB : Bool) : Dev :=
  let d := (d.fnReset portB 0).fnReset portB 1
  let d := d.updPort portB fun p => { p with up := false, tags := [], waiting := [] }
  let d := if portB then (((d.p Reg.XLT_LINKB_LINK_UP 0).p Reg.XLT_LINKB_FLIT 0).p Reg.XLT_LINKB_WIDTH 0).p Reg.XLT_LINKB_SPEED 0
    else (((d.p Reg.XLT_LINKA_LINK_UP 0).p Reg.XLT_LINKA_FLIT 0).p Reg.XLT_LINKA_WIDTH 0).p Reg.XLT_LINKA_SPEED 0
  d.eraseAdvance

/-- A port's link trains. -/
def Dev.portUp (d : Dev) (portB : Bool) (speed width : Nat) (flit : Bool) : Dev :=
  let d := d.updPort portB fun p => { p with up := true }
  if portB then (((d.p Reg.XLT_LINKB_LINK_UP 1).p Reg.XLT_LINKB_FLIT (bit flit)).p Reg.XLT_LINKB_WIDTH width).p Reg.XLT_LINKB_SPEED speed
  else (((d.p Reg.XLT_LINKA_LINK_UP 1).p Reg.XLT_LINKA_FLIT (bit flit)).p Reg.XLT_LINKA_WIDTH width).p Reg.XLT_LINKA_SPEED speed

/-! ### Configuration writes (R534) -/

/-- Writable bits of the configuration registers that hold plain values, as PCI Express defines them for the capabilities of table
12-3 and the BARs of table 12-4. -/
def cfgMask (fn off : Nat) : Nat :=
  match off with
  | 0x04 => 0x0546
  | 0x0C => 0xFF
  | 0x10 => if fn = 0 then 0xFFFF0000 else 0
  | 0x14 => if fn = 0 then 0xFFFFFFFF else 0
  | 0x18 => if fn = 0 then 0 else 0xFE000000
  | 0x1C | 0x24 => if fn = 0 then 0 else 0xFFFFFFFF
  | 0x20 => if fn = 0 then 0 else 0xC0000000
  | 0x30 => if fn = 0 then 0 else 0xFFC00001
  | 0x3C => 0xFF
  | 0x44 => if fn = 0 then 0 else 0x100
  | 0x78 => 0x79FF
  | 0x80 => if fn = 0 then 0x03FB else 0
  | 0x98 => 0x041F
  | 0x108 | 0x10C | 0x114 => 0xFFFFFFFF
  | 0x168 => 0x7
  | 0x2B8 | 0x2BC => if fn = 0 then 0xFFFFFFFF else 0
  | _ => 0

/-- Initial value of a configuration register that is not 0. -/
def cfgInit (off : Nat) : Word := if off = 0x78 then 0x2810 else 0

/-- The value a configuration register holds. -/
def Fn.cfgAt (f : Fn) (off : Nat) : Word := (AMap.get f.cfg off).getD (cfgInit off)

/-- The capability list of a function (table 12-3): offsets, with the identifiers that PCI Express gives these capabilities (log entry 133). -/
def capList (fn : Nat) : List (Nat × Nat) := [(0x40, 0x01), (0x50, 0x11), (0x70, 0x10)]
  ++ [(0x100, 0x0001), (0x150, 0x0003), (0x160, 0x002F)]
  ++ if fn = 0 then [(0x170, 0x0019), (0x1A0, 0x0025), (0x1B0, 0x0026), (0x1E0, 0x002A), (0x220, 0x0031), (0x260, 0x0027), (0x2B0, 0x001E),
      (0x2C0, 0x0018)] else []

/-- The capability after one in its list, standard or extended; 0 after the last (R535). -/
def capNext (fn off : Nat) : Nat :=
  let mine := (capList fn).filter fun x => decide (x.1 < 0x100) == decide (off < 0x100)
  ((mine.find? fun x => decide (off < x.1)).map (·.1)).getD 0

/-- What the spec gives a configuration register of its read-only and live bits (R533, R535, R537): which bits, and their value. -/
def Dev.cfgFixed (d : Dev) (portB : Bool) (fn off : Nat) : Word × Word :=
  let f := (d.port portB).fn fn
  let one := fn = 0
  let nat := fun (m v : Nat) => (BitVec.ofNat 32 m, BitVec.ofNat 32 v)
  let serial := d.g Reg.GCS_SERIAL_SERIAL
  match off with
  | 0x00 => nat 0xFFFFFFFF (if one then 0x20481D7A else 0x20491D7A)
  | 0x04 => nat 0x00100006 (0x00100000 + 2 * bit f.mse + 4 * bit f.bme)
  | 0x08 => nat 0xFFFFFFFF (if one then 0x01080221 else 0x12000021)
  | 0x0C => nat 0x00FF0000 (if one then 0x00800000 else 0)
  | 0x10 => nat 0xFFFF (if one then 4 else 0)
  | 0x18 => nat 0x1FFFFFF (if one then 0 else 4)
  | 0x20 => nat 0x3FFFFFFF (if one then 0 else 0xC)
  | 0x2C => nat 0xFFFFFFFF (d.opt.subsystem * 65536 + d.opt.vendor)
  | 0x34 => nat 0xFF 0x40
  | 0x3C => nat 0xFF00 0
  | 0x40 => nat 0x7FFFF (0x30000 + capNext fn 0x40 * 256 + 0x01)
  | 0x44 => nat 0x8003 (32768 * bit f.pmePending + 3 * bit f.d3hot)
  | 0x50 => nat 0xC7FFFFFF (2 ^ 31 * bit f.msixEn + 2 ^ 30 * bit f.msixMask + (if one then 1023 else 2047) * 65536 + capNext fn 0x50 * 256 + 0x11)
  | 0x54 => nat 0xFFFFFFFF (if one then 0x4000 else 0x8002)
  | 0x58 => nat 0xFFFFFFFF (if one then 0x8000 else 0x1002)
  | 0x70 => nat 0xF0FFFF (capNext fn 0x70 * 256 + 0x10)
  | 0x104 => nat 0xFFFFFFFF (bitsFrom ((List.range 32).map fun b => (d.port portB).aer.contains (fn, b)))
  | 0x154 => nat 0xFFFFFFFF (serial % 2 ^ 32)
  | 0x158 => nat 0xFFFFFFFF (serial / 2 ^ 32)
  | _ => match (capList fn).find? (·.1 == off) with
    | some x => nat 0xFFF0FFFF (capNext fn off * 2 ^ 20 + x.2)
    | none => nat 0 0

/-- The value of a configuration register (R533 to R537): what the spec fixes, the writable fields, and the rest of the ROM image. -/
def Dev.cfgValue (d : Dev) (portB : Bool) (fn off : Nat) : Word :=
  let w := BitVec.ofNat 32 (cfgMask fn off)
  let (m, v) := d.cfgFixed portB fn off
  (v &&& m) ||| (((d.port portB).fn fn).cfgAt off &&& w &&& ~~~m) ||| (Config.romBits fn off &&& ~~~(w ||| m))

/-- How a configuration read is answered (R175, R536): PF1 with Request Retry Status until the buffer memory is initialised. The command
table has no row for a configuration read. -/
def Dev.configRead (d : Dev) (portB : Bool) (fn off : Nat) : Emit :=
  if fn == 1 && !d.on Reg.BUF_STATUS_INIT_DONE then .retryStatus else .reply ((d.cfgValue portB fn off).setWidth 64)

/-- CONFIG_WRITE: one 32-bit register written, with a mask of the bits that the byte enables select. The writable bits of table 12-3's
capabilities take it; MSI-X, power state, Bus Master Enable, error status and FLR act; PF1 answers with Request Retry Status
until the buffer memory is initialised (R536). -/
def Dev.configWrite (d : Dev) (portB : Bool) (fn off : Nat) (v enable : Word) : Dev :=
  if 1 < fn || !(d.port portB).up then d
  else if fn == 1 && !d.on Reg.BUF_STATUS_INIT_DONE then d.emit .retryStatus
  else
    let en := enable.toNat
    let x := v.toNat
    let takes := fun (b : Nat) => en.testBit b
    let f := (d.port portB).fn fn
    let old := f.cfgAt off
    let mask := BitVec.ofNat 32 (cfgMask fn off) &&& enable
    let new := (old &&& ~~~mask) ||| (v &&& mask)
    let d := if mask = 0 then d else d.updFn portB fn fun y => { y with cfg := AMap.put y.cfg off new }
    match off with
    | 0x04 =>
      let d := if takes 1 then d.updFn portB fn fun y => { y with mse := x.testBit 1 } else d
      if !takes 2 || x.testBit 2 == f.bme then d
      else if x.testBit 2 then d.busMasterEnable portB fn else d.busMasterDisable portB fn
    | 0x44 =>
      let d := if takes 15 && x.testBit 15 then d.updFn portB fn fun y => { y with pmePending := false } else d
      if !takes 0 then d
      else match x % 4, f.d3hot with
        | 0, true => d.dstateChange portB fn false
        | 3, false => d.dstateChange portB fn true
        | _, _ => d
    | 0x50 =>
      let d := if takes 31 then d.updFn portB fn fun y => { y with msixEn := x.testBit 31 } else d
      let d := if takes 30 then d.updFn portB fn fun y => { y with msixMask := x.testBit 30 } else d
      d.flushPba portB fn
    | 0x78 => if takes 15 && x.testBit 15 then d.flr portB fn else d
    | 0x104 => d.updPort portB fun p => { p with aer := p.aer.filter fun a => !(a.1 == fn && takes a.2 && x.testBit a.2) }
    | _ => d

/-! ### Completions (R555 to R558) -/

/-- Fields of a port's counters. -/
def cplFld (portB : Bool) : Fld × Fld × Fld :=
  if portB then (Reg.XLT_CPLB_TIMEOUTS, Reg.XLT_CPLB_LATE, Reg.XLT_CPLB_UNEXPECTED)
  else (Reg.XLT_CPLA_TIMEOUTS, Reg.XLT_CPLA_LATE, Reg.XLT_CPLA_UNEXPECTED)

/-- Host data arrives for a transfer unit, and wakes the cluster (R368). -/
def Dev.unitData (d : Dev) (ch u src off : Nat) (bytes : List Byte) : Dev :=
  let put := fun (x : TUnit) => if x.n = u then { x with awaited := x.awaited.erase (src, off), data := x.data ++ [(src, off, bytes)] } else x
  ((d.updChan ch fun c => { c with work := c.work.map fun w => { w with units := w.units.map put } }).wakeCluster (chCluster ch)).syncState ch

/-- One read-back has returned. -/
def Dev.backDone (d : Dev) (ch : Nat) : Dev :=
  (d.updChan ch fun c => { c with work := c.work.map fun w => { w with backs := w.backs - 1 } }).runAfter ch

/-- The failure of a read reaches its requester: 1 unsupported request, 2 completer abort, 3 completion timeout, 7 poisoned data
(tables 9-11, 10-6, 12-8). -/
def Dev.readFails (d : Dev) (user : ReadUser) (why : Nat) : Dev :=
  match user with
  | .chnFetch ch => d.endChan ch 0x06 4
  | .chnSrc ch u _ _ => if why = 7 then d.unitFails ch u 0x07 u else d.unitFails ch u 0x06 why
  -- R401: with a residue of 0
  | .chnBack ch => (d.updChan ch fun c => { c with work := none }).endChan ch 0x06 5
  | .chnRec ch => d.endPost ch false
  | .sqFetch q => d.haltSq q (if why = 1 then 0x10 else if why = 2 then 0x11 else if why = 3 then 0x12 else 0x13)
  | .armature => if d.maq == 1 then d.armReject (headErr 0x0109) else d
  | .nvmeFetch | .none | .discard => d

/-- HOST_COMPLETION: a completion arrives for a tag. Data for an instruction, a submission entry or an armature image goes on by the row
that consumes it. -/
def Dev.hostCompletion (d : Dev) (portB : Bool) (tag : Nat) (res : CplRes) : Dev :=
  match d.tagUse portB tag with
  | none => (d.aerReport portB 1 aerUnexpected).inc (cplFld portB).2.2
  | some t =>
    if t.quarantined then
      ((d.freeTag portB t).inc (cplFld portB).2.1).event 0x0D01 2 (leBytes 1 (bit portB) ++ leBytes 1 t.fn ++ leBytes 2 tag)
    else
      let d := if t.user = .discard then d.inc Reg.RST_BLOCK_COUNTS_DISCARDED else d
      let d := if res = .poisoned then d.aerReport portB t.fn aerPoisoned else d
      match res with
      | .good bytes =>
        match t.user with
        | .chnSrc ch u src off => (d.freeTag portB t).unitData ch u src off ((bytes ++ List.replicate t.len 0).take t.len)
        | .chnBack ch => (d.freeTag portB t).backDone ch
        | .chnRec ch => (d.freeTag portB t).endPost ch true
        | .none | .discard => d.freeTag portB t
        | _ => d
      | .unsupported => (d.freeTag portB t).readFails t.user 1
      | .abort => (d.freeTag portB t).readFails t.user 2
      | .poisoned => (d.freeTag portB t).readFails t.user 7

/-- Whether completion timeout is disabled for a function: Device Control 2 bit 4. -/
def Dev.timeoutOff (d : Dev) (portB : Bool) (fn : Nat) : Bool := (((d.port portB).fn fn).cfgAt 0x98).toNat.testBit 4

/-- COMPLETION_TIMEOUT (R555, table 12-8): of a tag, or with none of an NVMe submission entry fetch, which PF0 issues outside the tags
that the model follows. -/
def Dev.completionTimeout (d : Dev) (portB : Bool) (tag : Option Nat) : Dev :=
  match tag with
  | none =>
    if d.timeoutOff portB 0 || !(d.ctl portB).rdy then d
    else ((d.aerReport portB 0 aerTimeout).inc (cplFld portB).1).updCtl portB fun c => { c with cfs := true, rdy := false }
  | some n =>
    match d.tagUse portB n with
    | none => d
    | some t =>
      if t.quarantined || d.timeoutOff portB t.fn then d
      else
        let d := (d.aerReport portB t.fn aerTimeout).inc (cplFld portB).1
        (d.quarantine portB t).readFails t.user 3

/-- TAG_QUARANTINE_EXPIRY (R556). -/
def Dev.tagQuarantineExpiry (d : Dev) (portB : Bool) (tag : Nat) : Dev :=
  match d.tagUse portB tag with
  | some t => if t.quarantined && !d.timeoutOff portB t.fn then d.freeTag portB t else d
  | none => d

/-! ### Windows (R543 to R549) -/

/-- Whether PF1 of a port takes memory requests. -/
def Dev.takesPf1 (d : Dev) (portB : Bool) : Bool := (d.port portB).up && (d.port portB).pf1.mse && !(d.port portB).pf1.d3hot

/-- An access through the translated window: the internal address, or none where its permission bit is 0 (R543, R544). -/
def Dev.translate (d : Dev) (portB : Bool) (off : Nat) (write : Bool) : Option Nat :=
  let a := 0x201000 + 8 * (off / 0x400000 % 256) + (if portB then portBOffset else 0)
  let e := d.reg a
  if e.toNat.testBit (if write then 1 else 0) then some (e.bits 47 22 * 0x400000 + off % 0x400000) else none

/-- Counts a refused window access. -/
def Dev.denied (d : Dev) (portB : Bool) : Dev := d.inc (if portB then Reg.XLT_DENIEDB_COUNT else Reg.XLT_DENIEDA_COUNT)

/-- BAR4_READ: bytes of the host area; zero elsewhere, and zero and counted where refused (R543 to R545). `bad` names lines of the
host area that are uncorrectable, whose read returns poisoned data (R547). -/
def Dev.bar4Read (d : Dev) (rd : Nat → Byte) (portB : Bool) (off len : Nat) : Dev :=
  if !d.takesPf1 portB || decide (2 ^ 30 ≤ off) then d.emit .unsupported
  else match d.translate portB off false with
    | none => (d.denied portB).emit (.replyBytes (List.replicate len 0))
    | some a =>
      if d.badRead a len then d.emit .poisoned
      else d.emit (.replyBytes (d.hostBytes rd a len))

/-- BAR4_WRITE: bytes of the host area; a poisoned TLP is dropped and reported (R543 to R547). -/
def Dev.bar4Write (d : Dev) (portB : Bool) (off : Nat) (bytes : List Byte) (poisoned : Bool) : Dev :=
  if !d.takesPf1 portB || decide (2 ^ 30 ≤ off) then d.emit .unsupported
  else if poisoned then d.aerReport portB 1 aerPoisoned
  else match d.translate portB off true with
    | none => d.denied portB
    | some a => d.hbmWrite a bytes

/-- EXPANSION_ROM_READ (R548, R549). -/
def Dev.expansionRomRead (d : Dev) (portB : Bool) (off len : Nat) : Dev :=
  let f := (d.port portB).pf1
  if !d.takesPf1 portB || !(f.cfgAt 0x30).toNat.testBit 0 || decide (0x400000 ≤ off) then d.emit .unsupported
  else d.emit (.replyBytes (pageRead d.mgmt.rom off len))

/-- XLT_CLR_COUNTS. -/
def Dev.xltClrCounts (d : Dev) (req : Requester) : Dev :=
  d.globalCmd req Reg.XLT_CTRL_CLR_COUNTS fun d =>
    ((((d.setReg 0x200020 0).setReg 0x200024 0).setReg 0x200028 0).setReg 0x20002C 0)

end Sys2Proof.Machine
end

