-- ==== Sys2Proof/Machine/Accord.lean ====
section
/-!
DEFINITION. The accord of two packages (chapter 14): states and the accord record, heartbeats and partner loss, the fence arbiter,
takeover, the mirror area with its doorbells, planned transfers, and the commands of the ACD_ block.
-/
namespace Sys2Proof.Machine

/-! ### What the package says of itself -/

/-- This package's role (R603). -/
def Dev.role (d : Dev) : Nat := d.g Reg.ACD_STATUS_ROLE

/-- MIRROR_VALID (R612). -/
def Dev.mirrorValid (d : Dev) : Bool := d.on Reg.ACD_STATUS_MIRROR_VALID

/-- Whether the package takes part in peer traffic: in accord, not fenced (R636), and not sealed (table 15-5). -/
def Dev.peerLive (d : Dev) : Bool := !d.solo && d.acdState != 4 && d.g Reg.JNL_STATUS_STATE != 3

/-- Writes the accord record as things stand (R613). -/
def Dev.saveAccord (d : Dev) : Dev :=
  let formed := d.acdState == 2 || d.acdState == 3 || d.acd.record.any (·.formed)
  let r : AcdRecord := ⟨d.acdState, d.on Reg.ACD_STATUS_STEWARD, d.g Reg.ACD_OWN_POOLS, d.mirrorValid, d.on Reg.ACD_STATUS_ADOPTED, formed⟩
  Dev.emit { d with acd := { d.acd with record := some r } } (.vault "accord record" 0)

/-- The flags of a heartbeat or JOIN (table 14-6): steward, MIRROR_VALID, local journal not empty. -/
def Dev.acdFlags (d : Dev) : Nat :=
  bit (d.on Reg.ACD_STATUS_STEWARD) + 2 * bit d.mirrorValid + 4 * bit (d.jnl.recs.any (!·.retired) || !d.jnl.waiting.isEmpty)

/-- Raises the head to a partner's head (R618). -/
def Dev.raiseHead (d : Dev) (h : Nat) : Dev :=
  if d.head < h then ((d.p Reg.JNL_HEAD_SEQ_SEQ h).advanceTail).jnlStatus else d

/-! ### Joining (R643, R644) -/

/-- Starts the join exchange: the message ring begins anew and JOIN is sent (R626, R643); a package that keeps silent after a failed
dump sends none (R670). -/
def Dev.startJoin (d : Dev) : Dev :=
  if d.acd.mute || !d.peerLive || d.g Reg.ACD_STATUS_LINKS_UP = 0 then d
  else
    let d := { d with acd := { d.acd with txSeq := 0, txSlots := 0, rxAck := 0, txWait := [], rxSlots := 0, keyxDone := false,
                                           joined := false, sentTo := 0, ackedIn := 0, doorbells := [] } }
    let d := d.p Reg.ACD_ACKED_SEQ 0
    let ident := match d.arm.active with | some a => a.identity.toNat | none => 0
    d.peerSend 0x01 [d.role, d.acdFlags, d.g Reg.BUF_CONFIG_PA_GIB, d.epoch, ident, crc32c d.opt.sn, crc32c d.opt.subnqn, d.head]

/-- Sends KEYX (R629). -/
def Dev.sendKeyx (d : Dev) : Dev := d.peerSend 0x02 [Config.keyxPayload (d.acd.keyxCount + 1)]

/-- The steward's part of the join (R643 steps 2 to 4): its armature, a KEY install for every ACTIVE and READY slot with its key wrapped under
the transport key, the ACTIVE ones first, and every unretired record of its local journal with one doorbell. The slots are then its own:
the partner's copies name them (log entry 118). -/
def Dev.joinCopy (d : Dev) : Dev :=
  let d := match d.arm.active with
    | some a => (d.peerPut 0x10000000 a.image).peerSend 0x0A [a.epoch, a.image.length, crc32c a.image]
    | none => d
  let own := fun (k : KeySlot) => { k with peer := none }
  let d := { d with keys := { d.keys with slots := d.keys.slots.map own } }
  let d : Dev := (d.keys.slots.filter (·.st == .active) ++ d.keys.slots.filter (·.st == .ready)).foldl (fun (d : Dev) k =>
    d.peerSend 0x03 [1, k.slot, k.nsid, leNat (wrapKey d.acd.transport k.key)]) d
  let d := d.sendMirror (d.jnl.recs.filter (!·.retired)) d.head
  { d with acd := { d.acd with joined := true } }

/-- The destructions that the partner has not reported are asked for again (R331, R630). -/
def Dev.askDestroyed (d : Dev) : Dev :=
  (d.keys.slots.filter fun k => k.st == .destroying && !k.partnerDone).foldl (fun (d : Dev) k =>
    d.peerSend 0x03 [2, k.slot, k.nsid, 0]) d

/-- Enters MIRRORING (R610, R612, R643): groups the partner has not been sent go to it, and completions may follow. -/
def Dev.enterMirroring (d : Dev) : Dev :=
  let d := (d.p Reg.ACD_STATUS_STATE 2).p Reg.ACD_STATUS_MIRROR_VALID 1
  let d := match d.acd.peer with | some p => d.raiseHead p.head | none => d
  let d := { d with acd := { d.acd with request := false, holdoff := false, lossDeclared := false, fenceInPlace := false } }
  let late := d.jnl.groups.filter fun g => decide (d.g Reg.ACD_ACKED_SEQ < g.first) && decide (d.acd.sentTo < g.first)
  let d : Dev := late.foldl (fun (d : Dev) g => d.sendMirror (d.jnl.recs.filter (·.first = g.first)) (g.first + g.count - 1)) d
  (d.saveAccord).askDestroyed.commitReady

/-- MIRROR_ACK: the partner acknowledges up to a sequence, and the groups it covers commit (R199, R201); the acknowledgement that
covers the steward's head ends the join (R643). -/
def Dev.mirrorAck (d : Dev) (seq : Nat) : Dev :=
  if !d.peerLive then d
  else
    let d := d.p Reg.ACD_ACKED_SEQ (max seq (d.g Reg.ACD_ACKED_SEQ))
    if (d.acdState == 1 || d.acdState == 3) && d.acd.joined && decide (d.head ≤ d.g Reg.ACD_ACKED_SEQ) then d.enterMirroring
    else d.commitReady

/-! ### The fence (R634 to R636) -/

/-- The package wins the fence: FENCE_OUT_N low, ALONE, steward (R615); its accord record follows once the fence is in place (R637). -/
def Dev.winFence (d : Dev) : Dev :=
  let d := ((d.p Reg.ACD_STATUS_FENCE_OUT 1).emit (.pin "FENCE_OUT_N" false)).inc Reg.ACD_COUNTS_FENCES_WON
  let d := { d with acd := { d.acd with fenceInPlace := false, holdoff := false, joinSeen := false, keyxDone := false, joined := false } }
  (d.p Reg.ACD_STATUS_STATE 3).p Reg.ACD_STATUS_STEWARD 1

/-- One decision of the fence arbiter (R634). A request of a package that came out of a WARM reset with its fence still held wins too. -/
def Dev.arbiter (d : Dev) : Dev :=
  let in_ := d.on Reg.ACD_STATUS_FENCE_IN
  let out := d.on Reg.ACD_STATUS_FENCE_OUT
  if d.solo || d.acdState == 4 then d
  else if d.role = 0 then
    if d.acd.request && !in_ && (!out || d.acdState != 3) then d.winFence
    else if in_ && !out then { d with acd := { d.acd with fenced := true } }
    else d
  else if in_ then
    let d := { d with acd := { d.acd with fenced := true } }
    if out then (d.p Reg.ACD_STATUS_FENCE_OUT 0).emit (.pin "FENCE_OUT_N" true) else d
  else if d.acd.request && (!out || d.acdState != 3) then d.winFence
  else d

/-- Raises the fence request: role 0 at once, role 1 after its hold-off of 1 ms (R634). -/
def Dev.fenceRequest (d : Dev) : Dev :=
  if d.role = 0 then Dev.arbiter { d with acd := { d.acd with request := true } }
  else { d with acd := { d.acd with holdoff := true } }

/-- FENCE_HOLDOFF_EXPIRY (R634). -/
def Dev.fenceHoldoffExpiry (d : Dev) : Dev :=
  if d.acd.holdoff && !d.acd.fenced then Dev.arbiter { d with acd := { d.acd with holdoff := false, request := true } } else d

/-! ### Heartbeats and loss (R633) -/

/-- The 32 bytes of a heartbeat (table 14-6). -/
def Dev.heartbeat (d : Dev) (n : Nat) : List Byte :=
  let b := leBytes 8 n ++ leBytes 8 d.head ++ leBytes 8 (d.g Reg.ACD_OWN_POOLS) ++ leBytes 1 d.acdState ++ leBytes 1 d.acdFlags ++ leBytes 2 0
  b ++ leBytes 4 (crc32c b)

/-- HEARTBEAT_SEND, on both links that are up: none from a fenced or sealed package, nor from one that keeps silent (R636, R670). -/
def Dev.heartbeatSend (d : Dev) : Dev :=
  if !d.peerLive || d.acd.mute then d
  else
    let n := d.acd.hbCount + 1
    let links := [false, true].filter fun b => (d.g Reg.ACD_STATUS_LINKS_UP).testBit (if b then 1 else 0)
    { d with acd := { d.acd with hbCount := n }, emitted := d.emitted ++ links.map fun b => Emit.peerWrite b 0x40 (d.heartbeat n) }

/-- HEARTBEAT_RECEIVED: one of a new count is taken and the partner's head learnt (R618). -/
def Dev.heartbeatReceived (d : Dev) (v : PeerView) : Dev :=
  if !d.peerLive || d.acd.peer.any (·.count == v.count) then d
  else
    let asks := d.acdState != 1 || d.acd.request || d.acd.holdoff
    let d := { d with acd := { d.acd with peer := some v, lossDeclared := d.acd.lossDeclared && asks } }
    (d.p Reg.ACD_PARTNER_HEAD_SEQ v.head).raiseHead v.head

/-- PARTNER_LOSS (R632 to R634): a commit that waits for ARM_READY ends, and the fence is requested by a package that may. -/
def Dev.partnerLoss (d : Dev) : Dev :=
  if !(d.acdState == 1 || d.acdState == 2) || d.acd.lossDeclared || !d.peerLive then d
  else
    let d := (d.p Reg.ACD_STATUS_LOSS_SEEN 1).inc Reg.ACD_COUNTS_LOSSES
    let d := { d with acd := { d.acd with lossDeclared := true } }
    let d := if d.maq == 5 && d.arm.commitStage == 1 then d.commitBack 0x0C03 else d
    if d.acdState == 2 || d.mirrorValid then d.fenceRequest else d

/-- Bit of LINKS_UP of a peer link. -/
def Dev.setPeerLink (d : Dev) (portB up : Bool) : Dev := d.pBit Reg.ACD_STATUS_LINKS_UP (if portB then 1 else 0) up

/-- PEER_LINK_DOWN: LINK_DOWN is set, and traffic keeps to the other link. -/
def Dev.peerLinkDown (d : Dev) (portB : Bool) : Dev :=
  if d.solo then d else (d.setPeerLink portB false).p Reg.ACD_STATUS_LINK_DOWN 1

/-- PEER_LINK_UP: the link carries traffic again; the first link of a package that is JOINING, or ALONE with its fence released, makes it
send JOIN. -/
def Dev.peerLinkUp (d : Dev) (portB : Bool) : Dev :=
  if d.solo then d
  else
    let first := d.g Reg.ACD_STATUS_LINKS_UP = 0
    let d := d.setPeerLink portB true
    if first && (d.acdState == 1 || (d.acdState == 3 && !d.on Reg.ACD_STATUS_FENCE_OUT)) then d.startJoin else d

/-! ### Takeover (R637 to R639) -/

/-- A member takes the state that the steward recorded (table 14-4), with what follows from it here. -/
def Dev.followState (d : Dev) (e : MetaEntry) : Dev :=
  match e with
  | .mst m st _ _ _ _ =>
    let old := d.mbr m
    let was := d.silCriticalFlag
    let d := d.applyState e
    let new := d.mbr m
    let d := if new.mark.isNone then d.updMbr m fun x => { x with drl := none } else d
    let d := if old.mark.isNone && new.mark.isSome then d.drlOpen m else d
    let d := if old.st = st then d else (d.resyncList m (st == .rebuilding)).vendorEvent 0
    let d := if old.st.disp == st.disp then d else d.writeRows (d.linesOfMember m) .none
    let d := if st != .online then d.abandonOps m else d
    let d := if old.st.active && !st.active then d.failAll m else d
    let d := if st = .online then { d with sil := { d.sil with noSpare := d.sil.noSpare.filter fun x =>
        (match d.pool x.1 with | some c => (c.extent m).isNone | none => true) } } else d
    (d.zeroPump.pump m).criticalNotice was
  | _ => d

/-- Applies a metadata record of the partner (R616, table 14-4). -/
def Dev.applyPeerMeta (d : Dev) (r : JRec) : Dev :=
  if r.typ = .memberState then
    if d.on Reg.ACD_STATUS_STEWARD then d else r.entries.foldl (fun (d : Dev) e => d.followState e) d
  else d.applyMeta r

/-- Applies the partner's metadata records up to a sequence that have not been applied. -/
def Dev.applyMirror (d : Dev) (upTo : Nat) : Dev :=
  let rs := d.acd.mirror.filter fun r => r.typ.isMeta && decide (d.acd.applied < r.seq ∧ r.seq ≤ upTo)
  let d : Dev := rs.foldl (fun (d : Dev) r => d.applyPeerMeta r) d
  { d with acd := { d.acd with applied := max d.acd.applied upTo } }

/-- The records that a replay of the mirror area keeps (R240, with SEALED taken as 0), and how many groups it drops. -/
def Dev.mirrorKeep (d : Dev) : List JRec × Nat :=
  let seen := d.acd.mirror.filter fun r => decide (d.acd.mirrorTail ≤ r.seq) && !d.acd.mirrorBad.contains r.seq
  (seen.filter (groupWhole seen d.acd.mirrorTail), (((seen.filter fun r => !groupWhole seen d.acd.mirrorTail r).map (·.first)).eraseDups).length)

/-- Adopts records (R637 steps 2 and 3): the journal index covers them, the head passes them, and the first destage of each of their
stripes is REWRITE (R639). -/
def Dev.adopt (d : Dev) (rs : List JRec) : Dev :=
  let new := rs.filter fun r => !r.retired && !d.acd.adopted.any (·.seq = r.seq)
  let place := fun (r : JRec) => { r with inPlace := true }
  let stripes := ((new.filter (!·.typ.isMeta)).map fun r => (r.pool, r.stripe)).eraseDups
  let d := { d with acd := { d.acd with adopted := d.acd.adopted ++ new.map place },
                    jnl := { d.jnl with rewrite := (d.jnl.rewrite ++ stripes).eraseDups } }
  let d := if d.acd.adopted.isEmpty then d else d.p Reg.ACD_STATUS_ADOPTED 1
  d.raiseHead ((rs.map (·.seq)).foldl max 0)

/-- Keys go on without the partner (R630): generations that wait for it are READY, its destructions count as reported, and copies of
the keys in use become ACTIVE. -/
def Dev.keysAlone (d : Dev) : Dev :=
  let d : Dev := (d.keys.slots.filter fun k => k.st == .empty).foldl (fun (d : Dev) k => d.keyReady k.slot) d
  let told := fun (k : KeySlot) => { k with partnerDone := true }
  Dev.slotEmpties { d with keys := { d.keys with slots := d.keys.slots.map told } }

/-- The erasures that waited for the partner take its namespaces over (R620; log entry 71). -/
def Dev.erasesAlone (d : Dev) (theirs : List Nat) : Dev :=
  let asked := fun (e : Erase) => !e.remote && d.acd.nsOps.any fun w => w.sanitize == e.sanitize && w.left != 0
  let named := fun (e : Erase) (n : Nat) =>
    (e.sanitize || d.acd.nsOps.any fun w => !w.sanitize && (w.nsid == n || w.nsid == 0xFFFFFFFF)) && !e.nsids.contains n
  let whole := fun (e : Erase) => if asked e then { e with nsids := e.nsids ++ theirs.filter (named e), step := 0 } else e
  let mine := d.nvm.erases.filter fun (e : Erase) => !e.remote
  let d := { d with nvm := { d.nvm with erases := mine.map whole } }
  { d with acd := { d.acd with nsOps := [] } }

/-- The steps of a takeover (R637). -/
def Dev.takeover (d : Dev) : Dev :=
  let d := (d.p Reg.ACD_STATUS_ADOPTED 1).saveAccord
  let (keep, dropped) := d.mirrorKeep
  let d := d.incBy Reg.JNL_REPLAY_DISCARDS_COUNT dropped
  let d := { d with acd := { d.acd with mirror := keep } }
  let d := d.applyMirror ((keep.map (·.seq)).foldl max 0)
  let d := d.adopt keep
  let d := d.p Reg.ACD_STATUS_ADOPTED (bit !d.acd.adopted.isEmpty)
  let theirs := d.nsidsOwned false
  let all := 2 ^ 64 - 1
  let gained := all - d.g Reg.ACD_OWN_POOLS
  let d := d.p Reg.ACD_OWN_POOLS all
  let d := { d with acd := { d.acd with mirror := [], mirrorBad := [], doorbells := [], transfers := [], anaChange := 0, quietWait := 0,
                                         drainUs := some d.now, drainPools := d.acd.drainPools ||| gained, staged := none,
                                         ackedIn := 0, sentTo := 0, txWait := [] } }
  let d := (((d.keysAlone).erasesAlone theirs).anaChanged).saveAccord
  (List.range d.mbrs.length).foldl (fun (d : Dev) m => d.labelMember m) d

/-- FENCE_IN_PLACE: 10 µs after FENCE_OUT_N the fence is in place; held completions are posted on local copies, and the package takes
over (R635, R637). -/
def Dev.fenceInPlace (d : Dev) : Dev :=
  if !(d.acdState == 3) || !d.on Reg.ACD_STATUS_FENCE_OUT || d.acd.fenceInPlace then d
  else (Dev.commitReady { d with acd := { d.acd with fenceInPlace := true } }).takeover.eraseAdvance

/-- DRAIN_MS_EXPIRY (R639). -/
def Dev.drainMsExpiry (d : Dev) : Dev := { d with acd := { d.acd with drainUs := none, drainPools := 0 } }

/-- JOIN_WAIT_EXPIRY (table 14-3). -/
def Dev.joinWaitExpiry (d : Dev) : Dev := if d.acdState == 1 && d.mirrorValid && d.peerLive then d.fenceRequest else d

/-- DUMP_FAILED_SILENCE_EXPIRY (R670). -/
def Dev.dumpFailedSilenceExpiry (d : Dev) : Dev :=
  let was := d.acd.mute
  let d := { d with acd := { d.acd with mute := false } }
  if was && d.acdState == 1 && !d.acd.fenced then d.startJoin else d

/-! ### The mirror area (R621 to R625) -/

/-- The highest sequence reached from `h` through ranges that leave no gap. -/
def reachSeq (rs : List (Nat × Nat)) : Nat → Nat → Nat
  | 0, h => h
  | fuel + 1, h => match rs.find? fun r => decide (r.1 ≤ h + 1 ∧ h < r.2) with
    | some r => reachSeq rs fuel r.2
    | none => h

/-- MIRROR_COMMIT_DOORBELL (R624): the records that preceded it on its link are in the mirror area; the contiguous sequence is
acknowledged, and metadata records it covers are applied (R616). The first doorbell of a join starts the count. The partner of a
steward enters MIRRORING with the acknowledgement of the steward's copy (R643). -/
def Dev.mirrorCommitDoorbell (d : Dev) (first last tail : Nat) (crcOk : Bool) (recs : List JRec) : Dev :=
  if !d.peerLive || d.on Reg.ACD_STATUS_FENCE_OUT then d
  else if !crcOk then d.inc Reg.ACD_COUNTS_BAD_DOORBELLS
  else
    let base := if d.acd.ackedIn = 0 then first - 1 else d.acd.ackedIn
    let doors := d.acd.doorbells ++ [(first, last)]
    let h := reachSeq doors doors.length base
    let t := max tail d.acd.mirrorTail
    let new := fun (r : JRec) => recs.any (·.seq = r.seq)
    let d := { d with acd := { d.acd with
      mirror := (d.acd.mirror.filter fun r => !new r && decide (t ≤ r.seq)) ++ recs.filter fun (r : JRec) => decide (t ≤ r.seq)
      mirrorBad := d.acd.mirrorBad.filter fun s => !recs.any (·.seq = s)
      doorbells := doors.filter fun r => decide (h < r.2), ackedIn := h, mirrorTail := t } }
    let d := (d.applyMirror h).peerPut 0x20 (leBytes 8 h)
    if d.acdState == 1 && d.acd.keyxDone && !d.on Reg.ACD_STATUS_STEWARD && decide (last ≤ h) then d.enterMirroring else d

/-- Whether table 14-5 allows a peer request. -/
def peerAllowed (pGiB : Nat) (write : Bool) (off len : Nat) : Bool :=
  let within := fun (lo size : Nat) => decide (lo ≤ off ∧ off + len ≤ lo + size)
  (write && (within 0 0x1000 || within 0x10000 0x10000 || within 0x10000000 0x4000000)) ||
  within 0x100000000 (pGiB * 2 ^ 29)

/-- A byte of the mirror area (R622, table 5-1): the tail that the receiver keeps in the control block (R624), headers from 1 MiB, then payload
blocks; other bytes are free. -/
def Dev.mirrorByte (d : Dev) (off : Nat) : Byte :=
  let slots := d.g Reg.JNL_HDR_SLOTS_COUNT
  let free : Byte := BitVec.ofNat 8 (Config.freeValue (d.freeCtr + off))
  let newest := fun (p : JRec → Bool) => (d.acd.mirror.filter p).getLast?
  if 0x10 ≤ off ∧ off < 0x18 then (leBytes 8 d.acd.mirrorTail).getD (off - 0x10) free
  else if off < 0x100000 then free
  else if off < 0x100000 + 64 * slots then
    match newest fun r => r.seq % slots == (off - 0x100000) / 64 with
    | some r => r.header.getD (off % 64) free
    | none => free
  else
    let i := (off - 0x100000 - 64 * slots) / 4096
    let ring := d.g Reg.JNL_PAY_BLOCKS_COUNT
    match newest fun r => r.payBlocks != 0 && decide ((i + ring - r.payIdx) % ring < r.payBlocks) with
    | some r => r.payload.getD (((i + ring - r.payIdx) % ring) * 4096 + off % 4096) free
    | none => free

/-- First address of BAR0 of the function that the upstream end of a peer link presents, and of the range that the root end claims (R608). -/
def peerBase : Nat := 0x004000000000
/-- Size of that BAR: 16 GiB (R608). -/
def peerBarSize : Nat := 2 ^ 34

/-- The configuration registers of that function that the spec gives (R608): identities, class, and BAR0 as the root end has assigned it. -/
def peerCfg (off : Nat) : Word :=
  match off with
  | 0x00 => 0x204A1D7A#32
  | 0x08 => 0x05800000#32 ||| (Config.romBits 2 0x08 &&& 0xFF#32)
  | 0x10 => 0x00000004#32 ||| (Config.romBits 2 0x10 &&& 0x8#32)
  | 0x14 => BitVec.ofNat 32 (peerBase / 2 ^ 32)
  | _ => Config.romBits 2 off

/-- The offset into the peer window that an address of a peer link reaches, where the end that receives it claims it (R608). -/
def peerOffset (addr : Nat) : Option Nat := if peerBase ≤ addr ∧ addr < peerBase + peerBarSize then some (addr - peerBase) else none

/-- PEER_WINDOW_REQUEST (R608, R621): a request at an address that this end does not claim, or that table 14-5 does not allow, receives
Unsupported Request; a read of the mirror area is answered from it. -/
def Dev.peerWindowRequest (d : Dev) (write : Bool) (addr len : Nat) : Dev :=
  match peerOffset addr with
  | none => d.emit .unsupported
  | some off =>
  if d.solo then d.emit .unsupported
  else if !peerAllowed (d.g Reg.BUF_CONFIG_PA_GIB) write off len then d.emit .unsupported
  else if write || !d.peerLive then d
  else Dev.emit { d with freeCtr := d.freeCtr + 2 ^ 40 } (.replyBytes ((List.range len).map fun i => d.mirrorByte (off - 0x100000000 + i)))

/-- MESSAGE_RING_ACK: messages that waited for space are written in order (R627). -/
def Dev.pumpMsgs : Nat → Dev → Dev
  | 0, d => d
  | fuel + 1, d => match d.acd.txWait with
    | [] => d
    | m :: rest =>
      if d.ringSpace m.slots then Dev.pumpMsgs fuel (Dev.putMsg { d with acd := { d.acd with txWait := rest } } m) else d

/-- MESSAGE_RING_ACK: the partner's MSG_ACK. -/
def Dev.messageRingAck (d : Dev) (n : Nat) : Dev :=
  if !d.peerLive then d
  else Dev.pumpMsgs d.acd.txWait.length { d with acd := { d.acd with rxAck := n % 2 ^ 32 } }

/-! ### Planned transfers (R641) -/

/-- Whether member writes of this package to pools are still under way, or an operation that has yet to write is. -/
def Dev.poolWrites (d : Dev) (mask : Nat) : Bool :=
  (d.mcmds.any fun c => (c.kind == .write || c.kind == .tagWrite || c.kind == .zeroes) && mask.testBit c.pool) ||
  d.ops.any fun o => mask.testBit o.pool && (match o.kind with | .degraded _ | .scrub => false | _ => true)

/-- Whether every record of pools is acknowledged and every fetched command to them has completed (R641 steps 1 and 2). -/
def Dev.poolSettled (d : Dev) (mask : Nat) : Bool :=
  let nsIn := fun (n : Nat) => match d.nsPool n with | some (x, _) => mask.testBit x.pool | none => false
  !(d.jnl.recs.any fun r => !r.retired && mask.testBit r.pool && decide (d.g Reg.ACD_ACKED_SEQ < r.seq)) &&
  !(d.jnl.waiting.any fun w => w.recs.any fun r => mask.testBit r.pool) &&
  !(d.cmds.any fun c => c.kind != .admin && !c.detached && nsIn c.nsid)

/-- Moves the transfers that this package gives on as far as they go: OWNERSHIP, later QUIET (R641 steps 2 and 4), which
ends one that the receiver is done with. -/
def Dev.transferAdvance (d : Dev) : Dev :=
  d.acd.transfers.foldl (fun (d : Dev) t =>
    let goTo := fun (d : Dev) (n : Nat) =>
      { d with acd := { d.acd with transfers := updWhere (· == t) (fun (x : Transfer) => { x with step := n }) d.acd.transfers } }
    if !t.giver then d
    else if t.step = 1 ∧ d.poolSettled t.pools then (goTo d 2).peerSend 0x06 [t.pools, d.head]
    else if t.step = 3 ∧ !d.poolWrites t.pools then (goTo d 4).peerSend 0x08 [t.pools]
    else if t.step = 5 ∧ !d.poolWrites t.pools then
      Dev.peerSend { d with acd := { d.acd with transfers := d.acd.transfers.erase t } } 0x08 [t.pools]
    else d) d

/-- What the end of a host command, an operation or a member command may let go on: erasures and transfers. -/
def Dev.settle (d : Dev) : Dev := d.eraseAdvance.transferAdvance

/-- Refuses an ACD_ command. -/
def Dev.acdRefuse (d : Dev) : Dev := d.p Reg.ACD_STATUS_CMD_REFUSED 1

/-- ACD_OWN_CMD (R641): the owner gives pools to the partner while MIRRORING; the plinth pool and pools of the partner are refused. -/
def Dev.acdOwnCmd (d : Dev) (req : Requester) (mask : Nat) : Dev :=
  d.globalWr req Reg.ACD_OWN_CMD_POOLS (mask % 2 ^ 64 != 0) fun d =>
    let own := d.g Reg.ACD_OWN_POOLS
    let plinth := match d.arm.active with | some a => a.plinthPool | none => none
    if d.solo || mask % 2 ^ 64 = 0 then d
    else if !d.mirroring || mask % 2 ^ 64 &&& own != mask % 2 ^ 64 || plinth.any (mask.testBit ·) || mask &&& d.acd.anaChange != 0 then d.acdRefuse
    else
      let m := mask % 2 ^ 64
      let d := { d with acd := { d.acd with transfers := d.acd.transfers ++ [Transfer.mk m true 1], anaChange := d.acd.anaChange ||| m } }
      d.anaChanged.transferAdvance

/-! ### ACD_CTRL (table 14-11) -/

/-- Whether ACD_CTRL.FENCE may raise a request on a package that is JOINING without MIRROR_VALID (R645). -/
def Dev.fenceAllowed (d : Dev) : Bool :=
  match d.acd.peer with
  | some v => !v.flags.testBit 2
  | none => match d.acd.record with
    | some r => !r.formed
    | none => true

/-- ACD_FENCE (R634, R645). -/
def Dev.acdFence (d : Dev) (req : Requester) : Dev :=
  d.globalCmd req Reg.ACD_CTRL_FENCE fun d =>
    if d.acdState == 2 || (d.acdState == 1 && (d.mirrorValid || d.fenceAllowed)) then d.fenceRequest
    else if d.acdState == 1 then d.acdRefuse
    else d

/-- ACD_RELEASE (R643): an ALONE package whose ADOPTED is clear releases the fence and rejoins. -/
def Dev.acdRelease (d : Dev) (req : Requester) : Dev :=
  d.globalCmd req Reg.ACD_CTRL_RELEASE fun d =>
    if d.solo then d
    else if d.acdState == 3 && !d.on Reg.ACD_STATUS_ADOPTED then
      let d := (d.p Reg.ACD_STATUS_FENCE_OUT 0).emit (.pin "FENCE_OUT_N" true)
      Dev.startJoin { d with acd := { d.acd with request := false, lossDeclared := false, peer := none, joinSeen := false } }
    else d.acdRefuse

/-- ACD_PEER_RESET (R609): a pulse of 1 ms on PA_PERST_N, only while the partner is fenced. -/
def Dev.acdPeerReset (d : Dev) (req : Requester) : Dev :=
  d.globalCmd req Reg.ACD_CTRL_PEER_RESET fun d =>
    if d.acdState == 3 && d.on Reg.ACD_STATUS_FENCE_OUT then
      (d.emit (.pin "PA_PERST_N" false)).emit (.pin "PA_PERST_N" true)
    else d

/-- ACD_CLR_COUNTS. -/
def Dev.acdClrCounts (d : Dev) (req : Requester) : Dev :=
  d.globalCmd req Reg.ACD_CTRL_CLR_COUNTS fun d => d.setReg Reg.ACD_COUNTS_LOSSES.base 0

end Sys2Proof.Machine
end

