-- ==== Sys2Proof/Machine/AccordMsg.lean ====
section
/-!
DEFINITION. The messages of table 14-7 as the receiver processes them (R626 to R644).
-/
namespace Sys2Proof.Machine

/-- A message of a payload length is processed in sequence order, and its slots are added to MSG_ACK (R627). -/
def Dev.received (d : Dev) (len : Nat) (act : Dev → Dev) : Dev :=
  if !d.peerLive then d
  else
    let n := (d.acd.rxSlots + msgSlots len) % 2 ^ 32
    act (Dev.peerPut { d with acd := { d.acd with rxSlots := n } } 0x28 (leBytes 4 n))

/-- The mismatch that ends a join (R644), as a JOIN_ERR code. -/
def Dev.joinError (d : Dev) (j : JoinMsg) : Option Nat :=
  let ident := match d.arm.active with | some a => a.identity.toNat | none => 0
  if j.role = d.role then some 1
  else if j.pGiB ≠ d.g Reg.BUF_CONFIG_PA_GIB then some 2
  else if j.snCrc ≠ crc32c d.opt.sn ∨ j.nqnCrc ≠ crc32c d.opt.subnqn then some 3
  else if ident ≠ 0 ∧ j.identity ≠ 0 ∧ j.identity ≠ ident then some 4
  else none

/-- JOIN (R618, R643, R644): a JOIN that shows records in the partner's journal makes an ALONE package fence it again. A package that
has seen a JOIN before sends its own anew. -/
def Dev.join (d : Dev) (j : JoinMsg) : Dev :=
  d.received 40 fun d =>
    if d.acdState == 2 || d.on Reg.ACD_STATUS_FENCE_OUT then d
    else
      let d := { d with acd := { d.acd with peer := some (PeerView.mk 0 j.head 0 1 j.flags) } }
      if d.acdState == 3 && j.flags.testBit 2 then d.winFence
      else match d.joinError j with
        | some e => d.p Reg.ACD_STATUS_JOIN_ERR e
        | none =>
          let d := (d.p Reg.ACD_STATUS_JOIN_ERR 0).raiseHead j.head
          if d.acd.mute then d
          else
            let d := if d.acd.joinSeen then d.startJoin else d
            Dev.sendKeyx { d with acd := { d.acd with joinSeen := true } }

/-- The keys of a package that rejoins as the partner of a steward: the steward's copies replace every one of them (R643; log entry 118). -/
def Dev.dropCopies (d : Dev) : Dev :=
  let gone := fun (k : KeySlot) => { k with partnerDone := true }
  let d : Dev := (d.keys.slots.filter (·.st != .destroying)).foldl (fun (d : Dev) k => d.destroyKey k) d
  Dev.slotEmpties { d with keys := { d.keys with slots := d.keys.slots.map gone, wantGen := [], switching := [] } }

/-- KEYX (R629): a failed check ends the join; a good one gives the transport key of this join, and the steward sends its part. -/
def Dev.keyx (d : Dev) (verified : Bool) (certLen : Nat) : Dev :=
  d.received (195 + certLen) fun d =>
    if !d.acd.joinSeen || !(d.acdState == 1 || d.acdState == 3) then d
    else if !verified then
      Dev.p { d with acd := { d.acd with joinSeen := false } } Reg.ACD_STATUS_JOIN_ERR 5
    else
      let n := d.acd.keyxCount + 1
      let d := { d with acd := { d.acd with keyxDone := true, keyxCount := n, transport := Config.transportKey n } }
      if d.on Reg.ACD_STATUS_STEWARD then d.joinCopy else d.dropCopies

/-- Installs the partner's key in a slot of this package (R630): its 72 bytes are unwrapped with the transport key, and wrapped again under the
key-encryption key of this package. A copy of a key in use becomes ACTIVE where none is. -/
def Dev.installKey (d : Dev) (slot nsid wrapped : Nat) : Dev :=
  let other := fun (k : KeySlot) => !(k.peer == some slot && k.st != .destroying)
  let d := { d with keys := { d.keys with slots := d.keys.slots.filter other } }
  match d.freeKeySlot, unwrapKey d.acd.transport (leBytes 72 wrapped) with
  | none, _ | _, none => d.peerSend 0x04 [1, 1, slot, nsid]
  | some n, some key =>
    let s : KeySlot := ⟨n, .ready, nsid, key, wrapKey kek key, false, false, some slot, false⟩
    let d := Dev.keyRegs { d with keys := { d.keys with slots := d.keys.slots ++ [s] } }
    let d := d.emit (.vault "key area" n)
    let d := if d.hasNs nsid && !d.keys.slots.any (fun k => k.nsid == nsid && k.st == .active) then d.bindKey n else d
    d.peerSend 0x04 [1, 0, slot, nsid]

/-- Whether a slot holds the copy of the partner's key that a KEY message names: it was installed from that slot, or the partner's is the copy of
this slot's key (log entry 119). -/
def KeySlot.copyOf (k : KeySlot) (slot nsid : Nat) : Bool :=
  k.peer == some slot || (k.peer.isNone && k.nsid == nsid && (k.st == .active || k.st == .destroying))

/-- Destroys the copy of a partner's key (R331, R630): the request is the partner's own report, and KEY_DONE answers once every vault block that
held the copy is erased, or at once where there is none. A READY copy of the namespace takes its place. -/
def Dev.removeKey (d : Dev) (slot nsid : Nat) : Dev :=
  match d.keys.slots.find? fun k => k.copyOf slot nsid with
  | none => d.peerSend 0x04 [2, 0, slot, nsid]
  | some k =>
    let gone := fun (x : KeySlot) => { x with st := .destroying, key := 0, erased := x.erased && x.st == .destroying, partnerDone := true,
                                               peer := some slot, asked := true }
    let d := (d.updSlot k.slot gone).emit (.vault "key area" k.slot)
    let d := if k.erased && k.st == .destroying then (d.peerSend 0x04 [2, 0, slot, nsid]).slotEmpties.eraseAdvance else d
    if d.keys.slots.any fun x => x.nsid == nsid && x.st == .active then d
    else match d.keys.slots.find? fun x => x.nsid == nsid && x.st == .ready with
      | some x => if d.hasNs nsid then d.bindKey x.slot else d
      | none => d

/-- KEY: op 1 installs, op 2 destroys (R630). -/
def Dev.keyMsg (d : Dev) (op slot nsid key : Nat) : Dev :=
  d.received 80 fun d => if op = 1 then d.installKey slot nsid key else if op = 2 then d.removeKey slot nsid else d

/-- KEY_DONE (R327, R331, R630): an installation makes the slot READY, or is asked for anew where it was not done; a destruction
completes the partner's report. -/
def Dev.keyDone (d : Dev) (op result slot nsid : Nat) : Dev :=
  d.received 8 fun d =>
    match d.keys.slots.find? fun k => k.slot == slot && k.nsid == nsid with
    | none => d
    | some k =>
      if op = 1 then
        if k.st != .empty then d
        else if result = 0 then d.keyReady slot
        else
          let maq := !d.hasNs nsid
          Dev.wantKey { d with keys := { d.keys with slots := d.keys.slots.filter (·.slot ≠ slot) } } nsid maq
      else if op = 2 then
        ((d.updSlot slot fun x => { x with partnerDone := true }).slotEmpties).eraseAdvance
      else d

/-- MEMBER_EVENT: the steward applies the partner's member event (table 14-4). -/
def Dev.memberEventMsg (d : Dev) (m code : Nat) : Dev :=
  d.received 4 fun d => if d.on Reg.ACD_STATUS_STEWARD then d.applyEvent m code else d

/-- OWNERSHIP (R641 steps 2 and 3): the receiver adopts the giver's unretired records of the pools from its mirror area, owns the
pools, and answers OWN_ACK; with nothing adopted ADOPT_DONE follows at once. -/
def Dev.ownership (d : Dev) (pools head : Nat) : Dev :=
  d.received 16 fun d =>
    if !d.mirroring then d
    else
      let d := d.raiseHead head
      let rs := d.acd.mirror.filter fun r => !r.retired && !r.typ.isMeta && pools.testBit r.pool
      let d := d.adopt rs
      let d := d.p Reg.ACD_OWN_POOLS (d.g Reg.ACD_OWN_POOLS ||| pools)
      let d := { d with acd := { d.acd with quietWait := d.acd.quietWait ||| pools } }
      let d := ((d.saveAccord).anaChanged).peerSend 0x07 [pools]
      if rs.isEmpty then d.peerSend 0x09 [pools]
      else { d with acd := { d.acd with transfers := d.acd.transfers ++ [Transfer.mk pools false 3] } }

/-- OWN_ACK (R641 step 3). -/
def Dev.ownAck (d : Dev) (pools : Nat) : Dev :=
  d.received 8 fun d =>
    let mine := fun (t : Transfer) => t.giver && t.pools == pools && t.step == 2
    if !d.acd.transfers.any mine then d
    else
      let off := fun (v : Nat) => v - (v &&& pools)
      let d := d.p Reg.ACD_OWN_POOLS (off (d.g Reg.ACD_OWN_POOLS))
      let d := { d with acd := { d.acd with anaChange := off d.acd.anaChange,
                                             transfers := updWhere mine (fun (t : Transfer) => { t with step := 3 }) d.acd.transfers } }
      ((d.saveAccord).anaChanged).transferAdvance

/-- QUIET (R641 step 4). -/
def Dev.quiet (d : Dev) (pools : Nat) : Dev :=
  d.received 8 fun d => { d with acd := { d.acd with quietWait := d.acd.quietWait - (d.acd.quietWait &&& pools) } }

/-- ADOPT_DONE (R641 step 5, table 14-9): the giver retires the records of the pools, also after a restore; a transfer whose QUIET is still to
be sent ends with it. -/
def Dev.adoptDone (d : Dev) (pools : Nat) : Dev :=
  d.received 8 fun d =>
    if (pools &&& d.g Reg.ACD_OWN_POOLS) != 0 && !(d.acd.transfers.any fun t => t.giver && t.pools == pools) then d
    else
      let end_ := fun (t : Transfer) => if t.giver && t.pools == pools then (if t.step = 4 then [] else [{ t with step := 5 }]) else [t]
      let d := { d with acd := { d.acd with transfers := d.acd.transfers.flatMap end_ } }
      d.retire ((d.jnl.recs.filter fun r => !r.retired && !r.typ.isMeta && pools.testBit r.pool).map (·.seq))

/-- ARM_STAGE (R631): the partner validates the image against its own state and answers ARM_READY; during a join the steward's epoch
is taken as it comes (R632). -/
def Dev.armStage (d : Dev) (epoch crc : Nat) (img : List Byte) : Dev :=
  d.received 12 fun d =>
    let cx := d.valCtx img.length
    let cx := if d.acdState = 1 then { cx with active := none } else cx
    let ready := fun (d : Dev) (code : Nat) => d.peerSend 0x0B [epoch, code, bit (d.on Reg.ARM_STATUS_DRAINING), 0]
    if crc32c img ≠ crc then ready d 0x0109
    else match validateImage cx img with
      | .error e => ready d e.code
      | .ok a => ready (Dev.emit { d with acd := { d.acd with staged := some a } } (.vault "armature" a.epoch)) 0

/-- ARM_READY (R631): the steward goes on, ends the commit with the partner's code, or, in a join, sends the switch. -/
def Dev.armReadyMsg (d : Dev) (epoch code : Nat) (draining : Bool) : Dev :=
  d.received 8 fun d =>
    if d.maq == 5 && d.arm.commitStage == 1 then
      match d.arm.maquette with
      | some a => if a.epoch ≠ epoch then d else if code = 0 ∧ !draining then d.commitWrite a else d.armReject (headErr code)
      | none => d
    else if d.acd.joined && code = 0 then d.peerSend 0x0C [epoch]
    else d

/-- ARM_SWITCH (R631): the partner switches, and its vault slot counts from then on (log entry 138). -/
def Dev.armSwitch (d : Dev) (epoch : Nat) : Dev :=
  d.received 4 fun d =>
    match d.acd.staged with
    | none => d
    | some a =>
      let d := { d with acd := { d.acd with staged := none } }
      if a.epoch ≠ epoch ∨ d.epoch = epoch then d
      else
        let d := { d with arm := { d.arm with vaultSlots := AMap.put d.arm.vaultSlots d.freeVaultSlot a } }
        (d.emit (.vault "commit record" a.epoch)).switchEpoch a

/-- CKPT_DONE (table 14-4): the partner retires its metadata records that the steward's checkpoint covers. -/
def Dev.ckptDone (d : Dev) (seq : Nat) : Dev :=
  d.received 8 fun d => d.retire ((d.metaRecs.filter fun r => decide (r.seq ≤ seq)).map (·.seq))

/-- MIRROR_BAD (R625): the sender writes that record again, with a doorbell for it alone. -/
def Dev.mirrorBadMsg (d : Dev) (seq : Nat) : Dev :=
  d.received 8 fun d =>
    let d := d.inc Reg.ACD_COUNTS_MIRROR_BAD
    match d.jnl.recs.find? (·.seq = seq) with
    | some r => d.sendRecs [r] seq seq
    | none => d

/-- RESYNC_DONE (table 14-4). -/
def Dev.resyncDoneMsg (d : Dev) (m : Nat) : Dev :=
  d.received 2 fun d => { d with acd := { d.acd with resyncDone := (d.acd.resyncDone ++ [m]).eraseDups } }

/-- NS_OP (R620): the owner carries out a Format NVM or Sanitize for its pools. -/
def Dev.nsOp (d : Dev) (op nsid cdw10 cdw11 : Nat) : Dev :=
  d.received 32 fun d =>
    if op = 1 then
      d.startErase { sanitize := false, nsids := (d.nsidsOwned true).filter fun n => nsid == 0xFFFFFFFF || n == nsid,
                     ses := bitsOf cdw10 11 9, newFmt := ⟨bitsOf cdw10 3 0, bitsOf cdw10 7 5, cdw10.testBit 8⟩, step := 0, portB := false,
                     cid := 0, owPass := 0, pattern := 0, invert := false, noDealloc := false, remote := true, silent := true,
                     waiting := d.armBusy }
    else if op = 2 then
      let passes := bitsOf cdw10 7 4
      d.startErase { sanitize := true, nsids := d.nsidsOwned true, ses := if bitsOf cdw10 2 0 = 3 then 3 else 2, newFmt := ⟨0, 0, false⟩,
                     step := 0, portB := false, cid := 0, owPass := if passes = 0 then 16 else passes, pattern := cdw11 % 2 ^ 32,
                     invert := cdw10.testBit 8, noDealloc := cdw10.testBit 9, remote := true, silent := true, waiting := d.armBusy }
    else d

/-- NS_DONE (R620): an owner has answered; the command completes when every one has. -/
def Dev.nsDone (d : Dev) (op : Nat) (status : NvStatus) : Dev :=
  d.received 8 fun d =>
    let done := fun (w : NsOpWait) => if w.sanitize == (op == 2) then { w with left := w.left - 1, status := status } else w
    Dev.eraseAdvance { d with acd := { d.acd with nsOps := d.acd.nsOps.map done } }

/-- FILL_DONE (R797). -/
def Dev.fillDoneMsg (d : Dev) (pool pos group : Nat) : Dev :=
  d.received 8 fun d =>
    let d := Dev.putFills { d with arm := { d.arm with fills := d.arm.fills.filter fun x => !(x.pool == pool && x.group == group && x.pos == pos) } }
    d.writeRows (d.rowArms.map fun a => rowLine pool group a.epoch pos) .none

end Sys2Proof.Machine
end

