-- ==== Sys2Proof/Machine/Firmware.lean ====
section
/-!
DEFINITION. Management firmware (chapter 18): the image header and its checks (R736 to R739), slots and boot (R740 to R743), restarts of
the core (R733 to R735), the end of a mailbox command (R757, R758), and the in-band update path (R522 to R524, R744, R746).
-/
namespace Sys2Proof.Machine

/-! ### Images -/

/-- Whether bytes `lo` to `hi - 1` of an image are zero. -/
def zeroBytes (img : List Byte) (lo hi : Nat) : Bool := ((img.drop lo).take (hi - lo)).all (· == 0)

/-- An image's revision (table 18-2). -/
def imgRevision (img : List Byte) : Nat := leAt img 0x08 8
/-- An image's rollback counter. -/
def imgCounter (img : List Byte) : Nat := leAt img 0x10 4
/-- Whether an image has ADVANCE set (R742). -/
def imgAdvance (img : List Byte) : Bool := (leAt img 0x14 4).testBit 0

/-- Whether an image is authentic (R738): its header and ranges, the hash of its signing key as the fuses hold it (R736), the signature over the
hash of its first 256 bytes, and the hash of its payload (table 18-2). -/
def authentic (img : List Byte) : Bool :=
  let len := leAt img 0x18 8
  let uo := leAt img 0x20 8
  let ul := leAt img 0x28 8
  leAt img 0 4 == 0x57465643 && leAt img 4 2 == 1 && leAt img 6 2 == 512 && zeroBytes img 0x0C1 0x100 && zeroBytes img 0x160 0x200 &&
  decide (4096 ≤ len ∧ len ≤ 0x10000000 ∧ len ≤ img.length) && decide (512 ≤ uo ∧ uo + ul ≤ len) &&
  Config.sha384 ((img.drop 0x60).take 97) == Config.keyHash &&
  Config.ecdsaOk ((img.drop 0x60).take 97) (Config.sha384 (img.take 0x100)) ((img.drop 0x100).take 96) &&
  leAt img 0x30 48 == Config.sha384 ((img.take len).drop 512)

/-- Whether an image is admissible (R739). -/
def Dev.admissible (d : Dev) (img : List Byte) : Bool := authentic img && decide (d.mgmt.fuses ≤ imgCounter img)

/-- The UEFI driver image that an image carries (R548). -/
def imgRom (img : List Byte) : List Byte := (img.drop (leAt img 0x20 8)).take (leAt img 0x28 8)

/-! ### Slots and boot -/

/-- Firmware slot `n`, 1 to 3. -/
def Dev.fw (d : Dev) (n : Nat) : FwSlot := if n = 0 then ⟨0, [], 0⟩ else d.mgmt.slots.getD (n - 1) ⟨0, [], 0⟩

/-- Firmware slot `n` changed. -/
def Dev.updFw (d : Dev) (n : Nat) (f : FwSlot → FwSlot) : Dev := { d with mgmt := { d.mgmt with slots := updAt (n - 1) f d.mgmt.slots } }

/-- The core runs a slot's image: it is reported, and the expansion ROM copy is reloaded (R548, R740, R744). -/
def Dev.runSlot (d : Dev) (n : Nat) : Dev :=
  let img := (d.fw n).image
  let d := { d with mgmt := { d.mgmt with run := n, rom := imgRom img } }
  let d := (((d.p Reg.MBX_STATUS_CORE_UP 1).p Reg.MBX_STATUS_RECOVERY 0).p Reg.MBX_FW_REV_VALUE (imgRevision img)).p Reg.XLT_STATUS_ROM_READY 1
  d.event 0x1301 1 (leBytes 1 n ++ leBytes 8 (imgRevision img))

/-- A slot refused at boot is BAD, and logged (R741). -/
def Dev.refuseSlot (d : Dev) (n : Nat) : Dev := (d.updFw n fun x => { x with st := 2 }).event 0x1304 3 (leBytes 1 n)

/-- Tries slots in order and runs the first that is VALID and admissible; with none the core stays in recovery mode (R741, R743). -/
def Dev.tryBoot (d : Dev) : List Nat → Dev
  | [] =>
    let d := { d with mgmt := { d.mgmt with run := 0, rom := [] } }
    (((d.p Reg.MBX_STATUS_CORE_UP 0).p Reg.MBX_STATUS_RECOVERY 1).p Reg.MBX_FW_REV_VALUE 0).p Reg.XLT_STATUS_ROM_READY 0
  | n :: ns => if (d.fw n).st == 1 && d.admissible (d.fw n).image then d.runSlot n else (d.refuseSlot n).tryBoot ns

/-- The boot order: the boot slot, then the other VALID slots, ascending (R741). -/
def Dev.bootOrder (d : Dev) : List Nat := d.mgmt.boot :: [1, 2, 3].filter fun n => n != d.mgmt.boot && (d.fw n).st == 1

/-- Boots (R741). -/
def Dev.boot (d : Dev) : Dev := d.tryBoot d.bootOrder

/-- Programs the fuse rollback field once a COLD exit with the running image has reached RUN (R742). -/
def Dev.advanceFuses (d : Dev) : Dev :=
  if !d.mgmt.proven then d
  else
    let img := (d.fw d.mgmt.run).image
    let n := if d.mgmt.run != 0 && imgAdvance img then max d.mgmt.fuses (min 64 (imgCounter img)) else d.mgmt.fuses
    { d with mgmt := { d.mgmt with fuses := n, proven := false } }

/-! ### The mailbox -/

/-- A mailbox command ends (R758). -/
def Dev.mbxEnd (d : Dev) (status outLen : Nat) : Dev :=
  let d := (((d.p Reg.MBX_STATUS_BUSY 0).p Reg.MBX_STATUS_DONE 1).p Reg.MBX_STATUS_STATUS status).p Reg.MBX_STATUS_OUT_LEN outLen
  if d.on Reg.MBX_IRQ_EN then d.irqPrimary (d.g Reg.MBX_IRQ_VECTOR) else d

/-- The mailbox buffer's first `n` bytes. -/
def Dev.mbxIn (d : Dev) (n : Nat) : List Byte :=
  ((List.range (ceilDiv n 4)).flatMap fun i => leBytes 4 (d.gi Reg.MBX_BUF_DATA i)).take n

/-- Writes output into the mailbox buffer; bytes beyond it in the last word keep their values. -/
def Dev.mbxOut (d : Dev) (bytes : List Byte) : Dev :=
  (List.range (ceilDiv bytes.length 4)).foldl (fun (d : Dev) i =>
    let old := leBytes 4 (d.gi Reg.MBX_BUF_DATA i)
    let new := (bytes.drop (4 * i)).take 4
    d.pi Reg.MBX_BUF_DATA i (leNat (new ++ old.drop new.length))) d

/-! ### Restarts of the core (R735) -/

/-- The core alone restarts: a mailbox command and a PLDM update in progress end (R733), and the running slot is checked and run again,
or the boot order follows. Cause 0 watchdog, 1 firmware data error. -/
def Dev.coreRestart (d : Dev) (cause : Nat) : Dev :=
  let d := if d.on Reg.MBX_STATUS_BUSY then d.mbxEnd 5 0 else d
  let d := { d with mgmt := { d.mgmt with pldm := none, proven := false } }
  let d := d.event 0x1302 3 (leBytes 1 cause)
  let n := d.mgmt.run
  if n != 0 && d.admissible (d.fw n).image && (d.fw n).st == 1 then d.runSlot n
  else (d.event 0x1302 3 (leBytes 1 2)).boot

/-! ### Updates -/

/-- The slot an update takes by itself: neither the running nor the boot slot, and written least recently (R745). -/
def Dev.updateSlot (d : Dev) : Nat :=
  let cands := [1, 2, 3].filter fun n => n != d.mgmt.run && n != d.mgmt.boot
  (cands.foldl (fun (b : Option Nat) n => match b with
    | none => some n
    | some x => if (d.fw n).stamp < (d.fw x).stamp then some n else some x) none).getD 1

/-- Writes an image into a slot and reads it back: VALID when admissible, otherwise BAD (R740). -/
def Dev.writeSlot (d : Dev) (n : Nat) (img : List Byte) : Dev :=
  let t := d.mgmt.stamp + 1
  let st := if d.admissible img then 1 else 2
  let d := (d.updFw n fun _ => ⟨st, img, t⟩).emit (.vault "firmware slot" n)
  (Dev.program { d with mgmt := { d.mgmt with stamp := t } } img.length)

/-- The image that the downloaded pieces make. -/
def downloaded (ps : List (Nat × List Byte)) : List Byte :=
  ps.foldl (fun img p =>
    let pad := img ++ List.replicate (p.1 - img.length) 0
    pad.take p.1 ++ p.2 ++ pad.drop (p.1 + p.2.length)) []

/-- FIRMWARE_IMAGE_DOWNLOAD (R523, R744): a piece aligned to 4 KiB within the 256 MiB buffer. While the core does not run the command is
held (R733); a sanitize refuses it (R515, log entry 135). -/
def Dev.firmwareImageDownload (d : Dev) (portB : Bool) (cid off : Nat) (bytes : List Byte) : Dev :=
  if !d.on Reg.MBX_STATUS_CORE_UP then d
  else d.fetchedAdmin portB cid fun d =>
    if d.sanitizing then d.adminDone portB cid .sanitizeInProgress 0 0
    else if off % 4096 ≠ 0 ∨ bytes.length % 4096 ≠ 0 ∨ bytes = [] ∨ 0x10000000 < off + bytes.length then d.adminDone portB cid .invalidField 0 0
    else Dev.adminDone { d with mgmt := { d.mgmt with download := d.mgmt.download ++ [(off, bytes)] } } portB cid .success 0 0

/-- The status that ends a commit of an image that is not admissible (R523). -/
def Dev.imageStatus (img : List Byte) : NvStatus := if authentic img then .firmwareActivationProhibited else .invalidFirmwareImage

/-- The activation a commit asks for: at the next controller reset (actions 1, 2), or at once (action 3) (R522, R744). -/
def Dev.commitSlot (d : Dev) (portB : Bool) (cid n action : Nat) : Dev :=
  if !((d.fw n).st == 1 && d.admissible (d.fw n).image) then d.adminDone portB cid (Dev.imageStatus (d.fw n).image) 0 0
  else if action = 0 then d.adminDone portB cid .success 0 0
  else
    let d := Dev.emit { d with mgmt := { d.mgmt with boot := n } } (.vault "directory" n)
    if action = 3 then { d with mgmt := { d.mgmt with act := some ⟨n, some (portB, cid)⟩ } }
    else Dev.adminDone { d with mgmt := { d.mgmt with pending := some n } } portB cid .success 0 0

/-- A Firmware Commit that need not wait (R523, R744, table 18-3): actions 0, 1 and 3 write the downloaded image, 3 without one and 2 use
the slot's image. -/
def Dev.fwCommit (d : Dev) (portB : Bool) (cid slot action : Nat) : Dev :=
  if d.mgmt.pldm.isSome then d.adminDone portB cid .firmwareActivationProhibited 0 0
  else if 3 < action then d.adminDone portB cid .invalidField 0 0
  else if 3 < slot then d.adminDone portB cid .invalidFirmwareSlot 0 0
  else
    let n := if slot = 0 then d.updateSlot else slot
    let img := downloaded d.mgmt.download
    if action = 2 || (action = 3 && img.isEmpty) then d.commitSlot portB cid n action
    else
      let d := { d with mgmt := { d.mgmt with download := [] } }
      if img.isEmpty then d.adminDone portB cid .invalidFirmwareImage 0 0
      else (d.writeSlot n img).commitSlot portB cid n action

/-- FIRMWARE_COMMIT: held while the core does not run, and waiting while a sanitize or a format runs (R524, R733). -/
def Dev.firmwareCommit (d : Dev) (portB : Bool) (cid slot action : Nat) : Dev :=
  if !d.on Reg.MBX_STATUS_CORE_UP then d
  else d.fetchedAdmin portB cid fun d =>
    if d.nvm.erases.isEmpty then d.fwCommit portB cid slot action
    else { d with mgmt := { d.mgmt with waiting := d.mgmt.waiting ++ [(portB, cid, slot, action)] } }

/-- Commits that waited for an erasure go on when none is left (R524), in order, until one begins an activation. -/
def Dev.fwAdvanceN : Nat → Dev → Dev
  | 0, d => d
  | fuel + 1, d =>
    if !d.nvm.erases.isEmpty || d.mgmt.act.isSome then d
    else match d.mgmt.waiting with
      | [] => d
      | (b, cid, slot, action) :: rest =>
        Dev.fwAdvanceN fuel (Dev.fwCommit { d with mgmt := { d.mgmt with waiting := rest } } b cid slot action)

/-- Commits that waited go on. -/
def Dev.fwAdvance (d : Dev) : Dev := Dev.fwAdvanceN d.mgmt.waiting.length d

/-- The new image takes over where it is still admissible; a slot that is not is refused (R739). -/
def Dev.takeOver (d : Dev) (n : Nat) : Dev :=
  let d := { d with mgmt := { d.mgmt with proven := false } }
  if (d.fw n).st == 1 && d.admissible (d.fw n).image then d.runSlot n else d.refuseSlot n

/-- A power state asked for during an activation begins (R524). -/
def Dev.powerLater (d : Dev) (portB : Bool) : Dev :=
  match (d.ctl portB).psWait with
  | some ps => (d.updCtl portB fun x => { x with psWait := none }).setPower portB ps
  | none => d

/-- FW_ACTIVATION (R522): the fetched commands have completed, so the new image takes over and fetching resumes; the Firmware Commit that
asked for it completes. -/
def Dev.fwActivation (d : Dev) : Dev :=
  match d.mgmt.act with
  | none => d
  | some a =>
    if !d.nvm.erases.isEmpty || d.cmds.any (!·.detached) then d
    else
      let d := (Dev.takeOver { d with mgmt := { d.mgmt with act := none } } a.slot)
      let d := match a.cmd with
        | some (b, cid) => d.adminDone b cid .success 0 0
        | none => d
      (d.powerLater false).powerLater true

/-- What the end of host, internal or member work lets go on: erasures, transfers, and commits that waited for them. -/
def Dev.settleAll (d : Dev) : Dev := d.settle.fwAdvance

end Sys2Proof.Machine
end

