-- ==== Sys2Proof/Machine/Reset.lean ====
section
/-!
DEFINITION. Package resets (chapter 16): what WARM and COLD clear and keep (R690, tables 10-7, 11-10, 16-3), the seal (table 15-5), reset
sources with their reach (R679 to R683), overlapping sources (R693 to R699), and the fence's FENCED state (R636, R642).
-/
namespace Sys2Proof.Machine

/-! ### Blank parts -/

/-- A controller in its reset state but for its saved features. -/
def NvmeCtl.blank : NvmeCtl :=
  ⟨false, false, false, 0, 0, 0, [], [], [], [], [], [], 0, 0, 0, List.replicate 32 0, false, none, [], [], true, none⟩

/-- A region without power. -/
def Region.blank : Region := ⟨.off, [], [], [], [], 0, 0, 0, 0, 0, 0, false⟩

/-- The codec fabric with every region off. -/
def Fab.blank : Fab := ⟨List.replicate 8 Region.blank, List.replicate 32 ⟨true, 0, 15⟩, [], [false, false], [], [], [0, 0], [], [], []⟩

/-- A journal engine with nothing in the protected area. -/
def Jnl.blank (j : JCkpt) (e : ECkpt) : Jnl :=
  { recs := [], groups := [], waiting := [], payNext := 0, lost := [], flushes := [], lastAdmitUs := 0, cb := List.replicate 64 0,
    ckpt := none, jckpt := j, eckpt := e, rewrite := [], disagree := [], marked := [], readers := [], idle := false, settled := [],
    fixing := [] }

/-- Sillage with nothing under way. -/
def Sil.blank : Sil := ⟨none, 0, [], [], [], [], 0, [], []⟩

/-- The accord engine with nothing known of the partner. -/
def Acd.blank (r : Option AcdRecord) : Acd :=
  { record := r, txSeq := 0, txSlots := 0, rxAck := 0, txWait := [], rxSlots := 0, hbCount := 0, peer := none, lossDeclared := false,
    holdoff := false, request := false, fenced := false, fenceInPlace := false, mute := false, joinSeen := false, keyxDone := false,
    keyxCount := 0, transport := 0, joined := false, sentTo := 0, nextB := false, staged := none, mirror := [], doorbells := [], ackedIn := 0, mirrorTail := 0, mirrorBad := [],
    applied := 0, adopted := [], quietWait := 0, drainUs := none, drainPools := 0, transfers := [], anaChange := 0, nsOps := [],
    resyncDone := [] }

/-- The codec work queues and channels with nothing in them. -/
def Cwq.blank : Cwq := ⟨[], [], [], [], [], [], [], [], [], 0, none⟩

/-- A host port whose functions are in their reset state. -/
def HPort.blank (perst : Bool) : HPort := ⟨Fn.blank, Fn.blank, perst, false, [], [], []⟩

/-- The options before a load (R705). -/
def Opts.blank : Opts := ⟨[], 0, 0, 0, 0, 0, 0, 0, 0, 0, 0, 0, 0, [], []⟩

/-! ### Registers through resets -/

/-- A register value with the fields of a reach level and narrower at their initial values (R26). -/
def resetReg (r : RegDesc) (rank : Nat) (v : Nat) : Nat :=
  r.fields.foldl (fun v f => if f.level.rank ≤ rank then setBits v f.hi f.lo f.init else v) v

/-- Whether a reset of a rank restores a register, so that its holding latches are reloaded (R8). -/
def restores (rank : Nat) (sel : Nat → Bool) (home : Nat) : Bool :=
  let a := if portBOffset ≤ home then home - portBOffset else home
  match findReg a regTable with
  | some (r, _) => sel a && r.fields.any fun f => decide (f.level.rank ≤ rank)
  | none => false

/-- Returns the fields of every register in `sel` with an Init level at or below a rank to their initial values. -/
def Dev.initRegs (d : Dev) (rank : Nat) (sel : Nat → Bool) : Dev :=
  let d := { d with bus := { d.bus with wlatch := d.bus.wlatch.filter fun x => !restores rank sel x.2.1 } }
  d.regs.foldl (fun (d : Dev) x =>
    let a := if portBOffset ≤ x.1 then x.1 - portBOffset else x.1
    match findReg a regTable with
    | some (r, _) => if sel a then d.setReg x.1 (BitVec.ofNat 64 (resetReg r rank x.2.toNat)) else d
    | none => d) d

/-! ### The seal (R653, R654, table 15-5) -/

/-- Seals the journal; a seal outside RUN, in a replay or a WARM reset before it, keeps every group that passes its checks (R654). -/
def Dev.seal (d : Dev) : Dev :=
  let seq := if d.running then d.head else 2 ^ 64 - 1
  let d := d.putCtrl d.jnl.cbTail seq (1 + 2 * bit d.mirroring + 4 * bit d.mirrorValid) d.jnl.cbJckpt d.jnl.cbEckpt
  let d := { d with rst := { d.rst with journalLive := false }, vlt := { d.vlt with assertUs := d.now, dumpDone := false, marginFrom := none } }
  ((d.p Reg.JNL_STATUS_STATE 3).p Reg.VLT_STATUS_DUMPING 1).p Reg.BUF_STATUS_SCRUB_PAUSED 1

/-- Dump generation `i`. -/
def Dev.gen (d : Dev) (i : Nat) : DumpGen := if i = 0 then d.vlt.gen0 else d.vlt.gen1

/-- Dump generation `i` replaced; the directory records it (R650). -/
def Dev.putGen (d : Dev) (i : Nat) (g : DumpGen) : Dev :=
  Dev.emit (if i = 0 then { d with vlt := { d.vlt with gen0 := g } } else { d with vlt := { d.vlt with gen1 := g } }) (.vault "directory" g.num)

/-- The generation with the highest dump number. -/
def Dev.newestGen (d : Dev) : Nat := if d.vlt.gen0.num < d.vlt.gen1.num then 1 else 0

/-- A dump under way ends early: its generation stays WRITING (table 15-10, R775). -/
def Dev.failDump (d : Dev) : Dev :=
  if !d.on Reg.VLT_STATUS_DUMPING then d
  else
    let n := d.newestGen
    (d.putGen (1 - n) ⟨(d.gen n).num + 1, .writing, [], [], [], none⟩).p Reg.VLT_STATUS_DUMPING 0

/-! ### What a package reset clears -/

/-- A sanitize or format goes on after any reset from the step it had reached; an overwrite pass under way is done again (R514), and
no completion is posted (table 11-10). A wait for the armature's drain is over. -/
def Dev.keepErases (d : Dev) : List Erase :=
  let redo := d.ops.any fun o => match o.kind with | .overwrite _ => true | _ => false
  let again := fun (e : Erase) => redo && e.sanitize && e.step == 2
  d.nvm.erases.map fun (e : Erase) =>
    { e with silent := true, waiting := false, owPass := if again e then e.owPass + 1 else e.owPass,
             pattern := if again e && e.invert then 0xFFFFFFFF - e.pattern else e.pattern }

/-- A member through a package reset: what it was matched to is found anew, and its state comes back with replay (R253); its DRL is kept
in the vault (R280). -/
def Mbr.afterReset (x : Mbr) : Mbr := { Mbr.blank with drl := x.drl }

/-- An extent or run of slots whose zeroing a reset stops starts again from its first LBA (R309). -/
def ZeroJob.restart (z : ZeroJob) : ZeroJob := if z.finished then z else { z with issued := none, done := 0 }

/-- A commit whose record is durable, and which waited for the visibility of its rows alone, switches before a reset (R135, table 3-16). -/
def Dev.finishCommit (d : Dev) : Dev :=
  match d.arm.maquette with
  | some a => if d.arm.commitStage = 4 then d.commitSwitch a else d
  | none => d

/-- What WARM and COLD both end: operations, locks, commands, the maquette (R801), discovery and links. -/
def Dev.dropInternal (d : Dev) : Dev :=
  let d := d.finishCommit
  let erases := d.keepErases
  let d := (d.ctlReset false).ctlReset true
  let down := fun (l : MLink) => { l with up := false }
  let d := { d with ops := [], locks := [], setWait := [], mcmds := [], cmds := [], disc := [], sil := Sil.blank,
                    mbrs := d.mbrs.map Mbr.afterReset,
                    nvm := { d.nvm with erases := erases },
                    arm := { d.arm with commitStage := 0, loadAddr := 0, zeroing := d.arm.zeroing.map ZeroJob.restart, fixes := [] },
                    mport := { d.mport with links := d.mport.links.map down, enumLeft := [], fmt := none,
                                            sqTails := [] },
                    mgmt := { d.mgmt with act := none, waiting := [], pldm := none, download := [], eid := 0, base := 0, extra := false,
                                          lowRuns := 0, therm := [], rails := [] },
                    vlt := { d.vlt with dumpDone := false, resuming := false } }
  ((d.dropMaquette).destroyRemoved).restartKeys

/-- Table 10-7, WARM: the programs that run end INTERRUPTED, their completions held in the completion stores; queues keep their
configuration, indices and sequence numbers; enabled SQs come out QUIESCED. -/
def Dev.cwqWarm (d : Dev) : Dev :=
  let mute := fun (d : Dev) (b : Bool) => d.updFn b 1 fun x => { x with bme := false }
  let d := mute (mute d false) true
  let d : Dev := (d.cwq.chans.map (·.1)).foldl (fun (d : Dev) ch => d.chanReset ch 4) d
  let waits := d.cwq.cqs.flatMap fun x => x.2.waiting.map fun (c : CqCpl) => { c with chan := none }
  let empty := fun (c : CqSt) => { c with waiting := [], pending := 0 }
  let d := { d with cwq := { d.cwq with cqs := d.cwq.cqs.map fun x => (x.1, empty x.2) } }
  let d : Dev := waits.foldl (fun (d : Dev) c => d.cqPost c) d
  let clean := fun (s : SqSt) => { s with fetched := [], started := [], held := none, dirty := true }
  let on := (d.cwq.sqs.map (·.1)).filter fun q => d.sqState q == 1 || d.sqState q == 2
  let d : Dev := on.foldl (fun (d : Dev) q => d.pi Reg.CWQ_SQ_STATUS_STATE q 3) d
  { d with cwq := { d.cwq with chans := [], waiters := [], staging := [], grant := none, sqs := d.cwq.sqs.map fun x => (x.1, clean x.2) } }

/-- Every CWQ_ register and queue returns to its initial state, and no completion is posted (table 10-7: COLD, or source 16). -/
def Dev.cwqWipe (d : Dev) : Dev :=
  let cwq := fun (a : Nat) => decide (0xA0000 ≤ a ∧ a < 0xC0000 ∨ 0x100000 ≤ a ∧ a < 0x102000)
  Dev.initRegs { d with cwq := Cwq.blank } 5 cwq

/-- What WARM leaves (R690): HBM with the journal and the mirror area, the backup domain, pins, retired units, and fields whose Init level
is COLD. -/
def Dev.warmState (d : Dev) : Dev :=
  let d := d.cwqWarm.dropInternal
  let off := fun (r : Region) => { r with power := .off, elb := [], tree := [], fills := [], fillWait := [], forRead := false }
  let acd := Acd.blank d.acd.record
  let d := { d with
    jnl := { d.jnl with waiting := [], flushes := [], readers := [], ckpt := none, rewrite := [], disagree := [], marked := [], settled := [], fixing := [] }
    fab := { Fab.blank with regions := d.fab.regions.map off, retired := d.fab.retired, offline := d.fab.offline }
    acd := { acd with mirror := d.acd.mirror, mirrorTail := d.acd.mirrorTail, mirrorBad := d.acd.mirrorBad, adopted := d.acd.adopted }
    ports := ⟨HPort.blank d.ports.a.perst, HPort.blank d.ports.b.perst⟩ }
  d.initRegs 4 fun _ => true

/-- The armature that a COLD exit takes as active (R146): that of the newer valid vault slot, which is the one whose epoch follows the other's;
with none, the plinth's is taken at replay. -/
def Dev.vaultArmature (d : Dev) : Option Armature :=
  let as := d.arm.vaultSlots.map (·.2)
  match as.find? fun a => as.any fun b => b.epoch == prevEpoch a.epoch with
  | some a => some a
  | none => as.head?

/-- What COLD leaves (R690): the vault, fuses, the backup domain and pins; HBM's contents are lost. Keys are read from the vault's key area
(R325), and only the vault's epoch is live (R146). -/
def Dev.coldState (d : Dev) : Dev :=
  let dropped := d.g Reg.LOG_DROPPED_VALUE
  let d := d.dropInternal
  let d := { d with arm := { d.arm with active := d.vaultArmature, draining := none }, keys := { d.keys with binds := [] } }
  let d := if d.on Reg.ACD_STATUS_FENCE_OUT then d.emit (.pin "FENCE_OUT_N" true) else d
  let d := { d with
    jnl := Jnl.blank d.jnl.jckpt d.jnl.eckpt
    fab := Fab.blank, acd := Acd.blank d.acd.record, cwq := Cwq.blank, badHost := [], scrubLine := 0, opt := Opts.blank
    ports := ⟨HPort.blank d.ports.a.perst, HPort.blank d.ports.b.perst⟩
    mport := { d.mport with mperst := true, slotsOff := [], slotQueue := [], batching := false }
    mgmt := { d.mgmt with config := [], i3c := false, rom := [], run := 0, proven := false, thermPeak := [], railLow := [], tid := 0,
                          oddUs := 0, avsStop := false, vcdOld := none }
    vlt := { d.vlt with chosen := none } }
  let ctl := fun (b : Bool) => { NvmeCtl.blank with feats := d.savedFeats b, apst := d.savedApst b,
                                                    pstate := (d.ctl b).pstate, lastOp := (d.ctl b).lastOp }
  let d := { d with ctlA := ctl false, ctlB := ctl true }
  ((d.emit (.pin "MPERST_N" false)).initRegs 5 fun _ => true).logRegs.keyRegs.p Reg.LOG_DROPPED_VALUE dropped

/-! ### Sources and their reach -/

/-- A source's entry of the fuse table (R680). -/
def Dev.fuseCode (d : Dev) (s : Nat) : Nat :=
  let t := d.gi Reg.RST_FUSE_REACH 0 + d.gi Reg.RST_FUSE_REACH 1 * 2 ^ 32 + d.gi Reg.RST_FUSE_REACH 2 * 2 ^ 64
  let c := bitsOf t (3 * s + 2) (3 * s)
  if c = 7 then 5 else c

/-- The home level of a block source: 3 die, 2 region, 1 cluster (table 16-1). -/
def homeLevel (s : Nat) : Nat := if s = 19 ∨ s = 20 then 3 else if s = 21 ∨ s = 22 then 2 else 1

/-- The reach of a source, as a code of R680 with the adjustments of R681: 4 WARM, 5 COLD, 6 NONE, below 4 a block level. -/
def Dev.reachOf (d : Dev) (s : Nat) : Nat :=
  let c := d.fuseCode s
  if 19 ≤ s then (if c = 6 ∨ c < homeLevel s then homeLevel s else c)
  else if s = 0 ∨ s = 7 then 5
  else if c = 6 then (if s = 2 ∨ s = 3 ∨ s = 4 ∨ s = 9 then 6 else 4)
  else if c < 4 then 4
  else c

/-- Sources that are pulses, or stay active only until the reset they caused begins to exit (R679). -/
def pulseSource (s : Nat) : Bool := [5, 9, 10, 11, 13, 14, 15, 16, 17, 21, 22, 23, 24, 20].contains s

/-- Whether an active source of reach WARM or wider holds the package in reset; a pulse ends as the exit begins. -/
def Dev.holding (d : Dev) : Bool := d.rst.active.any fun s => !pulseSource s && (d.reachOf s == 4 || d.reachOf s == 5)

/-- Drives SYS_RST_N. -/
def Dev.sysRst (d : Dev) (low : Bool) : Dev :=
  if d.rst.pinLow = low then d
  else Dev.emit { d with rst := { d.rst with pinLow := low, pinFreeUs := if low then 0 else d.now + 10 } } (.pin "SYS_RST_N" (!low))

/-- A source is active. -/
def Dev.activate (d : Dev) (s : Nat) : Dev :=
  { d with rst := { d.rst with active := (d.rst.active ++ [s]).eraseDups, seen := (d.rst.seen ++ [s]).eraseDups } }

/-- A source is no longer active. -/
def Dev.deactivate (d : Dev) (s : Nat) : Dev := { d with rst := { d.rst with active := d.rst.active.filter (· ≠ s) } }

/-- A package reset begins (R689, R700): the counter moves, SYS_RST_N is driven, and what its reach clears is cleared. Every source that
is active now is recorded (R696). -/
def Dev.beginReset (d : Dev) (r : Nat) (dumped : Bool) : Dev :=
  let d := d.p Reg.RST_COUNT_COUNT ((d.g Reg.RST_COUNT_COUNT + 1) % 2 ^ 32)
  let opt := d.rst.loading
  let d := { d with rst := { d.rst with reach := r, seen := d.rst.active, step := 0, optLoad := opt, dumped := dumped, pendingCold := false,
                                         stretch := true, loading := false, blocks := [] } }
  let d := if r = 5 then d.coldState else d.warmState
  d.sysRst true

/-- A held WARM reset becomes COLD (R696). -/
def Dev.widen (d : Dev) (dumped : Bool) : Dev :=
  Dev.coldState { d with rst := { d.rst with reach := 5, dumped := dumped, pendingCold := false } }

/-- The COLD reset that waited for a seal and dump, or need not wait (R693). -/
def Dev.goCold (d : Dev) (dumped : Bool) : Dev := if d.rst.reach = 0 then d.beginReset 5 dumped else d.widen dumped

/-- A package source of reach WARM or COLD becomes active (R693, R695, R696, R699). -/
def Dev.raise (d : Dev) (s r : Nat) : Dev :=
  let known := d.rst.active.contains s
  let hard := s == 0 || s == 7
  let d := d.activate s
  if d.rst.pendingCold then (if hard || s = 8 then d.failDump.goCold false else d)
  else if d.rst.reach = 0 then
    if r = 5 && !hard && d.rst.journalLive then Dev.seal { d with rst := { d.rst with pendingCold := true } }
    else (if hard || s = 8 then d.failDump else d).beginReset r false
  else if d.rst.step = 0 then
    if r = 5 && d.rst.reach = 4 then
      if !hard && d.rst.journalLive then Dev.seal { d with rst := { d.rst with pendingCold := true } }
      else (if hard then d.failDump else d).widen false
    else d
  else if known then d
  else d.beginReset 5 false

/-- A package source becomes active: its reset, or, with reach NONE, a log record (R682). A source of reach NONE that is active while a
reset is held is recorded with it (R696). -/
def Dev.raiseSource (d : Dev) (s : Nat) : Dev :=
  let r := d.reachOf s
  if r = 6 then (d.activate s).event 0x1103 1 (leBytes 1 s) else d.raise s r

/-! ### FENCED (R636, R642) -/

/-- The links of a fenced package are Disabled (R636). -/
def Dev.disableLinks (d : Dev) : Dev :=
  let up := (List.range 48).filter fun l => (d.link l).up
  up.foldl (fun (d : Dev) l => (d.updLink l fun x => { x with up := false }).emit (.memberReset 2 l)) d

/-- A package whose fenced bit is set becomes FENCED: no I/O, MIRROR_VALID clear, its record written, source 12 active (R612, R636). -/
def Dev.enterFenced (d : Dev) : Dev :=
  let d := (d.p Reg.ACD_STATUS_STATE 4).p Reg.ACD_STATUS_MIRROR_VALID 0
  let d := { d with acd := { d.acd with fenced := true, txWait := [], request := false, holdoff := false },
                    rst := { d.rst with fencedBit := true } }
  (d.disableLinks.saveAccord).raiseSource 12

/-- FENCE_IN_ASSERT: FENCE_IN_N is low; the arbiter decides (R634). A SOLO package ignores the pin (R603). -/
def Dev.fenceInAssert (d : Dev) : Dev :=
  let d := d.p Reg.ACD_STATUS_FENCE_IN 1
  if d.solo then d
  else
    let d := d.arbiter
    if d.acd.fenced && d.acdState != 4 then d.enterFenced else d

/-- A fenced package leaves FENCED: its journal, mirror area, dumps and keys are discarded, and it owns no pool (R642, table 14-9). -/
def Dev.leaveFenced (d : Dev) : Dev :=
  let drop := fun (d : Dev) (i : Nat) => if (d.gen i).st == .valid then d.putGen i { d.gen i with st := .consumed } else d
  let d := drop (drop d 0) 1
  let d := { d with jnl := Jnl.blank d.jnl.jckpt d.jnl.eckpt,
                    acd := Acd.blank (d.acd.record.map fun (r : AcdRecord) =>
                      { r with state := 1, steward := false, pools := 0, mirrorValid := false, adopted := false }),
                    keys := { d.keys with slots := [], wantGen := [], switching := [] },
                    rst := { d.rst with fencedBit := false, journalLive := false } }
  let d := ((d.p Reg.ACD_STATUS_STATE 1).p Reg.ACD_STATUS_STEWARD 0).p Reg.ACD_OWN_POOLS 0
  let d := (d.p Reg.ACD_STATUS_MIRROR_VALID 0).p Reg.ACD_STATUS_ADOPTED 0
  ((d.emit (.vault "key area" 0)).emit (.vault "accord record" 0)).keyRegs.deactivate 12

/-- FENCE_IN_RELEASE: FENCE_IN_N is high. A package that is FENCED leaves it (R642). -/
def Dev.fenceInRelease (d : Dev) : Dev :=
  let d := d.p Reg.ACD_STATUS_FENCE_IN 0
  if d.rst.fencedBit || d.rst.active.contains 12 then d.leaveFenced else d

/-! ### Rows that raise package sources -/

/-- POWER_ON (R679): supplies come up after main power was lost; source 0 holds a COLD reset. `bkp` says that the backup domain kept its
state (R702, R715). -/
def Dev.powerOn (d : Dev) (bkp : Bool) : Dev :=
  let d := d.failDump
  let d := { d with log := { d.log with tail := [], droppedSince := 0 }, now := 0,
                    rst := { d.rst with active := [], step := 0, pendingCold := false, loading := false, pinLow := false, pinFreeUs := 0, reach := 0 },
                    vlt := { d.vlt with pwrLow := false, marginFrom := none, nandOff := true } }
  let d := if bkp then d
    else
      let d : Dev := (List.range 8).foldl (fun (d : Dev) i => d.pi Reg.RST_HIST_ENTRY i 0) d
      Dev.p { d with rst := { d.rst with journalLive := false, fencedBit := false, pattern := false },
                     vlt := { d.vlt with margin := none } } Reg.RST_COUNT_COUNT 0
  (d.activate 0).beginReset 5 false

/-- SYS_RST_N_ASSERT: the input has read low for 1 µs; it is ignored while the device drives the pin, and for 10 µs after (R689). -/
def Dev.sysRstAssert (d : Dev) : Dev := if d.rst.pinLow || decide (d.now < d.rst.pinFreeUs) then d else d.raiseSource 1

/-- SYS_RST_STRETCH_EXPIRY: 2.0 ms after a package reset began (R689). -/
def Dev.stretchExpiry (d : Dev) : Dev :=
  if d.rst.reach = 0 ∨ d.rst.step ≠ 0 ∨ !d.rst.stretch then d
  else
    let past := fun (s : Nat) => [0, 1, 4, 8].contains s
    let d := { d with rst := { d.rst with stretch := false, active := d.rst.active.filter fun s => !past s } }
    if d.holding then d else d.sysRst false

/-- A write of RST_CTRL: it acts only with the key (table 16-9). -/
def Dev.rstCtrl (d : Dev) (req : Requester) (key : Nat) (act : Dev → Dev) : Dev :=
  d.globalCmd req Reg.RST_CTRL_OP fun d => if key = 0x5EA1 then act d else d

/-- SOFTWARE_WARM: OP 1. -/
def Dev.softwareWarm (d : Dev) (req : Requester) (key : Nat) : Dev := d.rstCtrl req key fun d => d.raiseSource 10

/-- SOFTWARE_COLD: OP 2; a live journal is sealed and dumped first (R693). -/
def Dev.softwareCold (d : Dev) (req : Requester) (key : Nat) : Dev := d.rstCtrl req key fun d => d.raiseSource 11

/-- RST_CLR_HIST (R700). -/
def Dev.rstClrHist (d : Dev) (req : Requester) (key : Nat) : Dev :=
  d.rstCtrl req key fun d => (List.range 8).foldl (fun (d : Dev) i => d.pi Reg.RST_HIST_ENTRY i 0) d

/-- PEER_PERST: never active in a SOLO package (R603); with reach NONE the PB link is reset (R682). -/
def Dev.peerPerst (d : Dev) : Dev :=
  if !d.opt.flags.testBit 2 then d
  else if d.reachOf 4 = 6 then ((d.raiseSource 4).deactivate 4).peerLinkDown true
  else d.raiseSource 4

/-- IOD_PLL_LOCK_LOSS (R711, R775). -/
def Dev.iodPllLockLoss (d : Dev) : Dev := d.raiseSource 8

/-- MGMT_WATCHDOG (R734): with reach NONE the core alone restarts (R682). -/
def Dev.mgmtWatchdog (d : Dev) : Dev :=
  if d.reachOf 9 = 6 then
    let d := (d.raiseSource 9).deactivate 9
    if d.rst.reach = 0 then d.coreRestart 0 else d
  else d.raiseSource 9

/-- NVM_SUBSYSTEM_RESET (R521): source 5; both controllers of the package reset. -/
def Dev.nvmSubsystemReset (d : Dev) : Dev := (((d.ctlReset false).ctlReset true).eraseAdvance).raiseSource 5

/-- HOST_PORT_RESET (R561, R717): both functions of the port reset; its source is active while PERST is low, and a pulse otherwise. -/
def Dev.hostPortReset (d : Dev) (portB perst : Bool) : Dev :=
  let s := if portB then 3 else 2
  let d := d.portDown portB
  let d := if perst then d.updPort portB fun p => { p with perst := true } else d
  let d := d.raiseSource s
  if perst then d else d.deactivate s

/-- HOST_PERST_RELEASE (R717): the port powers up and its link trains, unless the package is held in reset. -/
def Dev.hostPerstRelease (d : Dev) (portB : Bool) (link : Option (Nat × Nat × Bool)) : Dev :=
  let d := (d.updPort portB fun p => { p with perst := false }).deactivate (if portB then 3 else 2)
  match link with
  | some (sp, w, fl) => if d.rst.reach = 0 then d.portUp portB sp w fl else d
  | none => d

/-- PORT_PLL_LOCK_LOSS: a link goes down, and no package source is raised (R713). Domains 4 and 5 are the host ports, 6 and 7 the peer
ports, 8 to 13 the member groups (table 17-1). -/
def Dev.portPllLockLoss (d : Dev) (clock : Nat) : Dev :=
  if clock = 4 ∨ clock = 5 then d.portDown (clock == 5)
  else if clock = 6 ∨ clock = 7 then d.peerLinkDown (clock == 7)
  else if 8 ≤ clock ∧ clock ≤ 13 then
    ((List.range 8).map (8 * (clock - 8) + ·)).foldl (fun (d : Dev) l => d.memberLinkDown l []) d
  else d

end Sys2Proof.Machine
end

