-- ==== Sys2Proof/Machine/ResetExit.lean ====
section
/-!
DEFINITION. Option loading (R703 to R709, table 16-7), the choice of a dump (R665, R668, R669, R694), the exit of a package reset (R698,
R700 to R702, tables 14-3 and 16-4), and block resets below WARM (R684 to R688).
-/
namespace Sys2Proof.Machine

/-! ### The option block (table 16-7) -/

/-- Whether a copy is good (R704). -/
def goodCopy (b : List Byte) : Bool :=
  b.length == 4096 && leAt b 0 4 == 0x4254504F && leAt b 4 2 == 1 && leAt b 6 2 == 4096 &&
  leAt b 0xFFC 4 == crc32c (b.take 0xFFC)

/-- Whether bytes are UTF-8: what is left of the character under way, with bounds for its next byte. -/
def utf8Step (st : Option (Nat × Nat × Nat)) (b : Byte) : Option (Nat × Nat × Nat) :=
  let n := b.toNat
  match st with
  | none => none
  | some (0, _, _) =>
    if n < 0x80 then some (0, 0, 0)
    else if 0xC2 ≤ n ∧ n ≤ 0xDF then some (1, 0x80, 0xBF)
    else if n = 0xE0 then some (2, 0xA0, 0xBF)
    else if n = 0xED then some (2, 0x80, 0x9F)
    else if 0xE1 ≤ n ∧ n ≤ 0xEF then some (2, 0x80, 0xBF)
    else if n = 0xF0 then some (3, 0x90, 0xBF)
    else if 0xF1 ≤ n ∧ n ≤ 0xF3 then some (3, 0x80, 0xBF)
    else if n = 0xF4 then some (3, 0x80, 0x8F)
    else none
  | some (k + 1, lo, hi) => if lo ≤ n ∧ n ≤ hi then some (k, 0x80, 0xBF) else none

/-- Whether bytes are well-formed UTF-8. -/
def utf8Ok (bs : List Byte) : Bool := match bs.foldl utf8Step (some (0, 0, 0)) with | some (0, _, _) => true | _ => false

/-- Whether a SUBNQN field is UTF-8 of 1 to 223 bytes, zero-padded. -/
def nqnOk (bs : List Byte) : Bool :=
  let name := bs.takeWhile (· != 0)
  decide (1 ≤ name.length ∧ name.length ≤ 223) && (bs.drop name.length).all (· == 0) && utf8Ok name

/-- Whether an SN field holds ASCII 0x20 to 0x7E. -/
def snOk (bs : List Byte) : Bool := bs.all fun b => decide (0x20 ≤ b.toNat ∧ b.toNat ≤ 0x7E)

/-- The default SN: the serial number as 16 hexadecimal digits, space-padded. -/
def defaultSn (serial : Nat) : List Byte :=
  ((List.range 16).map fun i =>
    let x := serial / 16 ^ (15 - i) % 16
    BitVec.ofNat 8 (if x < 10 then 0x30 + x else 0x37 + x)) ++ List.replicate 4 0x20

/-- The default SUBNQN: the NVMe UUID prefix and the UUID derived from the serial number. -/
def defaultNqn (serial : Nat) : List Byte :=
  let pre : List Byte := [0x6E, 0x71, 0x6E, 0x2E, 0x32, 0x30, 0x31, 0x34, 0x2D, 0x30, 0x38, 0x2E, 0x6F, 0x72, 0x67, 0x2E,
    0x6E, 0x76, 0x6D, 0x65, 0x78, 0x70, 0x72, 0x65, 0x73, 0x73, 0x3A, 0x75, 0x75, 0x69, 0x64, 0x3A]
  (pre ++ (Config.uuidText serial).take 36 ++ List.replicate 256 0).take 256

/-- The allowed modes after their own defaulting: a zero nibble takes 0xF. -/
def allowedModes (v : Nat) : Nat :=
  (List.range 6).foldl (fun v g => if bitsOf v (4 * g + 3) (4 * g) = 0 then setBits v (4 * g + 3) (4 * g) 0xF else v) v

/-- A group's boot mode: one that the allowed modes exclude takes the lowest allowed. -/
def bootMode (allowed boot g : Nat) : Nat :=
  let m := bitsOf boot (2 * g + 1) (2 * g)
  if allowed.testBit (4 * g + m) then m else ((List.range 4).find? fun i => allowed.testBit (4 * g + i)).getD 0

/-- The boot modes after their defaulting. -/
def bootModes (allowed boot : Nat) : Nat :=
  (List.range 6).foldl (fun v g => setBits v (2 * g + 1) (2 * g) (bootMode allowed boot g)) boot

/-- Fields of an option block that are out of range, as RST_FIELD_DEF bits. -/
def optFaults (b : List Byte) : List Nat :=
  let w := leAt b 0x15 1
  let p := leAt b 0x16 1
  let al := leAt b 0x1C 4
  [(0, decide (2 < bitsOf w 1 0)), (1, decide (2 < bitsOf w 3 2)), (2, decide (p < 1 ∨ 16 < p)), (3, decide (32 < leAt b 0x17 1)),
   (4, (List.range 6).any fun g => bootMode (allowedModes al) (leAt b 0x18 2) g != bitsOf (leAt b 0x18 2) (2 * g + 1) (2 * g)),
   (5, allowedModes al != al), (6, !snOk ((b.drop 0x30).take 20)), (7, !nqnOk ((b.drop 0x100).take 256))].filterMap
    fun (x : Nat × Bool) => if x.2 then some x.1 else none

/-- The options that a good copy gives, field by field (R707). -/
def optsOf (b : List Byte) (serial : Nat) : Opts :=
  let bad := optFaults b
  let w := leAt b 0x15 1
  let al := allowedModes (leAt b 0x1C 4)
  let width := fun (n lo : Nat) => if bad.contains n then 0 else bitsOf w (lo + 1) lo
  { block := b, seq := leAt b 8 8, vendor := leAt b 0x10 2, subsystem := leAt b 0x12 2, flags := leAt b 0x14 1 % 16,
    widths := width 0 0 + 4 * width 1 2, pGiB := if bad.contains 2 then 4 else leAt b 0x16 1,
    hGiB := if bad.contains 3 then 8 else leAt b 0x17 1, boot := bootModes al (leAt b 0x18 2), allowed := al,
    slotPower := leAt b 0x20 6, gpioOut := leAt b 0x28 4, gpioEn := leAt b 0x2C 4,
    sn := if bad.contains 6 then defaultSn serial else (b.drop 0x30).take 20,
    subnqn := if bad.contains 7 then defaultNqn serial else (b.drop 0x100).take 256 }

/-- The bytes of an option block but for its CRC-32C. -/
def Opts.bytes (o : Opts) : List Byte :=
  leBytes 4 0x4254504F ++ leBytes 2 1 ++ leBytes 2 4096 ++ leBytes 8 o.seq ++ leBytes 2 o.vendor ++ leBytes 2 o.subsystem ++
  leBytes 1 o.flags ++ leBytes 1 o.widths ++ leBytes 1 o.pGiB ++ leBytes 1 o.hGiB ++ leBytes 2 o.boot ++ leBytes 2 0 ++ leBytes 4 o.allowed ++
  leBytes 8 o.slotPower ++ leBytes 4 o.gpioOut ++ leBytes 4 o.gpioEn ++ o.sn ++ List.replicate 188 0 ++ o.subnqn ++ List.replicate 3580 0

/-- The defaults of table 16-7 (R708), as the block that OPT_READ returns while they apply. -/
def optDefaults (serial : Nat) : Opts :=
  let o : Opts := ⟨[], 0, 0x1D7A, 0x2048, 0, 0, 4, 8, 0, 0x00FFFFFF, 0, 0, 0, defaultSn serial, defaultNqn serial⟩
  { o with block := o.bytes ++ leBytes 4 (crc32c o.bytes) }

/-! ### What the options set -/

/-- The largest host area that leaves the metadata area at least 1 GiB (R162). -/
def hostMax (capGiB p : Nat) : Nat := (capGiB * 1024 - p * 1024 - 1216 - 1024) / 1024

/-- Size of the local journal in bytes (R163, R184). -/
def journalBytes (p : Nat) (accord : Bool) : Nat := if accord then p * 2 ^ 29 else p * 2 ^ 30

/-- Maximum link width of a host port option. -/
def widthOf (x : Nat) : Nat := if x = 0 then 16 else if x = 1 then 8 else 4

/-- The registers and pins that the options give (R161 to R164, R184, R541, R569, R600, R603). -/
def Dev.applyOpts (d : Dev) (o : Opts) : Dev :=
  let d := { d with opt := o }
  let h := min o.hGiB (hostMax (d.g Reg.BUF_CONFIG_CAP_GIB) o.pGiB)
  let lj := journalBytes o.pGiB (o.flags.testBit 2)
  let d := ((d.p Reg.BUF_CONFIG_PA_GIB o.pGiB).p Reg.BUF_CONFIG_HOST_GIB h).p Reg.BUF_CONFIG_CLAMPED (if h < o.hGiB then 1 else 0)
  let d := d.p Reg.ARM_META_AVAIL_MIB (d.g Reg.BUF_CONFIG_CAP_GIB * 1024 - o.pGiB * 1024 - 1216 - h * 1024)
  let d := (d.p Reg.JNL_HDR_SLOTS_COUNT (lj / 4096)).p Reg.JNL_PAY_BLOCKS_COUNT ((lj - 2 ^ 20 - lj / 64) / 4096)
  let d := ((d.p Reg.VLT_STATUS_HOLDUP_CERT (bit (o.flags.testBit 0))).p Reg.XLT_STATUS_PRIMARY (bit (o.flags.testBit 1))).p
    Reg.ACD_STATUS_ROLE (bit (o.flags.testBit 3))
  let d := (d.p Reg.XLT_LINKA_MAX_WIDTH (widthOf (o.widths % 4))).p Reg.XLT_LINKB_MAX_WIDTH (widthOf (o.widths / 4 % 4))
  let d := (d.p Reg.MBR_GPIO_OUT_PINS o.gpioOut).p Reg.MBR_GPIO_OE_PINS o.gpioEn
  let slots := ((List.range 48).filter o.slotPower.testBit).map fun n => (false, n)
  Dev.powerBatch { d with mport := { d.mport with slotQueue := slots } }

/-! ### The choice of a dump -/

/-- P of a dump, in GiB, from its header (table 15-3). -/
def DumpGen.p (g : DumpGen) : Nat := leAt g.header 6 1
/-- Dump time in ms, from its trailer (table 15-4). -/
def DumpGen.dumpMs (g : DumpGen) : Nat := leAt g.trailer 0x14 4

/-- Whether a generation is intact (R651): header and trailer with good CRC-32C values and one dump number, the table as the trailer has it, and
the image, whose chunks match the table. -/
def DumpGen.intact (g : DumpGen) : Bool :=
  leAt g.header 0 4 == 0x504D5544 && leAt g.header 0x44 4 == crc32c (g.header.take 0x44) &&
    leAt g.trailer 0 4 == 0x444E4544 && leAt g.trailer 0x18 4 == crc32c (g.trailer.take 0x18) &&
    leAt g.header 8 8 == leAt g.trailer 8 8 && leAt g.trailer 0x10 4 == crc32c g.table && g.image.isSome

/-- Whether a generation may be restored (R665). -/
def DumpGen.restorable (g : DumpGen) : Bool := g.intact && g.st == .valid

/-- No generation qualifies: a newest one that is WRITING or not intact is a failed dump, counted and logged (R669, R670). `forced` is the
decision of R694. -/
def Dev.noDump (d : Dev) (forced : Bool) : Dev :=
  let g := d.gen d.newestGen
  if forced || g.st == .writing || (!g.intact && g.st != .empty) then
    let d := (d.p Reg.VLT_STATUS_LAST_DUMP_FAILED 1).inc Reg.VLT_COUNTS_FAILED
    let d := d.event 0x1001 4 (leBytes 8 g.num)
    { d with acd := { d.acd with mute := d.opt.flags.testBit 2 } }
  else d

/-- Chooses the generation to restore (R665, R668, R669, R694). -/
def Dev.chooseGen (d : Dev) : Dev :=
  let n := d.newestGen
  let live := d.rst.journalLive
  let d := { d with rst := { d.rst with journalLive := false } }
  let other := (d.gen (1 - n)).restorable && !live
  let pick := if (d.gen n).restorable then some n else if other then some (1 - n) else none
  match pick with
  | none => d.noDump live
  | some i =>
    if (d.gen i).p = d.g Reg.BUF_CONFIG_PA_GIB then { d with vlt := { d.vlt with chosen := some i } }
    else d.p Reg.VLT_STATUS_P_MISMATCH 1

/-- The vault's own registers (R663, R676): the last dump's times, the hold-up margin, and the counts over the vault's life. -/
def Dev.vaultRegs (d : Dev) : Dev :=
  let g := d.gen d.newestGen
  let d := ((d.p Reg.VLT_DUMP_NUM_NEWEST_NUM g.num).pSat Reg.VLT_LAST_DUMP_DUMP_MS g.dumpMs).pSat Reg.VLT_COUNTS_DUMPS d.vlt.dumps
  let d := (d.program 0).pSat Reg.VLT_WEAR_RETIRED_BLOCKS d.vlt.retired
  match d.vlt.margin with
  | none => if d.rst.bkpClock then d else d.p Reg.VLT_LAST_DUMP_MARGIN_MS 0
  | some ms =>
    let d := (Dev.pSat { d with vlt := { d.vlt with margin := none } } Reg.VLT_LAST_DUMP_MARGIN_MS ms)
    if ms * 100 < d.gClamp Reg.VLT_CFG_MARGIN_PCT 1 100 * g.dumpMs then
      (d.p Reg.VLT_STATUS_HOLDUP_LOW 1).event 0x1002 2 (leBytes 2 (min ms 0xFFFF) ++ leBytes 2 (min g.dumpMs 0xFFFF))
    else d

/-- OPTION_LOAD_DONE (R703 to R708): `okA` and `okB` say that the vault read of each copy succeeded. -/
def Dev.optionLoadDone (d : Dev) (okA okB : Bool) : Dev :=
  if !d.rst.loading then d
  else
    let d := { d with rst := { d.rst with loading := false } }
    let a := okA && goodCopy d.vlt.optA
    let b := okB && goodCopy d.vlt.optB
    let serial := d.g Reg.GCS_SERIAL_SERIAL
    let useB := b && (!a || decide (leAt d.vlt.optA 8 8 < leAt d.vlt.optB 8 8))
    let d := (d.p Reg.RST_STATUS_COPY_A_BAD (bit !a)).p Reg.RST_STATUS_COPY_B_BAD (bit !b)
    if !a && !b then ((d.applyOpts (optDefaults serial)).p Reg.RST_STATUS_OPTIONS_DEFAULTED 1).p Reg.RST_STATUS_OPT_VALID 1 |>.vaultRegs
    else
      let blk := if useB then d.vlt.optB else d.vlt.optA
      let d := d.applyOpts (optsOf blk serial)
      let d := (d.p Reg.RST_STATUS_COPY_USED (bit useB)).p Reg.RST_OPT_SEQ_SEQ (leAt blk 8 8)
      let d := d.p Reg.RST_FIELD_DEF_FIELDS ((optFaults blk).foldl (fun v i => v + 2 ^ i) 0)
      let d := (d.p Reg.RST_STATUS_OPT_VALID 1).vaultRegs
      if d.opt.flags.testBit 2 && d.on Reg.ACD_STATUS_FENCE_IN then
        Dev.raiseSource { d with rst := { d.rst with fencedBit := true } } 12
      else (if d.opt.flags.testBit 2 && d.rst.fencedBit then d.leaveFenced else d).chooseGen

/-! ### Restore -/

/-- Copies a dump's image into the protected area (R666). -/
def Dev.restoreImage (d : Dev) (i : Nat) : Dev :=
  match (d.gen i).image with
  | none => d
  | some m =>
    let j := { m.jnl with jckpt := d.jnl.jckpt, eckpt := d.jnl.eckpt, waiting := [], flushes := [], readers := [], ckpt := none,
                          rewrite := [], disagree := [], marked := [], settled := [], fixing := [] }
    let d := { d with jnl := j, acd := { d.acd with mirror := m.mirror, mirrorTail := m.mirrorTail, adopted := m.adopted } }
    let d := (d.p Reg.VLT_STATUS_RESTORED 1).p Reg.VLT_DUMP_NUM_RESTORED_NUM (d.gen i).num
    (d.p Reg.ACD_STATUS_MIRROR_VALID (bit (m.mirrorValid && d.opt.flags.testBit 2))).p Reg.VLT_STATUS_SOURCE 1

/-- BUF_INIT_DONE: the zeroing and the restore have both ended (R174, R666). -/
def Dev.bufInitDone (d : Dev) : Dev :=
  if d.rst.reach ≠ 5 ∨ d.rst.step ≠ 2 ∨ !d.on Reg.RST_STATUS_OPT_VALID then d
  else
    let d := d.emit .hbmZero
    let d := match d.vlt.chosen with
      | some i => d.restoreImage i
      | none => d.p Reg.VLT_STATUS_SOURCE 0
    Dev.p { d with badHost := [], rst := { d.rst with step := 3 } } Reg.BUF_STATUS_INIT_DONE 1

/-! ### Exit -/

/-- The history entry of the reset that exits (table 16-6). -/
def Dev.histEntry (d : Dev) : Nat :=
  (d.rst.seen.foldl (fun v s => v ||| 2 ^ s) 0) * 2 ^ 32 + d.rst.reach * 2 ^ 29 + bit d.rst.optLoad * 2 ^ 28 + bit d.rst.dumped * 2 ^ 27 +
    d.g Reg.RST_COUNT_COUNT % 2 ^ 24

/-- Writes the entry into RST_HIST0 and moves the older ones down (R700). -/
def Dev.pushHist (d : Dev) (e : Nat) : Dev :=
  let old := (List.range 7).map fun i => d.gi Reg.RST_HIST_ENTRY i
  (e :: old).zipIdx.foldl (fun (d : Dev) x => d.pi Reg.RST_HIST_ENTRY x.2 x.1) d

/-- The accord state at exit (table 14-3, table 14-9, R603, R614, R615, R639): what a planned transfer has adopted is still owed an
ADOPT_DONE. -/
def Dev.exitAccord (d : Dev) (cold : Bool) : Dev :=
  if !d.opt.flags.testBit 2 then d.p Reg.ACD_STATUS_STATE 0
  else match d.acd.record with
    | none => (((d.p Reg.ACD_STATUS_STEWARD (1 - d.role)).p Reg.ACD_OWN_POOLS 0).p Reg.ACD_STATUS_STATE 1).saveAccord
    | some r =>
      let d := (d.p Reg.ACD_STATUS_STEWARD (bit r.steward)).p Reg.ACD_OWN_POOLS r.pools
      let d := d.p Reg.ACD_STATUS_ADOPTED (bit !d.acd.adopted.isEmpty)
      let d := if cold then d else d.p Reg.ACD_STATUS_MIRROR_VALID (bit r.mirrorValid)
      if r.state = 3 then
        let d := (d.p Reg.ACD_STATUS_STATE 3).p Reg.ACD_STATUS_FENCE_OUT 1 |>.emit (.pin "FENCE_OUT_N" false)
        { d with acd := { d.acd with fenceInPlace := true, drainUs := some d.now, drainPools := r.pools } }
      else
        let pools := ((d.acd.adopted.filter (!·.typ.isMeta)).map (·.pool)).eraseDups
        let takes := if pools.isEmpty then [] else [Transfer.mk ((pools.map (2 ^ ·)).sum) false 3]
        Dev.saveAccord { (d.p Reg.ACD_STATUS_STATE 1) with acd := { d.acd with transfers := takes } }

/-- The management core leaves reset: the boot ROM at COLD; at WARM the active slot, or the one whose activation waits (R741, R744). -/
def Dev.exitCore (d : Dev) (cold : Bool) : Dev :=
  let n := match d.mgmt.pending with | some n => n | none => d.mgmt.run
  let d := { d with mgmt := { d.mgmt with pending := none } }
  if !cold && n != 0 && (d.fw n).st == 1 && d.admissible (d.fw n).image then d.runSlot n
  else
    let d := d.boot
    { d with mgmt := { d.mgmt with proven := cold && d.on Reg.MBX_STATUS_CORE_UP } }

/-- A drain that a WARM reset ended is over at its exit, with DONE set (R145, table 3-16). -/
def Dev.drainEnded (d : Dev) : Dev := if d.arm.draining.isSome then d.drainOver else d

/-- Whether the journal stays OFF at exit (R668, R708, R743). -/
def Dev.journalHeld (d : Dev) : Bool :=
  d.on Reg.RST_STATUS_OPTIONS_DEFAULTED || d.on Reg.VLT_STATUS_P_MISMATCH || d.on Reg.MBX_STATUS_RECOVERY

/-- Steps 4 to 6 of table 16-4: the history entry, the self-test, the core, the ports, the fabric under its sleep policy, the accord, and
replay. `failed` are units that fail the self-test (R348); `linkA` and `linkB` say how the host links train. -/
def Dev.exitAll (d : Dev) (failed : List Nat) (linkA linkB : Option (Nat × Nat × Bool)) : Dev :=
  let cold := d.rst.reach == 5
  let e := d.histEntry
  let d := if d.rst.seen.contains 16 then d.cwqWipe else d
  let d := d.pushHist e
  let d := if cold then
      Dev.p { d with rst := { d.rst with pattern := true } } Reg.RST_STATUS_BKP_LOST (bit !d.rst.pattern)
    else d
  let d := { d with rst := { d.rst with reach := 0, step := 0, seen := [], optLoad := false, dumped := false, stretch := false } }
  let d := d.event 0x1101 1 (leBytes 8 e)
  let d : Dev := if cold then failed.foldl (fun (d : Dev) u => d.retireUnit u 2) d else d.p Reg.VLT_STATUS_SOURCE 2
  let d := d.exitCore cold
  let up := fun (d : Dev) (b : Bool) (l : Option (Nat × Nat × Bool)) => match l with
    | some (sp, w, fl) => if (d.port b).perst then d else d.portUp b sp w fl
    | none => d
  let d := up (up d false linkA) true linkB
  let d := (if cold then d else d.drainEnded).p Reg.ARM_EPOCH_ACTIVE_EPOCH d.epoch
  let d := d.watchUp
  let d := d.exitAccord cold
  if d.journalHeld then d else d.p Reg.JNL_STATUS_STATE 1

/-- A COLD exit begins with or without CLK_BKP: without it no hold-up margin is measured, nor one kept (R784). -/
def Dev.exitClock (d : Dev) (bkpClock : Bool) : Dev :=
  { d with rst := { d.rst with bkpClock := bkpClock }, vlt := { d.vlt with margin := if bkpClock then d.vlt.margin else none } }

/-- PACKAGE_RESET_EXIT (R698): with no source holding the package, a COLD exit releases SYS_RST_N and starts the option load, and, once the
buffer memory is ready, does the rest; a WARM exit does all its steps. A reset that waits for a dump does not exit. `bkpClock` says that
CLK_BKP is present (R784). -/
def Dev.packageResetExit (d : Dev) (failed : List Nat) (linkA linkB : Option (Nat × Nat × Bool)) (bkpClock : Bool) : Dev :=
  if d.rst.reach = 0 ∨ d.rst.pendingCold ∨ d.on Reg.VLT_STATUS_DUMPING then d
  else if d.rst.step = 0 then
    if d.rst.stretch || d.holding then d
    else
      let d := Dev.sysRst { d with rst := { d.rst with active := d.rst.active.filter fun s => !pulseSource s } } false
      if d.rst.reach = 5 then Dev.exitClock { d with now := 0, rst := { d.rst with step := 2, loading := true, pinFreeUs := 10 } } bkpClock
      else d.exitAll [] linkA linkB
  else if d.rst.step = 3 then d.exitAll failed linkA linkB
  else d

/-! ### Block resets (R684 to R688) -/

/-- The clusters that a block reset covers: none for a UNIT. -/
def blockClusters (level target : Nat) : List Nat :=
  match level with
  | 1 => [target]
  | 2 => (List.range 4).map (4 * target + ·)
  | 3 => (List.range 16).map (16 * target + ·)
  | _ => []

/-- The target of a wider level that contains a block: units in clusters, clusters in regions, regions in dies (R32). -/
def widerTarget (level target wide : Nat) : Nat :=
  let span := fun (l : Nat) => if l = 0 then 1 else if l = 1 then 8 else if l = 2 then 32 else 128
  target * span level / span wide

/-- Clusters asked to go idle or held in reset. -/
def Dev.resetClusters (d : Dev) : Dev :=
  { d with fab := { d.fab with inReset := ((d.rst.blocks.flatMap fun b => blockClusters b.level b.target)).eraseDups } }

/-- A block source becomes active: its reset at the level of R681, a package reset, or, where a wider reset covers the block, no more than its
cause, which is recorded with that (R44, R697). From the idle request on, its clusters start no new work (R684). -/
def Dev.raiseBlock (d : Dev) (s home level target : Nat) : Dev :=
  if 4 ≤ level then (if level = 5 then d.raise s 5 else d.raise s 4)
  else if d.rst.reach != 0 then { d with rst := { d.rst with seen := (d.rst.seen ++ [s]).eraseDups } }
  else
    let t := widerTarget home target level
    let covers := fun (b : BlockReset) => decide (level ≤ b.level) && b.target == widerTarget level t b.level
    let note := fun (b : BlockReset) => { b with also := (b.also ++ [s]).eraseDups }
    if d.rst.blocks.any covers then { d with rst := { d.rst with blocks := updWhere covers note d.rst.blocks } }
    else Dev.resetClusters { d with rst := { d.rst with blocks := d.rst.blocks ++ [⟨s, level, t, false, false, []⟩] } }

/-- A block source of table 16-1 with its home. -/
def Dev.raiseHome (d : Dev) (s target : Nat) : Dev := d.raiseBlock s (homeLevel s) (d.reachOf s) target

/-- CRITICAL_STATE_ERROR: sources 13 to 17 of the package, 21 of a region, 23 and 24 of a cluster (table 16-1). -/
def Dev.criticalStateError (d : Dev) (s target : Nat) : Dev :=
  if 13 ≤ s ∧ s ≤ 17 then d.raiseSource s
  else if s = 21 ∧ target < 8 ∨ (s = 23 ∨ s = 24) ∧ target < 32 then d.raiseHome s target
  else d

/-- DIE_PLL_LOCK_LOSS: source 19 (R713). -/
def Dev.diePllLockLoss (d : Dev) (die : Nat) : Dev :=
  if 1 < die then d
  else
    Dev.raiseHome { d with fab := { d.fab with pll := updAt die (fun _ => false) d.fab.pll, pllLocking := (die :: d.fab.pllLocking).eraseDups } } 19 die

/-- UCIE_DELIVERY_FAILURE: source 20 (R337). -/
def Dev.ucieFailure (d : Dev) (die : Nat) : Dev := if 1 < die then d else d.raiseHome 20 die

/-- ELB_TAG_PARITY_ERROR: source 22 (R366). -/
def Dev.elbTagParity (d : Dev) (r : Nat) : Dev := if 7 < r then d else d.raiseHome 22 r

/-- Whether RST_BLOCK_CMD refuses a target (R688). -/
def Dev.blockRefused (d : Dev) (level target : Nat) : Bool :=
  let n := match level with | 0 => 256 | 1 => 32 | 2 => 8 | _ => 2
  decide (n ≤ target) || d.fab.offline.contains (widerTarget level target 3) || (level == 0 && d.fab.retired.contains target)

/-- BLOCK_RESET_CMD (R688): source 18 at the named level, or refused; other levels are no action. -/
def Dev.blockResetCmd (d : Dev) (req : Requester) (level target : Nat) : Dev :=
  d.globalWr req Reg.RST_BLOCK_CMD_LEVEL (level != 0 || target != 0) fun d =>
    if 3 < level then d
    else if d.blockRefused level target then d.p Reg.RST_STATUS_CMD_REFUSED 1
    else d.raiseBlock 18 level level target

/-- Whether a cluster is idle (R684): no transfer unit is in flight, and no member read of its items is unanswered. -/
def Dev.clusterIdle (d : Dev) (c : Nat) : Bool :=
  !(d.cwq.chans.any fun x => x.1 / 16 == c && match x.2.work with | some w => !w.units.isEmpty | none => false) &&
  !(d.mcmds.any fun m => m.kind == .read && m.phase == .outstanding && m.refs.any fun r => match d.op r.op with
    | some o => o.cluster == c && decide (o.channel < 512)
    | none => false)

/-- Whether a block is idle (table 16-2). -/
def Dev.blockIdle (d : Dev) (b : BlockReset) : Bool :=
  let rs := match b.level with | 2 => [b.target] | 3 => (List.range 4).map (4 * b.target + ·) | _ => []
  (blockClusters b.level b.target).all d.clusterIdle && rs.all fun r => (d.region r).fills.isEmpty

/-- Responses to what a forced reset's block issued will be discarded (R685). -/
def Dev.discardBlock (d : Dev) (b : BlockReset) : Dev :=
  let cs := blockClusters b.level b.target
  let mine := fun (u : ReadUser) => match u with
    | .chnFetch x | .chnSrc x _ _ _ | .chnBack x | .chnRec x => cs.contains (x / 16)
    | _ => false
  let drop := fun (t : TagUse) => if mine t.user && !t.quarantined then { t with user := .discard } else t
  let port := fun (p : HPort) => { p with tags := p.tags.map drop, waiting := p.waiting.filter fun r => !mine r.user }
  let here := fun (oid : Nat) => match d.op oid with | some o => cs.contains o.cluster && decide (o.channel < 512) | none => false
  let out := fun (m : MCmd) =>
    if m.kind == .read && m.phase == .outstanding && m.user == .op && !m.refs.isEmpty && m.refs.all fun r => here r.op then
      { m with user := .discard, refs := [] } else m
  { d with ports := ⟨port d.ports.a, port d.ports.b⟩, mcmds := d.mcmds.map out }

/-- A channel's registers through a block reset (R433): fields whose Init level is at or below CLUSTER return to Init. -/
def Dev.initChan (d : Dev) (ch : Nat) : Dev :=
  let base := 0x80000 + 0x100 * ch
  d.initRegs 1 fun a => decide (base ≤ a ∧ a < base + 0x100)

/-- A cluster's state is cleared (R42, R43, R429, R433, R686): internal items are re-issued, programs end, staging is lost. -/
def Dev.clearCluster (d : Dev) (level c : Nat) : Dev :=
  let d : Dev := (List.range 16).foldl (fun (d : Dev) i => (d.chanReset (16 * c + i) level).initChan (16 * c + i)) (d.reissueCluster c)
  let lo := c * 2 ^ 22
  let d := { d with cwq := { d.cwq with staging := d.cwq.staging.filter fun b => !(decide (lo ≤ b.1) && decide (b.1 < lo + 2 ^ 22)) } }
  d.updCluster c fun x => { x with staged := 0 }

/-- A region's ELB entries come back invalid with every tree bit 0 (R358, R686); its lookups are made again with their items. -/
def Dev.clearRegion0 (d : Dev) (r : Nat) : Dev :=
  d.updRegion r fun x => { x with elb := [], tree := [], fills := [], fillWait := [] }

/-- The reset of a block that is idle or timed out: recorded, counted and logged, and its state cleared (R684 to R688). -/
def Dev.applyBlock (d : Dev) (b : BlockReset) (forced : Bool) : Dev :=
  let d := ((d.p Reg.RST_BLOCK_LAST_SOURCE b.source).p Reg.RST_BLOCK_LAST_LEVEL b.level).p Reg.RST_BLOCK_LAST_FORCED (bit forced)
  let d := (d.p Reg.RST_BLOCK_LAST_TARGET b.target).inc Reg.RST_BLOCK_COUNTS_RESETS
  let d := if forced then d.inc Reg.RST_BLOCK_COUNTS_FORCED else d
  let d := d.event 0x1102 1 (leBytes 4 (d.reg Reg.RST_BLOCK_LAST_SOURCE.base).toNat)
  let d := if forced then d.discardBlock b else d
  let rs := match b.level with | 2 => [b.target] | 3 => (List.range 4).map (4 * b.target + ·) | _ => []
  let d : Dev := rs.foldl (fun (d : Dev) r => d.clearRegion0 r) d
  let d : Dev := (blockClusters b.level b.target).foldl (fun (d : Dev) c => d.clearCluster b.level c) d
  let d := if b.level = 3 then
      { d with fab := { d.fab with pll := updAt b.target (fun _ => false) d.fab.pll, pllLocking := (b.target :: d.fab.pllLocking).eraseDups } }
    else d
  let hold := fun (x : BlockReset) => { x with held := true, forced := forced }
  { d with rst := { d.rst with blocks := updWhere (· == b) hold d.rst.blocks } }

/-- The block reset asked for at a level and target. -/
def Dev.blockAt (d : Dev) (level target : Nat) : Option BlockReset := d.rst.blocks.find? fun b => b.level == level && b.target == target

/-- BLOCK_IDLE_REACHED (R684). -/
def Dev.blockIdleReached (d : Dev) (level target : Nat) : Dev :=
  match d.blockAt level target with
  | some b => if !b.held && d.blockIdle b then d.applyBlock b false else d
  | none => d

/-- BLOCK_IDLE_TIMEOUT: the reset is forced (R684). -/
def Dev.blockIdleTimeout (d : Dev) (level target : Nat) : Dev :=
  match d.blockAt level target with
  | some b => if b.held then d else d.applyBlock b true
  | none => d

/-- BLOCK_RESET_EXIT (R687, R698): the block leaves reset, and a power-off that waited for that follows (R45). A die whose link does not train at full width resets again, and is offline after
three such exits in a row (R338). A die whose PLL has not locked stays in reset. -/
def Dev.blockResetExit (d : Dev) (level target : Nat) (trained : Bool) : Dev :=
  match d.blockAt level target with
  | none => d
  | some b =>
    if !b.held then d
    else if level = 3 ∧ !d.fab.pll.getD target false then d
    else
      let out := fun (d : Dev) => (Dev.resetClusters { d with rst := { d.rst with blocks := d.rst.blocks.filter (· != b) } }).offsDue
      if level ≠ 3 then (out d).watchUp
      else if trained then
        (out { d with fab := { d.fab with trainFails := updAt target (fun _ => 0) d.fab.trainFails } }).watchUp
      else
        let n := d.fab.trainFails.getD target 0 + 1
        let d := { d with fab := { d.fab with trainFails := updAt target (fun _ => n) d.fab.trainFails } }
        if 3 ≤ n then
          let d := out { d with fab := { d.fab with offline := target :: d.fab.offline } }
          ((List.range 16).map (16 * target + ·)).foldl (fun (d : Dev) c => d.reissueCluster c) d
        else (out d).raiseHome 20 target

end Sys2Proof.Machine
end

