-- ==== Sys2Proof/Machine/Vault.lean ====
section
/-!
DEFINITION. Power loss and the vault (chapter 15): the seal on PWR_FAIL_N, the dump, in-place resume, replay with the consumption of a
restored generation, supply brownout, the commands of the VLT_ block, and the writing of the event log ring (R753, R754).
-/
namespace Sys2Proof.Machine

/-! ### The event log ring -/

/-- Writes the tail to the ring, which keeps the newest 1,048,576 records (R754). -/
def Dev.logWrite (d : Dev) : Dev :=
  d.logPut d.log.tail.length

/-- LOG_FLUSH: LOG_CTRL.FLUSH writes the tail to the vault (R753). -/
def Dev.logFlush (d : Dev) (req : Requester) : Dev := d.globalCmd req Reg.LOG_CTRL_FLUSH fun d => d.logWrite

/-- LOG_PAGE_TIMEOUT: 1 s after its first record arrived a partly filled page is written (R753). -/
def Dev.logPageTimeout (d : Dev) : Dev := d.logWrite

/-! ### PWR_FAIL_N -/

/-- PWR_FAIL_ASSERT (R653, R656, table 11-12): the journal is sealed, whatever else goes on. Nothing is sealed while RESTORED is set, while the journal
is already sealed, and while nothing lives in HBM that a dump could keep. -/
def Dev.pwrFailAssert (d : Dev) : Dev :=
  let lost := fun (c : NvmeCtl) => c.en && !c.shutdown
  let n := if lost d.ctlA || lost d.ctlB then 1 else 0
  let d := { d with vlt := { d.vlt with pwrLow := true }, nvm := { d.nvm with unsafeShutdowns := d.nvm.unsafeShutdowns + n } }
  if d.on Reg.VLT_STATUS_RESTORED || !d.rst.journalLive || d.g Reg.JNL_STATUS_STATE == 3 || d.rst.reach == 5 then d else d.seal

/-- PWR_FAIL_DEASSERT (R660, R663, R671): a dump goes on; a margin is not measured any more. -/
def Dev.pwrFailDeassert (d : Dev) : Dev := { d with vlt := { d.vlt with pwrLow := false, marginFrom := none } }

/-! ### The dump -/

/-- What the dump keeps of the protected area (R657, table 15-3). -/
def Dev.dumpImage (d : Dev) : DumpImage :=
  { jnl := d.jnl, head := d.head, tail := d.tail, mirror := d.acd.mirror, mirrorTail := d.acd.mirrorTail, adopted := d.acd.adopted,
    mirrorValid := d.mirrorValid || d.mirroring, excs := d.arm.excs, inReplay := d.jnl.sealSeq == 2 ^ 64 - 1 }

/-- Step 1 of table 15-6: regions, codec dies, peer ports and member groups power off; a region under a block reset does so when that ends
(R45). Their blocks come back as after a WARM reset of
them (R672): items, locks and member commands are gone and will be re-issued, and CWQ queues act as table 10-7 says for WARM. -/
def Dev.shed (d : Dev) : Dev :=
  let bmeA := d.ports.a.pf1.bme
  let bmeB := d.ports.b.pf1.bme
  let d := d.cwqWarm
  let d := (d.updFn false 1 fun x => { x with bme := bmeA }).updFn true 1 fun x => { x with bme := bmeB }
  let off := fun (r : Region) => { r with power := .off, elb := [], tree := [], fills := [], fillWait := [], forRead := false }
  let down := fun (l : MLink) => { l with up := false }
  let held := fun (r : Nat) => d.regionInReset r && d.powered r
  let d := { d with
    ops := [], locks := [], setWait := [], mcmds := [], disc := [], sil := Sil.blank
    mbrs := d.mbrs.map Mbr.afterReset
    arm := { d.arm with zeroing := d.arm.zeroing.map ZeroJob.restart, fixes := [] }
    fab := { Fab.blank with
      regions := d.fab.regions.zipIdx.map fun (x : Region × Nat) => if held x.2 then x.1 else off x.1
      offWaits := (List.range 8).filter held
      pll := [0, 1].map fun die => d.fab.pll.getD die false && (List.range 4).any fun i => held (4 * die + i)
      inReset := d.fab.inReset, trainFails := d.fab.trainFails, retired := d.fab.retired, offline := d.fab.offline }
    mport := { d.mport with links := d.mport.links.map down, enumLeft := [], fmt := none } }
  let d := (d.setPeerLink false false).setPeerLink true false
  d.initRegs 4 fun a => decide (0x60000 ≤ a ∧ a < 0xC0000 ∨ 0x210000 ≤ a ∧ a < 0x220000)

/-- The dump header (table 15-3). -/
def Dev.dumpHeader (d : Dev) (num : Nat) : List Byte :=
  let accord := d.opt.flags.testBit 2
  let flag := fun (b : Bool) (i : Nat) => if b then 2 ^ i else 0
  let flags := flag accord 0 + flag (d.jnl.sealFlags.testBit 1) 1 + flag (d.jnl.sealFlags.testBit 2) 2 + flag (d.role == 1) 3 +
    flag (d.jnl.sealSeq == 2 ^ 64 - 1) 4
  let p := d.g Reg.BUF_CONFIG_PA_GIB
  let ident := match d.arm.active with | some a => a.identity.toNat | none => 0
  let b := leBytes 4 0x504D5544 ++ leBytes 2 1 ++ leBytes 1 p ++ leBytes 1 flags ++ leBytes 8 num ++ leBytes 8 d.jnl.sealSeq ++
    leBytes 8 d.jnl.cbTail ++ leBytes 8 (if accord then d.acd.ackedIn else 0) ++ leBytes 16 ident ++ leBytes 4 d.epoch ++
    leBytes 4 (d.g Reg.RST_COUNT_COUNT) ++ leBytes 4 (p * 1024)
  b ++ leBytes 4 (crc32c b)

/-- The dump trailer (table 15-4). -/
def dumpTrailer (num ms : Nat) (table : List Byte) : List Byte :=
  let b := leBytes 4 0x444E4544 ++ leBytes 4 1 ++ leBytes 8 num ++ leBytes 4 (crc32c table) ++ leBytes 4 ms
  b ++ leBytes 4 (crc32c b)

/-- DUMP (R657, table 15-6): the protected area is written to the generation that does not hold the highest dump number; `ms` is the dump
time that its trailer records, and `failed` how many vault blocks failed a program or erase in it: they are retired, and blocks of the
reserve take their place (R675). A COLD reset that waited for it begins (R693). -/
def Dev.dump (d : Dev) (ms failed : Nat) : Dev :=
  if !d.on Reg.VLT_STATUS_DUMPING then d
  else
    let i := 1 - d.newestGen
    let num := (d.gen d.newestGen).num + 1
    let p := d.g Reg.BUF_CONFIG_PA_GIB
    let head := d.dumpHeader num
    let table := Config.chunkTable num
    let d := d.shed
    let d := d.putGen i ⟨num, .valid, head, table, dumpTrailer num ms table, some d.dumpImage⟩
    let d := Dev.program { d with vlt := { d.vlt with dumps := d.vlt.dumps + 1, retired := d.vlt.retired + failed } } (p * 2 ^ 30 + 72 * 1024)
    let d := (d.p Reg.VLT_STATUS_DUMPING 0).p Reg.VLT_STATUS_RESTORED 1
    let d := ((d.inc Reg.VLT_COUNTS_DUMPS).p Reg.VLT_DUMP_NUM_NEWEST_NUM num).pSat Reg.VLT_LAST_DUMP_DUMP_MS ms
    let d := (d.p Reg.BUF_STATUS_SCRUB_PAUSED (bit (d.g Reg.BUF_SCRUB_PERIOD == 0))).logWrite
    let d := { d with vlt := { d.vlt with dumpDone := true, marginFrom := if d.vlt.pwrLow then some d.now else none } }
    if d.rst.pendingCold then d.goCold true else d

/-! ### Replay and resume -/

/-- A generation whose image the protected area holds is CONSUMED (R667). -/
def Dev.consume (d : Dev) : Dev :=
  let i := match d.vlt.chosen with | some i => i | none => d.newestGen
  let d := { (d.p Reg.VLT_STATUS_RESTORED 0) with vlt := { d.vlt with chosen := none } }
  if (d.gen i).st == .valid then d.putGen i { d.gen i with st := .consumed } else d

/-- The fields of a host command that runs again from the start (table 15-9). -/
def HostCmd.io (c : HostCmd) : HostIo :=
  ⟨c.portB, c.sq, c.cid, c.nsid, c.slba, c.nlb, c.fua, c.pract, c.prchk, c.reftag, c.apptag, c.appmask, c.xtsFaults⟩

/-- Whether a command admits records. -/
def HKind.writes : HKind → Bool
  | .write | .zeroes | .dealloc => true
  | _ => false

/-- Groups that replay kept take up their host commands again, committed or not as they were at the seal; in accord those not yet
acknowledged are sent again (R623, table 15-9). -/
def Dev.resumeGroups (d : Dev) (old : List JGroup) : Dev :=
  let back := fun (g : JGroup) => match old.find? fun (x : JGroup) => x.first == g.first with
    | some x => (match x.use with | .host _ => { g with use := x.use, committed := x.committed } | _ => g)
    | none => g
  let d := { d with jnl := { d.jnl with groups := d.jnl.groups.map back } }
  let open_ := d.jnl.groups.filter fun g => !g.committed
  let d : Dev := if d.mirroring then
      open_.foldl (fun (d : Dev) g => d.sendMirror (d.jnl.recs.filter fun r => r.first == g.first) (g.first + g.count - 1)) d
    else d
  d.commitReady

/-- The commands held at the seal complete as table 15-9 states; `old` and `waits` are the groups and the waiting groups at the seal, and
`flushes` the Flushes. -/
def Dev.resumeCmds (d : Dev) (old : List JGroup) (waits : List WaitGroup) (flushes : List (Nat × Nat)) : Dev :=
  let kept := fun (g : JGroup) => d.jnl.groups.any fun (x : JGroup) => x.first == g.first
  let lostOf := fun (c : HostCmd) => !c.admitted || (waits.any fun w => w.use == .host c.id) ||
    (old.any fun g => g.use == .host c.id && decide (d.tail ≤ g.first) && !kept g)
  let lost := (d.cmds.filter fun c => c.kind.writes && lostOf c).map (·.id)
  let d := d.resumeGroups old
  let d : Dev := lost.foldl (fun (d : Dev) id => d.finish id .commandInterrupted 0) d
  let reads := d.cmds.filter fun c => (c.kind == .read || c.kind == .verify) && !c.detached
  let d := { d with cmds := d.cmds.filter fun c => c.kind != .read && c.kind != .verify }
  let again := fun (d : Dev) (c : HostCmd) => match d.rangeError c.nsid c.slba c.nlb with
    | some st => d.failIo c.io st
    | none => d.serveRead c.io c.kind
  let d : Dev := reads.foldl again d
  let d := { d with jnl := { d.jnl with flushes := flushes.map fun (f : Nat × Nat) => (f.1, d.head) } }
  (((d.flushDone).fuaDone).drainCqs false).drainCqs true

/-- REPLAY (R240, R667, R672, R742): the journal is rebuilt and runs. A restored generation is consumed, namespaces identified before it are
matched again, and after a seal the commands held complete. -/
def Dev.replayRow (d : Dev) (copies : List PlinthRead) (bad : List Nat) : Dev :=
  let old := d.jnl.groups
  let waits := d.jnl.waiting
  let flushes := d.jnl.flushes
  let was := d.running
  let d := d.replay copies bad
  if was || !d.running then d
  else
    let d := if d.on Reg.VLT_STATUS_RESTORED then d.consume else d
    let d := Dev.advanceFuses { d with rst := { d.rst with journalLive := true } }
    let d : Dev := d.disc.foldl (fun (d : Dev) x => d.found x) d
    if d.vlt.resuming then
      Dev.resumeCmds { d with vlt := { d.vlt with resuming := false } } old waits flushes
    else d

/-- IN_PLACE_RESUME (R671, R672): PWR_FAIL_N has stayed high for RESUME_MS after the dump. The shed domains power up and replay begins; a
fenced package stays FENCED (R673). Queues go on as after WARM: their published heads are written (table 10-7). -/
def Dev.inPlaceResume (d : Dev) : Dev :=
  if !d.vlt.dumpDone || d.vlt.pwrLow || d.rst.reach != 0 || d.g Reg.JNL_STATUS_STATE != 3 then d
  else
    let d := { d with vlt := { d.vlt with dumpDone := false, resuming := true, marginFrom := none } }
    let d := ((d.p Reg.JNL_STATUS_STATE 1).p Reg.VLT_STATUS_SOURCE 3).inc Reg.VLT_COUNTS_RESUMES
    let d := d.watchUp
    (d.cwqResume false).cwqResume true

/-! ### The VLT_ block -/

/-- VLT_DISCARD_DUMP (R668): while P_MISMATCH is set the held generation is CONSUMED, and the exit goes on with an empty journal (R669). -/
def Dev.vltDiscardDump (d : Dev) (req : Requester) : Dev :=
  d.globalCmd req Reg.VLT_CTRL_DISCARD_DUMP fun d =>
    if !d.on Reg.VLT_STATUS_P_MISMATCH then d
    else
      let n := d.newestGen
      let i := if (d.gen n).restorable then n else 1 - n
      let d := d.putGen i { d.gen i with st := .consumed }
      let d := d.p Reg.VLT_STATUS_P_MISMATCH 0
      let d := d.noDump false
      if d.rst.reach = 0 && !d.journalHeld && d.g Reg.JNL_STATUS_STATE == 0 then d.p Reg.JNL_STATUS_STATE 1 else d

/-- VLT_CLR_FLAGS (table 15-12). -/
def Dev.vltClrFlags (d : Dev) (req : Requester) : Dev :=
  d.globalCmd req Reg.VLT_CTRL_CLR_FLAGS fun d => (d.p Reg.VLT_STATUS_LAST_DUMP_FAILED 0).p Reg.VLT_STATUS_HOLDUP_LOW 0

/-- VAULT_NAND_IDLE: no access has been pending for 10 ms, so PD_VLTN powers off (R716). A dump is an access. -/
def Dev.vaultNandIdle (d : Dev) : Dev :=
  if d.on Reg.VLT_STATUS_DUMPING then d else { d with vlt := { d.vlt with nandOff := true } }

/-! ### Brownout -/

/-- SUPPLY_BROWNOUT (R663, R774, R784): the margin of a dump that PWR_FAIL_N began is kept where CLK_BKP measured it, a seal less than 4 µs old leaves JOURNAL_LIVE set, and
source 7 holds a COLD reset. -/
def Dev.supplyBrownout (d : Dev) : Dev :=
  let ms := if d.rst.bkpClock then d.vlt.marginFrom.map fun t => (d.now - t) / 1000 else none
  let d := { d with vlt := { d.vlt with marginFrom := none, margin := match ms with | some m => some m | none => d.vlt.margin } }
  let torn := d.on Reg.VLT_STATUS_DUMPING && decide (d.now < d.vlt.assertUs + 4)
  let d := if torn then { d with rst := { d.rst with journalLive := true } } else d
  d.raiseSource 7

end Sys2Proof.Machine
end

