-- ==== Sys2Proof/Machine/Power.lean ====
section
/-!
DEFINITION. Sensors, thermal throttling, the power cap and the voltage of the codec dies (R721, R722, R727 to R731, R750 to R752).
-/
namespace Sys2Proof.Machine

/-! ### Alarms (R752) -/

/-- A reading as the 2 bytes of an event payload: two's complement. -/
def readingBytes (v : Int) : List Byte := leBytes 2 ((v % 65536).toNat)

/-- Sets bit `i` of an alarm register, with one event record at each entry and exit; `kind` 0 thermal, 1 rail. -/
def Dev.alarm (d : Dev) (kind i : Nat) (on : Bool) (v : Int) : Dev :=
  let f := if kind = 0 then Reg.SNS_TALARM_ALARM else Reg.SNS_RALARM_ALARM
  if (d.g f).testBit i == on then d
  else (d.pBit f i on).event 0x1303 2 (leBytes 1 kind ++ leBytes 1 i ++ leBytes 1 (bit on) ++ readingBytes v)

/-- Whether a thermal sensor is in alarm after a reading: it enters at THERM_C and leaves 3 °C below. -/
def Dev.thermAlarm (d : Dev) (i : Nat) (v : Int) : Bool :=
  let t : Int := 8 * (d.gClamp Reg.SNS_WARN_THERM_C 80 114 : Nat)
  if (d.g Reg.SNS_TALARM_ALARM).testBit i then decide (t - 24 < v) else decide (t ≤ v)

/-- The request whose lower bound the monitor of VDD_CD compares with: the one before for 100 µs after a lowering (R770). -/
def Dev.vcdBound (d : Dev) : Nat :=
  match d.mgmt.vcdOld with
  | some (mv, t) => if d.now < t then mv else d.g Reg.CPM_VCD_MV
  | none => d.g Reg.CPM_VCD_MV

/-- Operating range of rail `i` in 0.01 mV (table 20-2); VDD_CD follows the request in force. -/
def Dev.railRange (d : Dev) (i : Nat) : Nat × Nat :=
  let mv := d.g Reg.CPM_VCD_MV
  match i with
  | 0 | 1 => (d.vcdBound * 98, mv * 102)
  | 2 => (77600, 82400) | 3 => (82500, 87500) | 4 => (116400, 123600)
  | 5 | 6 => (106700, 113300) | 7 => (38800, 41200) | 8 => (174600, 185400)
  | 9 => (237500, 262500) | 10 => (114000, 126000) | _ => (76000, 84000)

/-- Whether a rail is in alarm at a reading in mV: within RAIL_MV above its lower bound, or above its upper bound. -/
def Dev.railAlarm (d : Dev) (i mv : Nat) : Bool :=
  let (lo, hi) := d.railRange i
  decide (lo ≤ mv * 100 ∧ mv * 100 ≤ lo + 100 * d.g Reg.SNS_WARN_RAIL_MV) || decide (hi < mv * 100)

/-! ### Voltage of the codec dies (R721, R722) -/

/-- The VDD_CD the dies need: the higher need in 5 mV steps, plus 10 mV while any sensor reads below 25 °C, between 720 and 800. -/
def Dev.vcdNeed (d : Dev) : Nat :=
  let cold := d.mgmt.therm.any fun v => decide (v < 200)
  max 720 (min 800 (ceilDiv (max (Config.dieNeed 0) (Config.dieNeed 1)) 5 * 5 + if cold then 10 else 0))

/-- Requests a voltage, unless no further request is made. -/
def Dev.vcdRequest (d : Dev) (mv : Nat) : Dev :=
  if d.mgmt.avsStop then d
  else
    let old := d.g Reg.CPM_VCD_MV
    let d := { d with mgmt := { d.mgmt with vcdOld := if mv < old then some (old, d.now + 100) else none } }
    (d.p Reg.CPM_VCD_MV mv).emit (.avs mv)

/-- The request is raised before a region powers up, and while one is powered. -/
def Dev.vcdRaise (d : Dev) : Dev :=
  if (d.fab.regions.any fun r => r.power != .off) && decide (d.g Reg.CPM_VCD_MV < d.vcdNeed) then d.vcdRequest d.vcdNeed else d

/-- VCD_LOWER_TIMER: 100 ms have passed without a rise, so the request may be lowered. -/
def Dev.vcdLowerTimer (d : Dev) : Dev := if d.vcdNeed < d.g Reg.CPM_VCD_MV then d.vcdRequest d.vcdNeed else d

/-- AVS_TIMEOUT (R722): 800 mV is requested once more, and no further request is made until the next COLD. -/
def Dev.avsTimeout (d : Dev) : Dev :=
  if d.mgmt.avsStop then d
  else
    let d := (d.vcdRequest 800).p Reg.CPM_STATUS_AVS_ERR 1
    { d with mgmt := { d.mgmt with avsStop := true } }

/-! ### Throttle levels (R727, R729) -/

/-- The hottest reading and its sensor: the first of the highest. -/
def hottestOf (vs : List Int) : Int × Nat :=
  vs.zipIdx.foldl (fun (b : Int × Nat) x => if b.1 < x.1 then x else b) (vs.headD 0, 0)

/-- The base level after a round whose hottest reading is `hot` (table 17-5); `thr` is THR in 0.125 °C. -/
def nextLevel (base : Nat) (thr hot : Int) : Nat :=
  let up := if thr + 80 ≤ hot then 3 else if thr + 40 ≤ hot then 2 else if thr ≤ hot then 1 else 0
  if base < up then up
  else if 0 < base ∧ hot ≤ thr + 40 * ((base : Int) - 1) - 24 then base - 1
  else base

/-- The throttle level in force takes its value from the base level and the extra level of the power cap; a change is counted and
logged. Watch regions that the new limit allows power up (R374). -/
def Dev.setLevel (d : Dev) : Dev :=
  let old := d.g Reg.CPM_STATUS_LEVEL
  let new := min 3 (d.mgmt.base + bit d.mgmt.extra)
  if old = new then d
  else
    let d := d.p Reg.CPM_STATUS_LEVEL new
    let d := if old = 0 then d.inc Reg.CPM_COUNTS_ENTRIES else d
    let d := if new = 3 then d.inc Reg.CPM_COUNTS_LEVEL3 else d
    let (hot, i) := hottestOf d.mgmt.therm
    (d.event 0x1201 2 (leBytes 1 old ++ leBytes 1 new ++ readingBytes hot ++ leBytes 1 i)).watchUp

/-- Adds 100 µs to the time throttled while a level is in force. -/
def Dev.throttleTime (d : Dev) : Dev :=
  if d.g Reg.CPM_STATUS_LEVEL = 0 then d
  else
    let us := d.mgmt.oddUs + 100
    let d := { d with mgmt := { d.mgmt with oddUs := us % 1000 } }
    d.p Reg.CPM_THROTTLE_MS_MS (d.g Reg.CPM_THROTTLE_MS_MS + us / 1000)

/-- Joins new readings into the peaks that a rule keeps; the first round starts them. -/
def keepPeaks {α : Type} (pick : α → α → α) (old new : List α) : List α :=
  new.zipIdx.map fun x => match old[x.2]? with | some y => pick x.1 y | none => x.1

/-- THERMAL_SAMPLE (R727, R728, R752): one round of the 28 sensors, in 0.125 °C. -/
def Dev.thermalSample (d : Dev) (vs : List Int) : Dev :=
  let d := d.throttleTime
  let (hot, i) := hottestOf vs
  let peaks := keepPeaks (fun (a b : Int) => max a b) d.mgmt.thermPeak vs
  let d := { d with mgmt := { d.mgmt with therm := vs, thermPeak := peaks,
                                          base := nextLevel d.mgmt.base (8 * (d.gClamp Reg.CPM_THERM_THR_C 80 100 : Nat)) hot } }
  let d := (d.p Reg.CPM_THERM_HOT_ID i).p Reg.CPM_THERM_HOT_C (min 255 (max 0 (hot / 8)).toNat)
  let d := d.setLevel
  let d : Dev := vs.zipIdx.foldl (fun (d : Dev) x => d.alarm 0 x.2 (d.thermAlarm x.2 x.1) x.1) d
  let d := d.vcdRaise
  if vs.any fun v => decide (920 ≤ v) then (if d.rst.active.contains 6 then d else d.raiseSource 6)
  else if vs.all fun v => decide (v ≤ 800) then d.deactivate 6
  else d

/-- RAIL_SAMPLE (R751, R752): one round of the 12 monitors, in mV. Source 7 ends when no rail is below its range. -/
def Dev.railSample (d : Dev) (vs : List Nat) : Dev :=
  let lows := keepPeaks (fun (a b : Nat) => min a b) d.mgmt.railLow vs
  let d := { d with mgmt := { d.mgmt with rails := vs, railLow := lows } }
  let d : Dev := vs.zipIdx.foldl (fun (d : Dev) x => d.alarm 1 x.2 (d.railAlarm x.2 x.1) x.1) d
  if vs.zipIdx.all fun x => decide ((d.railRange x.2).1 ≤ x.1 * 100) then d.deactivate 7 else d

/-- VBAT_LOW: VBAT has fallen below 2.0 V. -/
def Dev.vbatLow (d : Dev) (mv : Nat) : Dev := d.alarm 1 12 true mv

/-- VBAT_RESTORED. -/
def Dev.vbatRestored (d : Dev) (mv : Nat) : Dev := d.alarm 1 12 false mv

/-- POWER_CAP_AVERAGE (R729): one 10 ms average, in mW. The extra level ends after 100 ms, ten averages, at or below 95 % of WATTS. -/
def Dev.powerCapAverage (d : Dev) (mw : Nat) : Dev :=
  let cap := 1000 * d.gClamp Reg.CPM_PCAP_WATTS 30 142
  let d := d.pSat Reg.CPM_POWER_POWER_MW mw
  let d := d.pSat Reg.CPM_POWER_POWER_PEAK (max (d.g Reg.CPM_POWER_POWER_PEAK) (mw / 16))
  if cap < mw ∧ cap ≠ 142000 then
    let d := if d.mgmt.extra then d else d.inc Reg.CPM_COUNTS_PCAP
    Dev.setLevel (Dev.p { d with mgmt := { d.mgmt with extra := true, lowRuns := 0 } } Reg.CPM_STATUS_PCAP_ACTIVE 1)
  else if mw * 100 ≤ cap * 95 then
    let n := d.mgmt.lowRuns + 1
    if n < 10 then { d with mgmt := { d.mgmt with lowRuns := n } }
    else Dev.setLevel (Dev.p { d with mgmt := { d.mgmt with extra := false, lowRuns := n } } Reg.CPM_STATUS_PCAP_ACTIVE 0)
  else { d with mgmt := { d.mgmt with lowRuns := 0 } }

/-- CPM_CLR_COUNTS (table 17-9). -/
def Dev.cpmClrCounts (d : Dev) (req : Requester) : Dev :=
  d.globalCmd req Reg.CPM_CTRL_CLR_COUNTS fun d =>
    let d := ((d.p Reg.CPM_COUNTS_ENTRIES 0).p Reg.CPM_COUNTS_LEVEL3 0).p Reg.CPM_COUNTS_PCAP 0
    let d := (d.p Reg.CPM_THROTTLE_MS_MS 0).p Reg.CPM_POWER_POWER_PEAK 0
    { d with mgmt := { d.mgmt with oddUs := 0 } }

/-- SNS_CLR_PEAK (table 18-20). -/
def Dev.snsClrPeak (d : Dev) (req : Requester) : Dev :=
  d.globalCmd req Reg.SNS_CTRL_CLR_PEAK fun d =>
    { d with mgmt := { d.mgmt with thermPeak := d.mgmt.therm, railLow := d.mgmt.rails } }

end Sys2Proof.Machine
end

