-- ==== Sys2Proof/Machine/Mgmt.lean ====
section
/-!
DEFINITION. The management core's commands (chapter 18): the mailbox (tables 18-8, 18-9), the PLDM update path (R745, R746), MCTP
control and PLDM base discovery (R748), and the NVMe-MI endpoint (R749).
-/
namespace Sys2Proof.Machine

/-! ### The mailbox (R757 to R759) -/

/-- Mailbox status codes of table 18-9. -/
inductive MbxStatus | ok | badOpcode | badArg | inUse | vaultError | restarted
deriving DecidableEq, Repr

/-- The code of a mailbox status. -/
def MbxStatus.code : MbxStatus → Nat
  | .ok => 0 | .badOpcode => 1 | .badArg => 2 | .inUse => 3 | .vaultError => 4 | .restarted => 5

/-- Ends a mailbox command with a status and a result. -/
def Dev.mbxDone (d : Dev) (st : MbxStatus) (result outLen : Nat) : Dev := (d.p Reg.MBX_RESULT_VALUE result).mbxEnd st.code outLen

/-- Whether a mailbox command is allowed now: any known one while the core runs, GET_INFO and FW_SELECT in recovery mode (R743). -/
def Dev.mbxAllowed (d : Dev) (op : Nat) : Bool :=
  if d.on Reg.MBX_STATUS_RECOVERY then op == 1 || op == 5 else decide (op ≤ 5)

/-- A write of MBX_CMD with GO: BUSY is set, and a command that cannot run ends at once (R758, tables 18-9, 18-11). -/
def Dev.mbxGo (d : Dev) : Dev :=
  let d := d.p Reg.MBX_STATUS_BUSY 1
  if !d.mbxAllowed (d.g Reg.MBX_CMD_OPCODE) then d.mbxDone .badOpcode 0 0
  else if 4096 < d.g Reg.MBX_CMD_LEN then d.mbxDone .badArg 0 0
  else d

/-- The end of the mailbox command that runs, where it is the one named. -/
def Dev.mbxRun (d : Dev) (op : Nat) (act : Dev → Dev) : Dev :=
  if d.on Reg.MBX_STATUS_BUSY && d.g Reg.MBX_CMD_OPCODE == op then act d else d

/-- MBX_NOP. -/
def Dev.mbxNop (d : Dev) : Dev := d.mbxRun 0 fun d => d.mbxDone .ok 0 0

/-- The 64 bytes of GET_INFO (table 18-8). -/
def Dev.fwInfo (d : Dev) : List Byte :=
  let slot := fun (n : Nat) =>
    let s := d.fw n
    let img := if s.st = 0 then [] else s.image
    leBytes 8 (imgRevision img) ++ leBytes 1 s.st ++ leBytes 1 (imgCounter img) ++ leBytes 6 0
  leBytes 8 (d.g Reg.MBX_FW_REV_VALUE) ++ leBytes 1 d.mgmt.run ++ leBytes 1 d.mgmt.boot ++ leBytes 1 d.mgmt.fuses ++
  leBytes 1 (d.g Reg.MBX_STATUS_RECOVERY) ++ leBytes 4 0 ++ slot 1 ++ slot 2 ++ slot 3

/-- MBX_GET_INFO. -/
def Dev.mbxGetInfo (d : Dev) : Dev := d.mbxRun 1 fun d => (d.mbxOut d.fwInfo).mbxDone .ok 0 64

/-- Bytes of an option copy as the vault reads them; a copy that was never written reads free values. -/
def Dev.copyBytes (d : Dev) (copy : List Byte) : List Byte :=
  copy ++ (List.range (4096 - copy.length)).map fun i => BitVec.ofNat 8 (Config.freeValue (d.freeCtr + i))

/-- MBX_OPT_READ: ARG 0 the loaded copy, 1 copy A, 2 copy B. -/
def Dev.mbxOptRead (d : Dev) : Dev :=
  d.mbxRun 2 fun d =>
    let give := fun (d : Dev) (bs : List Byte) => (Dev.mbxOut { d with freeCtr := d.freeCtr + 4096 } bs).mbxDone .ok 0 4096
    match d.g Reg.MBX_ARG_VALUE with
    | 0 => give d (d.copyBytes d.opt.block)
    | 1 => give d (d.copyBytes d.vlt.optA)
    | 2 => give d (d.copyBytes d.vlt.optB)
    | _ => d.mbxDone .badArg 0 0

/-- Offset of the field of table 16-7 that an RST_FIELD_DEF bit names. -/
def optOffset (i : Nat) : Nat := [0x15, 0x15, 0x16, 0x17, 0x18, 0x1C, 0x30, 0x100].getD i 0

/-- The first field of an option block that fails its check (R759), by offset. -/
def optCheck (b : List Byte) : Option Nat :=
  if leAt b 0 4 ≠ 0x4254504F then some 0
  else if leAt b 4 2 ≠ 1 then some 4
  else if leAt b 6 2 ≠ 4096 then some 6
  else (optFaults b).head?.map optOffset

/-- MBX_OPT_WRITE (R709, R759): a block that passes is written, with a sequence 1 above the loaded one and its CRC-32C, to the copy the last
load did not take, or to copy A where both were bad. `vaultOk` says that the write and the read-back succeeded. -/
def Dev.mbxOptWrite (d : Dev) (vaultOk : Bool) : Dev :=
  d.mbxRun 3 fun d =>
    let b := d.mbxIn 4096
    if d.g Reg.MBX_CMD_LEN ≠ 4096 then d.mbxDone .badArg 0 0
    else match optCheck b with
      | some off => d.mbxDone .badArg off 0
      | none =>
        let seq := (d.g Reg.RST_OPT_SEQ_SEQ + 1) % 2 ^ 64
        let body := b.take 8 ++ leBytes 8 seq ++ (b.drop 16).take (0xFFC - 16)
        let copy := if vaultOk then body ++ leBytes 4 (crc32c body) else []
        let toB := !d.on Reg.RST_STATUS_OPTIONS_DEFAULTED && !d.on Reg.RST_STATUS_COPY_USED
        let d := if toB then { d with vlt := { d.vlt with optB := copy } } else { d with vlt := { d.vlt with optA := copy } }
        let d := (d.emit (.vault "option block" (bit toB))).program 4096
        if vaultOk then d.mbxDone .ok seq 0 else d.mbxDone .vaultError 0 0

/-- Bytes 0x00 to 0x3B of an event record (table 18-6). -/
def LogRec.body (r : LogRec) : List Byte :=
  leBytes 8 r.seq ++ leBytes 8 r.us ++ leBytes 4 r.rstCount ++ leBytes 2 r.code ++ leBytes 1 r.sev ++ leBytes 1 0 ++
  (r.payload ++ List.replicate 36 0).take 36

/-- An event record (table 18-6). -/
def LogRec.bytes (r : LogRec) : List Byte := r.body ++ leBytes 4 (crc32c r.body)

/-- MBX_LOG_READ: up to 64 records from ARG, or from LOG_FIRST_SEQ where that is higher. -/
def Dev.mbxLogRead (d : Dev) : Dev :=
  d.mbxRun 4 fun d =>
    let rs := ((d.log.ring ++ d.log.tail).filter fun r => decide (d.g Reg.MBX_ARG_VALUE ≤ r.seq)).take 64
    (d.mbxOut (rs.flatMap LogRec.bytes)).mbxDone .ok rs.length (64 * rs.length)

/-- MBX_FW_SELECT: sets the boot slot. It waits while an activation runs (table 18-3). -/
def Dev.mbxFwSelect (d : Dev) : Dev :=
  d.mbxRun 5 fun d =>
    let n := d.g Reg.MBX_ARG_VALUE
    if d.mgmt.act.isSome then d
    else if n < 1 ∨ 3 < n then d.mbxDone .badArg 0 0
    else if d.mgmt.pldm.any (·.slot = n) then d.mbxDone .inUse 0 0
    else if (d.fw n).st == 1 && d.admissible (d.fw n).image then
      (Dev.emit { d with mgmt := { d.mgmt with boot := n } } (.vault "directory" n)).mbxDone .ok 0 0
    else d.mbxDone .badArg 0 0

/-! ### PLDM (R745, R746) -/

/-- Whether MCTP control and PLDM are answered: by the core, or by the boot ROM in recovery mode (R733, R743). -/
def Dev.mgmtUp (d : Dev) : Bool := d.on Reg.MBX_STATUS_CORE_UP || d.on Reg.MBX_STATUS_RECOVERY

/-- A PLDM reply with a completion code. -/
def Dev.pldmReply (d : Dev) (code : Nat) : Dev := d.emit (.mgmt 0x01 code [])

/-- PLDM_REQUEST_UPDATE for an image of `size` bytes: its target slot is fixed (R745), or it is refused (table 18-3). -/
def Dev.pldmRequestUpdate (d : Dev) (size : Nat) : Dev :=
  if !d.mgmtUp then d
  else if d.mgmt.act.isSome || !d.mgmt.waiting.isEmpty then d.pldmReply 0x8E
  else if d.mgmt.pldm.isSome then d.pldmReply 0x81
  else if size < 4096 ∨ 0x10000000 < size then d.pldmReply 0x02
  else Dev.pldmReply { d with mgmt := { d.mgmt with pldm := some (Pldm.mk d.updateSlot [] size) } } 0

/-- PLDM_FIRMWARE_DATA (R740, R745): the next piece, of up to 4,096 bytes, is written to the target slot, which is BAD until the whole image
has been written and read back admissible. VerifyComplete reports the result. In recovery mode a slot left VALID is followed by source 11 (R743). -/
def Dev.pldmFirmwareData (d : Dev) (bytes : List Byte) : Dev :=
  match d.mgmt.pldm with
  | none => d
  | some u =>
    let piece := (bytes.take 4096).take (u.size - u.data.length)
    if !d.mgmtUp || piece.isEmpty then d
    else
      let data := u.data ++ piece
      let d := { d with mgmt := { d.mgmt with pldm := some { u with data := data } } }
      if data.length < u.size then (d.updFw u.slot fun x => { x with st := 2, image := data }).emit (.vault "firmware slot" u.slot)
      else
        let d := d.writeSlot u.slot data
        let ok := (d.fw u.slot).st == 1
        let d := d.emit (.mgmt 0x01 0x18 [if ok then 0 else 1])
        if ok && d.on Reg.MBX_STATUS_RECOVERY then d.raiseSource 11 else d

/-- PLDM_ACTIVATE_FIRMWARE (R745): sets the boot slot, and activates at once where self-contained activation is requested. -/
def Dev.pldmActivateFirmware (d : Dev) (selfContained : Bool) : Dev :=
  if !d.mgmtUp then d
  else match d.mgmt.pldm with
    | none => d.pldmReply 0x80
    | some u =>
      if u.data.length < u.size ∨ (d.fw u.slot).st ≠ 1 then d.pldmReply 0x85
      else
        let act := if selfContained && d.mgmt.act.isNone then some (FwAct.mk u.slot none) else d.mgmt.act
        let d := Dev.emit { d with mgmt := { d.mgmt with pldm := none, boot := u.slot, act := act } } (.vault "directory" u.slot)
        d.pldmReply 0

/-- PLDM_BASE_DISCOVERY (R748): SetTID, GetTID, GetPLDMVersion, GetPLDMTypes and GetPLDMCommands of type 0. -/
def Dev.pldmBaseDiscovery (d : Dev) (cmd arg : Nat) : Dev :=
  if !d.mgmtUp then d
  else match cmd with
    | 0x01 => if arg = 0 ∨ 255 ≤ arg then d.pldmReply 0x02 else Dev.pldmReply { d with mgmt := { d.mgmt with tid := arg } } 0
    | 0x02 => d.emit (.mgmt 0x01 0 (leBytes 1 d.mgmt.tid))
    | 0x03 => if arg = 0 ∨ arg = 5 then d.emit (.mgmt 0x01 0 (leBytes 4 (Config.standardValue 0x03 arg))) else d.pldmReply 0x83
    | 0x04 => d.emit (.mgmt 0x01 0 (leBytes 8 0x21))
    | 0x05 => if arg = 0 ∨ arg = 5 then d.emit (.mgmt 0x01 0 (leBytes 32 (Config.standardValue 0x05 arg))) else d.pldmReply 0x83
    | _ => d.pldmReply 0x05

/-! ### MCTP control (R747, R748) -/

/-- I3C_MODE_ENTRY: ENTDAA or SETDASA after COLD exit (R747). -/
def Dev.i3cModeEntry (d : Dev) : Dev := if d.rst.reach = 5 then d else { d with mgmt := { d.mgmt with i3c := true } }

/-- SET_ENDPOINT_ID: 0 and 0xFF are no endpoint IDs. -/
def Dev.setEndpointId (d : Dev) (eid : Nat) : Dev :=
  if !d.mgmtUp then d
  else if eid = 0 ∨ 255 ≤ eid then d.emit (.mgmt 0x00 2 [])
  else Dev.emit { d with mgmt := { d.mgmt with eid := eid } } (.mgmt 0x00 0 (leBytes 1 eid))

/-- GET_ENDPOINT_ID: 0, the null EID, until one has been set. -/
def Dev.getEndpointId (d : Dev) : Dev := if !d.mgmtUp then d else d.emit (.mgmt 0x00 0 (leBytes 1 d.mgmt.eid))

/-- The message types served (table 18-4); in recovery mode MCTP control and PLDM (R743). -/
def Dev.msgTypes (d : Dev) : List Nat := if d.on Reg.MBX_STATUS_CORE_UP then [0x00, 0x01, 0x04] else [0x00, 0x01]

/-- GET_MCTP_VERSION_SUPPORT of a message type; 0xFF asks for the base specification. -/
def Dev.getMctpVersionSupport (d : Dev) (typ : Nat) : Dev :=
  if !d.mgmtUp then d
  else if d.msgTypes.contains typ || typ == 0xFF then d.emit (.mgmt 0x00 0 (leBytes 4 (Config.mctpVersion typ)))
  else d.emit (.mgmt 0x00 0x80 [])

/-- GET_MESSAGE_TYPE_SUPPORT. -/
def Dev.getMessageTypeSupport (d : Dev) : Dev :=
  if !d.mgmtUp then d
  else d.emit (.mgmt 0x00 0 (leBytes 1 d.msgTypes.length ++ d.msgTypes.flatMap (leBytes 1)))

/-- GET_ENDPOINT_UUID. -/
def Dev.getEndpointUuid (d : Dev) : Dev := if !d.mgmtUp then d else d.emit (.mgmt 0x00 0 Config.endpointUuid)

/-! ### NVMe-MI (R749) -/

/-- A command of the management endpoint: answered only while the core runs (table 18-1). -/
def Dev.mi (d : Dev) (act : Dev → Dev) : Dev := if d.on Reg.MBX_STATUS_CORE_UP then act d else d

/-- An NVMe-MI reply with a status: 0 Success, 3 Invalid Command Opcode, 4 Invalid Parameter. -/
def Dev.miReply (d : Dev) (status : Nat) (bytes : List Byte) : Dev := d.emit (.mgmt 0x04 status bytes)

/-- An NVMe-MI reply that carries a standard structure as named values. -/
def Dev.miInfo (d : Dev) (what : String) (items : List (String × Nat)) : Dev :=
  (d.emit (.info d.primaryB tunnelCid what items)).miReply 0 []

/-- READ_NVME_MI_DATA_STRUCTURE: type 0 subsystem, 1 port, 2 controller list, 3 controller, 4 optional commands. -/
def Dev.readMiDataStructure (d : Dev) (typ cntid : Nat) : Dev :=
  d.mi fun d =>
    match typ with
    | 0 => d.miInfo "NVM Subsystem Information" [("NUMP", 0), ("MJR", 2), ("MNR", 0)]
    | 1 => d.miInfo "Port Information" [("MCTP transmission unit", 64), ("Management endpoint address", 0x1D)]
    | 2 => d.miInfo "Controller List" (named "CNTLID" (d.cntlids.filter (cntid ≤ ·)))
    | 3 => if d.cntlids.contains cntid then d.miInfo "Controller Information" [("CNTLID", cntid), ("VID", 0x1D7A), ("SSVID", d.opt.vendor)]
           else d.miReply 4 []
    | 4 => d.miInfo "Optionally Supported Command List" (named "Opcode" [0x00, 0x01, 0x02, 0x03, 0x04, 0x05, 0x07])
    | _ => d.miReply 4 []

/-- The health that the endpoint reports: table 11-12 and the Array Health page. -/
def Dev.miHealth (d : Dev) : List (String × Nat) := d.smart ++ [("Array Health", leNat d.arrayHealth)]

/-- SUBSYSTEM_HEALTH_STATUS_POLL; `clear` clears the status changes kept. -/
def Dev.subsystemHealthPoll (d : Dev) (clear : Bool) : Dev :=
  d.mi fun d =>
    let d := d.miInfo "NVM Subsystem Health" d.miHealth
    if clear then { d with mgmt := { d.mgmt with config := AMap.erase d.mgmt.config 2 } } else d

/-- CONTROLLER_HEALTH_STATUS_POLL from a controller on. -/
def Dev.controllerHealthPoll (d : Dev) (first : Nat) : Dev :=
  d.mi fun d =>
    let one := fun (b : Bool) =>
      let c := d.ctl b
      [("CNTLID", d.cntlid b), ("RDY", bit c.rdy), ("CFS", bit c.cfs), ("SHST", c.shst)]
    let list := [false, true].filter fun b => decide (first ≤ d.cntlid b)
    d.miInfo "Controller Health" (list.flatMap one ++ d.miHealth)

/-- Configuration identifiers of NVMe-MI: 1 bus frequency (1 to 3), 2 health status change, 3 MCTP transmission unit size. -/
def miConfigOk (id v : Nat) : Bool := (id == 1 && decide (1 ≤ v ∧ v ≤ 3)) || id == 2 || (id == 3 && v == 64)

/-- CONFIGURATION_SET. -/
def Dev.configurationSet (d : Dev) (id v : Nat) : Dev :=
  d.mi fun d =>
    if miConfigOk id v then Dev.miReply { d with mgmt := { d.mgmt with config := AMap.put d.mgmt.config id v } } 0 []
    else d.miReply 4 []

/-- CONFIGURATION_GET: a configuration that was not set has its default. -/
def Dev.configurationGet (d : Dev) (id : Nat) : Dev :=
  d.mi fun d =>
    if 1 ≤ id ∧ id ≤ 3 then
      d.miReply 0 (leBytes 4 ((AMap.get d.mgmt.config id).getD (if id = 1 then 1 else if id = 3 then 64 else 0)))
    else d.miReply 4 []

/-- VPD_READ: a read-only record built from MN, SN and the fuse serial number. -/
def Dev.vpdRead (d : Dev) (off len : Nat) : Dev :=
  d.mi fun d => d.miInfo "VPD" [("DOFST", off), ("DLEN", len), ("MN", leNat modelNumber), ("SN", leNat d.opt.sn),
    ("Serial", d.g Reg.GCS_SERIAL_SERIAL)]

/-- VPD_WRITE completes with Invalid Parameter. -/
def Dev.vpdWrite (d : Dev) : Dev := d.mi fun d => d.miReply 4 []

/-- MI_RESET resets the management endpoint only: its configuration returns to the defaults. -/
def Dev.miReset (d : Dev) : Dev := d.mi fun d => Dev.miReply { d with mgmt := { d.mgmt with config := [] } } 0 []

/-- MI_TUNNELLED_ADMIN: the five commands served act as on PF0 of the primary port; every other opcode completes with Invalid Command
Opcode. `tag` tells requests apart. -/
def Dev.miTunnelledAdmin (d : Dev) (tag : Nat) (c : TunnelCmd) : Dev :=
  d.mi fun d =>
    let b := d.primaryB
    let cid := tunnelCid + tag
    match c with
    | .identify cns nsid cntid => d.identifyCmd b cid cns nsid cntid
    | .getLogPage lid nsid off len rae => d.getLogPage b cid lid nsid off len rae
    | .getFeatures fid nsid cdw11 sel => d.getFeatures b cid fid nsid cdw11 sel
    | .imageDownload off bytes => d.firmwareImageDownload b cid off bytes
    | .firmwareCommit slot action => d.firmwareCommit b cid slot action
    | .other _ => d.miReply 3 []

end Sys2Proof.Machine
end

