-- ==== Sys2Proof/Machine/Buffer.lean ====
section
/-!
DEFINITION. Meanings of the buffer-memory rows (chapter 4): uncorrectable lines and their consequences (table 4-4), the repair of journal
lines from the partner's mirror area, the patrol scrub, and the clearing of the line counters.
-/
namespace Sys2Proof.Machine

/-! ### What a journal line holds (table 5-1) -/

/-- Whether a record holds a line of its journal: its header line, or a line of its payload blocks. A line of the control block's MiB belongs
to no record, and table 4-4 names no consequence for it (log entry 122). -/
def Dev.holdsLine (d : Dev) (off : Nat) (r : JRec) : Bool :=
  let slots := d.g Reg.JNL_HDR_SLOTS_COUNT
  let ring := d.g Reg.JNL_PAY_BLOCKS_COUNT
  let pay := 0x100000 + 64 * slots
  if off < 0x100000 then false
  else if off < pay then r.seq % slots == (off - 0x100000) / 64
  else r.payBlocks != 0 && decide (((off - pay) / 4096 + ring - r.payIdx) % ring < r.payBlocks)

/-- The namespace ranges that a record holds. -/
def Dev.recRanges (d : Dev) (r : JRec) : List (Nat × Nat × Nat) :=
  match r.typ with
  | .write | .zero => [(r.nsid, r.pos, r.len)]
  | .recon => match d.pool r.pool with
    | none => []
    | some c => (List.range r.len).filterMap fun i =>
        (d.blockOwner r.epoch c r.pool r.stripe ((r.pos + i) / c.fragBlocks) ((r.pos + i) % c.fragBlocks)).map fun x => (x.1, x.2, 1)
  | _ => []

/-- A local record is lost: drydown never destages it, and its range reads as lost (table 4-4, R233). -/
def Dev.loseRec (d : Dev) (r : JRec) : Dev :=
  let gone := fun (x : JRec) => { x with lost := true }
  let d := { d with jnl := { d.jnl with recs := updWhere (fun (x : JRec) => x.seq == r.seq) gone d.jnl.recs } }
  let rs := d.recRanges r
  if rs.isEmpty then d else d.markLost rs false (.lost [r.seq])

/-- A line of the local journal: its record is read back from the partner's mirror area, or lost (R171, R625). -/
def Dev.localLine (d : Dev) (off : Nat) : Dev :=
  match d.jnl.recs.find? fun r => !r.retired && !r.lost && d.holdsLine off r with
  | none => d
  | some r =>
    if d.mirroring && decide (r.seq ≤ d.g Reg.ACD_ACKED_SEQ) && d.g Reg.ACD_STATUS_LINKS_UP != 0 then
      { d with jnl := { d.jnl with fixing := (d.jnl.fixing ++ [r.seq]).eraseDups } }
    else d.loseRec r

/-- A line of the mirror area: the mirrored record is invalid and the partner hears of it (R171, R625); a record already adopted is
lost. -/
def Dev.mirrorLine (d : Dev) (off : Nat) : Dev :=
  match d.acd.adopted.find? fun r => !r.retired && d.holdsLine off r with
  | some r => (d.markLost (d.recRanges r) false .other).retireAdopted [r.seq]
  | none => match d.acd.mirror.find? fun r => !r.retired && d.holdsLine off r with
    | none => d
    | some r =>
      let d := { d with acd := { d.acd with mirrorBad := (d.acd.mirrorBad ++ [r.seq]).eraseDups } }
      (d.peerSend 0x0E [r.seq]).inc Reg.ACD_COUNTS_MIRROR_BAD

/-! ### Placement lines (table 4-4, R172, R173) -/

/-- The reset source of the store that a line belongs to: the rule names those of rows, images and exception entries; a free spare-slot set
raises the source of exception entries (log entry 123). -/
def LineUse.source : LineUse → Nat
  | .row _ | .image => 13
  | _ => 14

/-- What a line holds: as it is said, where the area that holds it can hold that (table 4-3). -/
def Dev.lineUse (d : Dev) (addr : Nat) (u : LineUse) : LineUse :=
  match d.area addr, u with
  | .armature, _ => .image
  | .working, .firmware => .firmware
  | .working, _ => .freeSet
  | .metadata, .row k => .row k
  | .metadata, .excs ks => .excs (ks.take 2)
  | .metadata, _ => .excs []
  | _, u => u

/-- A line of the placement class. One whose rebuild meets an uncorrectable read raises the reset source of its store (R172). A resolved row
is rebuilt and written again, and holds the operations that need it until the write is visible; an exception line is rebuilt from the plinth;
an image line and a free set are rebuilt within the command (log entry 120). -/
def Dev.placementLine (d : Dev) (u : LineUse) (how : LineRebuild) : Dev :=
  match how, u with
  | .uncorrectable, u => d.raiseSource u.source
  | .rewritten, .row k => ((d.writeRows [k] (.rebuilt k)).rowsVisible).resumeLines
  | .rewritten, .excs keys => if keys.isEmpty then d else d.fixBegin keys
  | .rewritten, _ => d

/-! ### Lines that a read finds bad -/

/-- Error class of an address (table 4-3): 0 JOURNAL, 1 PLACEMENT, 2 BULK. -/
def Dev.lineClass (d : Dev) (addr : Nat) (u : LineUse) : Nat :=
  match d.area addr with
  | .journal => 0
  | .host => 2
  | .working => if u = .firmware then 2 else 1
  | _ => 1

/-- The count of a class. -/
def ueCount (cls : Nat) : Fld :=
  if cls = 0 then Reg.BUF_UE_COUNT_JOURNAL else if cls = 1 then Reg.BUF_UE_COUNT_PLACEMENT else Reg.BUF_UE_COUNT_BULK

/-- The record, the count and the event of an uncorrectable line (R171). -/
def Dev.ueSeen (d : Dev) (cls source addr : Nat) : Dev :=
  let d := ((d.p Reg.BUF_LAST_UE_CLASS cls).p Reg.BUF_LAST_UE_SOURCE source).p Reg.BUF_LAST_UE_LINE (addr / 64)
  ((d.inc (ueCount cls)).p Reg.BUF_STATUS_UE_SEEN 1).event 0x1501 3 (leBytes 1 cls ++ leBytes 1 source ++ leBytes 6 (addr / 64 * 64))

/-- An uncorrectable line (R171 to R173): it is recorded, counted and logged, and takes its consequence. `source` is 0 device agent, 1 host
through BAR4, 2 channel, 3 scrub; a BULK line met by the scrub is only recorded and counted (R180). -/
def Dev.lineBad (d : Dev) (addr source : Nat) (u : LineUse) (how : LineRebuild) : Dev :=
  let u := d.lineUse addr u
  let cls := d.lineClass addr u
  let d := d.ueSeen cls source addr
  let half := journalBytes (d.g Reg.BUF_CONFIG_PA_GIB) (!d.solo)
  match d.area addr with
  | .journal => if addr < half then d.localLine addr else d.mirrorLine (addr - half)
  | .host => { d with badHost := (d.badHost ++ [addr / 64]).eraseDups }
  | _ => if cls = 1 then d.placementLine u how else if source = 3 then d else d.coreRestart 1

/-- A corrected line is written back (R169, R180). Contents outside the host area the model holds as what they mean, and a line of them that
is decoded to a wrong codeword keeps its meaning (log entry 131). -/
def Dev.lineBack (d : Dev) (addr : Nat) (w : List Byte) : Dev := d.hbmWrite (addr / 64 * 64) (w.take 64)

/-- A read of a line (R166, R168): the 72 bytes `stored`, with the error pattern `err` on them. `inner` says that the stack reports it
corrected; the outer decoder corrects it, with a write-back, or finds it uncorrectable. -/
def Dev.lineRead (d : Dev) (addr source : Nat) (inner : Bool) (stored err : List Byte) (u : LineUse) (how : LineRebuild) : Dev :=
  if d.hbmTop ≤ addr then d
  else
    let one := stackOf addr
    let w := (List.range 72).map fun i => stored.getD i 0 ^^^ err.getD i 0
    let d := if inner then d.inc (if one then Reg.BUF_CE_COUNT1_INNER else Reg.BUF_CE_COUNT0_INNER) else d
    match if d.badHost.contains (addr / 64) then none else rsDecode w with
    | none => d.lineBad addr source u how
    | some c =>
      if c == w then d
      else (d.inc (if one then Reg.BUF_CE_COUNT1_OUTER else Reg.BUF_CE_COUNT0_OUTER)).lineBack addr c

/-! ### Fills of the ELB (R352 to R364) -/

/-- Whether a line of the resolved-row table is being rebuilt. -/
def Dev.rowRebuilding (d : Dev) (k : RowKey) : Bool := d.fab.rowWrites.any fun w => w.act == .rebuilt k

/-- A fill's record arrives good: it is installed, a lookup that waited for a free fill goes on, and the channels that wait for it have their
row (R352, R353, R357). -/
def Dev.fillInstall (d : Dev) (r : Nat) (f : Fill) (record : List Byte) : Dev :=
  let x : ElbEntry := ⟨f.key, d.rowLineAddr f.key, record⟩
  let d := d.updRegion r fun y => { (y.install x) with fills := y.fills.filter (·.key ≠ f.key) }
  let d := match (d.region r).fillWait with
    | [] => d
    | (op, wk) :: rest => ((d.updRegion r fun y => { y with fillWait := rest }).elbLookup r op wk).2
  f.waiters.foldl (fun (d : Dev) oid =>
    if (d.region r).awaits oid then d
    else match d.op oid with
      | some o => if o.phase = .waitElb then d.lookedUp oid else d
      | none => d) d

/-- A fill's record is not valid or not that of its key: it is not installed. Its line is an uncorrectable PLACEMENT line, and the channels
wait until that is rebuilt (R355). -/
def Dev.fillBad (d : Dev) (r : Nat) (k : RowKey) (how : LineRebuild) : Dev :=
  let hold := fun (x : Fill) => { x with held := true }
  let d := d.updRegion r fun y => { y with fills := updWhere (fun (x : Fill) => x.key == k) hold y.fills }
  (d.ueSeen 1 0 (d.rowLineAddr k)).placementLine (.row k) how

/-- ELB_FILL_DATA: the data of a fill arrives (R355, R362): that of a poisoned fill is discarded and fetched again, that of a line under
rebuild does not come before the rebuild. -/
def Dev.elbFillData (d : Dev) (r : Nat) (k : RowKey) (good : Bool) (how : LineRebuild) : Dev :=
  match (d.region r).fills.find? (·.key = k) with
  | none => d
  | some f =>
    if f.poisoned then
      let clean := fun (x : Fill) => { x with poisoned := false }
      d.updRegion r fun x => { x with fills := updWhere (fun (y : Fill) => y.key == k) clean x.fills, poisoned := min (x.poisoned + 1) 0xFFFF }
    else if f.held && d.rowRebuilding k then d
    else match good, d.rowRecord k with
      | true, some rec_ => d.fillInstall r f rec_
      | _, _ => d.fillBad r k how

/-! ### The rows -/

/-- BUF_UNCORRECTABLE_LINE (R166 to R173): a read of a line by a device agent, a host or a channel. -/
def Dev.bufUncorrectableLine (d : Dev) (addr source : Nat) (inner : Bool) (stored err : List Byte) (u : LineUse) (how : LineRebuild) : Dev :=
  d.lineRead addr source inner stored err u how

/-- JOURNAL_LINE_REPAIR (R171, R625): the record's lines arrive and are rewritten, or the partner cannot give them and the record is
lost. -/
def Dev.journalLineRepair (d : Dev) (seq : Nat) (ok : Bool) : Dev :=
  if !d.jnl.fixing.contains seq then d
  else
    let d := { d with jnl := { d.jnl with fixing := d.jnl.fixing.filter (· ≠ seq) } }
    match ok, d.jnl.recs.find? (·.seq = seq) with
    | false, some r => if r.retired then d else d.loseRec r
    | _, _ => d

/-- The patrol scrub goes on to the next line; after the last one a pass has completed (R180). -/
def Dev.scrubStep (d : Dev) : Dev :=
  let next := d.scrubLine + 1
  if d.hbmTop ≤ 64 * next then Dev.inc { d with scrubLine := 0 } Reg.BUF_SCRUB_PASSES else { d with scrubLine := next }

/-- PATROL_SCRUB (R166, R180 to R182): the next line is read. While a package reset is held the controllers take no request (R176). -/
def Dev.patrolScrub (d : Dev) (inner : Bool) (stored err : List Byte) (u : LineUse) (how : LineRebuild) : Dev :=
  if d.on Reg.BUF_STATUS_SCRUB_PAUSED || !d.on Reg.BUF_STATUS_INIT_DONE || (d.rst.reach != 0 && d.rst.step == 0) then d
  else (d.lineRead (64 * d.scrubLine) 3 inner stored err u how).scrubStep

/-- BUF_CLR_COUNTS (table 4-10). -/
def Dev.bufClrCounts (d : Dev) (req : Requester) : Dev :=
  d.globalCmd req Reg.BUF_CTRL_CLR_COUNTS fun d => ((d.setReg 0x280010 0).setReg 0x280014 0).setReg 0x280018 0

end Sys2Proof.Machine
end

