-- ==== Sys2Proof/Machine/State.lean ====
section
/-!
DEFINITION. The state: the queue of waiting commands, the host area of buffer memory, and the device; how a step can stop; and the state right
after a COLD reset.
-/
namespace Sys2Proof.Machine

/-- The machine: commands that wait, first in first out; the bytes of buffer memory's host area; everything else the device holds. -/
structure State where
  pending : List Instr
  mem : Memory
  dev : Dev
deriving DecidableEq, Repr

/-- Why the machine stops with a fault. It has no constructor: the spec gives every command an effect, so nothing raises a fault. -/
inductive Fault
deriving DecidableEq, Repr

/-- Why a command has no meaning. -/
inductive Refusal
  /-- A command of the table that is not modelled, by its mnemonic. No arm of the dispatch raises it: every command has a meaning. It is safe. -/
  | notModelled (mnemonic : String)
deriving DecidableEq, Repr

/-- Reach codes of the fuse table at their defaults (table 16-1, R680), source 0 first; the unused entry of source 18 and the reserved ones
are 0. -/
def defaultReach : List Nat := [5, 5, 6, 6, 4, 4, 5, 5, 4, 4, 4, 5, 4, 4, 4, 4, 4, 5, 0, 3, 3, 2, 2, 1, 1]

/-- The fuse table as one number, three bits a source. -/
def reachBits : List Nat → Nat
  | [] => 0
  | c :: cs => c + 8 * reachBits cs

/-- Registers whose value after COLD is not that of the field tables' Init column alone: what fuses give (table 19-4, R680, table 4-7; log
entries 5 and 6), and the reset counter, which this reset has moved (R700). -/
def resetRegs : AMap DWord :=
  [(0x10000, 0x20480021#64), (0x240008, 1#64), (0x24001C, BitVec.ofNat 64 (reachBits defaultReach % 2 ^ 32)),
   (0x240020, BitVec.ofNat 64 (reachBits defaultReach / 2 ^ 32 % 2 ^ 32)),
   (0x240024, BitVec.ofNat 64 (reachBits defaultReach / 2 ^ 64)), (0x280000, 48#64)]

/-- A dump generation that was never written. -/
def DumpGen.blank : DumpGen := ⟨0, .empty, [], [], [], none⟩

/-- The device after a COLD reset of a package whose vault holds nothing, with no source active and the exit about to begin. -/
def Dev.reset : Dev :=
  { regs := resetRegs, bus := ⟨[], []⟩, freeCtr := 0, now := 0, emitted := [], nextId := 1
    log := ⟨[], [], 0⟩
    jnl := Jnl.blank ⟨0, 0, [], []⟩ ⟨0, 0, []⟩
    locks := [], setWait := [], ops := [], mcmds := [], mbrs := [], disc := []
    sil := Sil.blank
    arm := ⟨none, none, none, ⟨PDir.blank, 1, 1, .none⟩, [], [], [], [], [], 0, 0, []⟩
    keys := ⟨[], [], 1, [], []⟩
    fab := Fab.blank
    cmds := [], ctlA := NvmeCtl.blank, ctlB := NvmeCtl.blank
    nvm := ⟨[], [], [], false, false, 0, 0, 0, 0, 0, false, []⟩
    ports := ⟨HPort.blank true, HPort.blank true⟩
    mport := ⟨List.replicate 48 ⟨false, false, false, 0, 0⟩, [], [], false, true, [], none, []⟩
    acd := Acd.blank none
    opt := Opts.blank
    cwq := Cwq.blank
    badHost := [], scrubLine := 0
    rst := ⟨[], [], 5, [0], 0, false, false, false, false, false, true, 0, false, false, false, true⟩
    vlt := ⟨DumpGen.blank, DumpGen.blank, [], [], false, false, none, none, 0, 0, 0, 0, true, none, false⟩
    mgmt := { slots := [⟨0, [], 0⟩, ⟨0, [], 0⟩, ⟨0, [], 0⟩], boot := 1, run := 0, fuses := 0, stamp := 0, download := [], act := none,
              pending := none, waiting := [], pldm := none, eid := 0, i3c := false, proven := false, config := [], rom := [],
              therm := [], thermPeak := [], rails := [], railLow := [], base := 0, extra := false, lowRuns := 0, oddUs := 0,
              avsStop := false, vcdOld := none, tid := 0 } }

/-- The machine right after reset, with no command waiting and nothing listed in memory. -/
def State.reset : State := ⟨[], [], Dev.reset⟩

end Sys2Proof.Machine
end

