-- ==== Sys2Proof/Machine/Lift.lean ====
section
/-!
DEFINITION. What every command's meaning shares: what was sent before is forgotten, the command's operation acts on the device, and what it
wrote into buffer memory's host area reaches the memory.
-/
namespace Sys2Proof.Machine

/-- What one thing sent outside does to the host area of buffer memory. -/
def applyHbm (m : Memory) : Emit → Memory
  | .hbm a bs => m.store a bs
  | .hbmZero => []
  | _ => m

/-- Whether something sent is a vault access, which powers the NAND dies up (R716). -/
def Emit.isVault : Emit → Bool
  | .vault _ _ => true
  | _ => false

/-- The device after a command's operation: only this command's output is listed, and a vault access has powered the NAND dies up. -/
def runDev (f : Dev → Dev) (d : Dev) : Dev :=
  let d := f { d with emitted := [] }
  if d.emitted.any Emit.isVault then { d with vlt := { d.vlt with nandOff := false } } else d

/-- A command's effect on everything but the queue. -/
def runState (s : State) (f : Dev → Dev) : State :=
  let d := runDev f s.dev
  { pending := s.pending, mem := d.emitted.foldl applyHbm s.mem, dev := d }

/-- The outcome of a command: it always runs. -/
def lift (s : State) (f : Dev → Dev) : Host.Outcome State Fault Refusal := .next (runState s f)

end Sys2Proof.Machine
end

