-- ==== Sys2Proof/Machine/AccordRows.lean ====
section
/-!
DEFINITION. Meanings of the accord (chapter 14): each row applies its operation to the device.
-/
namespace Sys2Proof.Machine

/-- HEARTBEAT_SEND (R633): Every 200 µs the package writes its heartbeat to the partner on both links. -/
def execHeartbeatSend (s : State) : Host.Outcome State Fault Refusal :=
  lift s fun d => d.heartbeatSend

/-- HEARTBEAT_RECEIVED (R633): A partner heartbeat of a new count arrives, and the package learns the partner's head. -/
def execHeartbeatReceived (view : PeerView) (s : State) : Host.Outcome State Fault Refusal :=
  lift s fun d => d.heartbeatReceived view

/-- PARTNER_LOSS (R633): 8 periods pass without a new heartbeat, so partner loss is declared and a fence request is raised.
-/
def execPartnerLoss (s : State) : Host.Outcome State Fault Refusal :=
  lift s fun d => d.partnerLoss.settleAll

/-- PEER_LINK_DOWN (R633): A peer link goes down, LINK_DOWN is set and mirroring continues on the other link. -/
def execPeerLinkDown (pb : Bool) (s : State) : Host.Outcome State Fault Refusal :=
  lift s fun d => d.peerLinkDown pb

/-- FENCE_HOLDOFF_EXPIRY (R634): Role 1's 1 ms hold-off ends, and it asserts FENCE_OUT_N if it is not fenced by then. -/
def execFenceHoldoffExpiry (s : State) : Host.Outcome State Fault Refusal :=
  lift s fun d => d.fenceHoldoffExpiry

/-- FENCE_IN_ASSERT (R636): FENCE_IN_N goes low, the arbiter sets fenced, and the package isolates itself and raises fence
received. -/
def execFenceInAssert (s : State) : Host.Outcome State Fault Refusal :=
  lift s fun d => d.fenceInAssert

/-- FENCE_IN_RELEASE (R611): FENCE_IN_N is released, and a fenced package discards its journal and enters JOINING. -/
def execFenceInRelease (s : State) : Host.Outcome State Fault Refusal :=
  lift s fun d => d.fenceInRelease

/-- FENCE_IN_PLACE (R635): 10 µs after FENCE_OUT_N asserts, the fence is in place and held completions are posted on local
copies. -/
def execFenceInPlace (s : State) : Host.Outcome State Fault Refusal :=
  lift s fun d => d.fenceInPlace.settleAll

/-- MIRROR_COMMIT_DOORBELL (R624): The receiver processes a COMMIT doorbell and acknowledges the contiguous sequence once the
lines are accepted. -/
def execMirrorCommitDoorbell (first : Nat) (last : Nat) (tail : Nat) (crcOk : Bool) (recs : List JRec) (s : State) :
    Host.Outcome State Fault Refusal :=
  lift s fun d => (d.mirrorCommitDoorbell first last tail crcOk recs).settleAll

/-- PEER_WINDOW_REQUEST (R608, R621): A peer request to an address of the peer link: an offset or a kind that Table 14-5 does not allow
receives Unsupported Request. -/
def execPeerWindowRequest (write : Bool) (addr : Nat) (len : Nat) (s : State) : Host.Outcome State Fault Refusal :=
  lift s fun d => d.peerWindowRequest write addr len

/-- JOIN (R644): A JOIN message is checked against the receiver's role, P, SN, SUBNQN and identity, and it starts or ends the
join. -/
def execJoin (msg : JoinMsg) (s : State) : Host.Outcome State Fault Refusal :=
  lift s fun d => d.join msg

/-- KEYX (R629): A KEYX message carries the signed ECDH key, and the transport key is derived once it is verified. -/
def execKeyx (verified : Bool) (certLen : Nat) (s : State) : Host.Outcome State Fault Refusal :=
  lift s fun d => d.keyx verified certLen

/-- KEY (R630): A KEY message installs or destroys a namespace key, and the receiver answers with KEY_DONE. -/
def execKey (op : Nat) (slot : Nat) (nsid : Nat) (keyNo : Nat) (s : State) : Host.Outcome State Fault Refusal :=
  lift s fun d => d.keyMsg op slot nsid keyNo

/-- KEY_DONE (R630): A KEY_DONE message makes the sender's slot READY, or completes the partner report of a destruction. -/
def execKeyDone (op : Nat) (result : Nat) (slot : Nat) (nsid : Nat) (s : State) : Host.Outcome State Fault Refusal :=
  lift s fun d => d.keyDone op result slot nsid

/-- MEMBER_EVENT (R615): The steward receives a partner's member event and applies it to the member state machine. -/
def execMemberEvent (m : Nat) (code : Nat) (s : State) : Host.Outcome State Fault Refusal :=
  lift s fun d => (d.memberEventMsg m code).settleAll

/-- OWNERSHIP (R641): An OWNERSHIP message makes the receiver adopt the named pools' records and answer OWN_ACK. -/
def execOwnership (pools : Nat) (head : Nat) (s : State) : Host.Outcome State Fault Refusal :=
  lift s fun d => d.ownership pools head

/-- OWN_ACK (R641): The giver records the transfer and reports ANA Inaccessible for the pools. -/
def execOwnAck (pools : Nat) (s : State) : Host.Outcome State Fault Refusal :=
  lift s fun d => d.ownAck pools

/-- QUIET (R641): A QUIET message lets the receiver send member writes to the adopted stripes. -/
def execQuiet (pools : Nat) (s : State) : Host.Outcome State Fault Refusal :=
  lift s fun d => (d.quiet pools).settleAll

/-- ADOPT_DONE (R641): An ADOPT_DONE message lets the giver retire the transferred records. -/
def execAdoptDone (pools : Nat) (s : State) : Host.Outcome State Fault Refusal :=
  lift s fun d => (d.adoptDone pools).settleAll

/-- ARM_STAGE (R631): The partner validates the staged image, writes it to its vault slot and answers ARM_READY. -/
def execArmStage (epoch : Nat) (crc : Nat) (img : List Byte) (s : State) : Host.Outcome State Fault Refusal :=
  lift s fun d => d.armStage epoch crc img

/-- ARM_READY (R631): The steward continues or ends the commit according to the partner's code. -/
def execArmReady (epoch : Nat) (code : Nat) (draining : Bool) (s : State) : Host.Outcome State Fault Refusal :=
  lift s fun d => (d.armReadyMsg epoch code draining).settleAll

/-- ARM_SWITCH (R631): The partner switches epochs within 2 µs. -/
def execArmSwitch (epoch : Nat) (s : State) : Host.Outcome State Fault Refusal :=
  lift s fun d => ((d.armSwitch epoch).rowsSettled d).settleAll

/-- CKPT_DONE (R615): The partner retires its metadata records up to the sequence that the steward's checkpoint covered. -/
def execCkptDone (seq : Nat) (s : State) : Host.Outcome State Fault Refusal :=
  lift s fun d => d.ckptDone seq

/-- MIRROR_BAD (R625): The sender writes the named record again with its own doorbell. -/
def execMirrorBad (seq : Nat) (s : State) : Host.Outcome State Fault Refusal :=
  lift s fun d => d.mirrorBadMsg seq

/-- RESYNC_DONE (R615): The steward learns that the partner finished resynchronising a member. -/
def execResyncDone (m : Nat) (s : State) : Host.Outcome State Fault Refusal :=
  lift s fun d => d.resyncDoneMsg m

/-- NS_OP (R620): A pool owner carries out a Format NVM or Sanitize for its pools and answers NS_DONE. -/
def execNsOp (op : Nat) (nsid : Nat) (cdw10 : Nat) (cdw11 : Nat) (s : State) : Host.Outcome State Fault Refusal :=
  lift s fun d => d.nsOp op nsid cdw10 cdw11

/-- NS_DONE (R620): The receiving package completes the NVMe command once every owner has answered. -/
def execNsDone (op : Nat) (status : NvStatus) (s : State) : Host.Outcome State Fault Refusal :=
  lift s fun d => d.nsDone op status

/-- FILL_DONE (R797): The partner removes its fill list entry and sets the position READABLE. -/
def execFillDone (pool : Nat) (pos : Nat) (group : Nat) (s : State) : Host.Outcome State Fault Refusal :=
  lift s fun d => (d.fillDoneMsg pool pos group).settleAll

/-- ACD_FENCE (R645): ACD_CTRL.FENCE raises the fence request where allowed, or sets CMD_REFUSED. -/
def execAcdFence (req : Requester) (s : State) : Host.Outcome State Fault Refusal :=
  lift s fun d => d.acdFence req

/-- ACD_RELEASE (R643): ACD_CTRL.RELEASE releases FENCE_OUT_N when ADOPTED is clear, or sets CMD_REFUSED. -/
def execAcdRelease (req : Requester) (s : State) : Host.Outcome State Fault Refusal :=
  lift s fun d => d.acdRelease req

/-- ACD_PEER_RESET (R609): ACD_CTRL.PEER_RESET pulses PA_PERST_N for 1 ms while the partner is fenced. -/
def execAcdPeerReset (req : Requester) (s : State) : Host.Outcome State Fault Refusal :=
  lift s fun d => d.acdPeerReset req

/-- ACD_CLR_COUNTS (R647): ACD_CTRL.CLR_COUNTS clears ACD_COUNTS. -/
def execAcdClrCounts (req : Requester) (s : State) : Host.Outcome State Fault Refusal :=
  lift s fun d => d.acdClrCounts req

/-- ACD_OWN_CMD (R641): A write of a pool mask to ACD_OWN_CMD starts a planned transfer of those pools to the partner. -/
def execAcdOwnCmd (req : Requester) (mask : DWord) (s : State) : Host.Outcome State Fault Refusal :=
  lift s fun d => d.acdOwnCmd req mask.toNat

/-- JOIN_WAIT_EXPIRY (R611): JOIN_WAIT_S passes while JOINING with MIRROR_VALID, and the package fences the partner. -/
def execJoinWaitExpiry (s : State) : Host.Outcome State Fault Refusal :=
  lift s fun d => d.joinWaitExpiry

/-- DRAIN_MS_EXPIRY (R639): DRAIN_MS passes after the fence was in place, and member writes to adopted stripes may begin. -/
def execDrainMsExpiry (s : State) : Host.Outcome State Fault Refusal :=
  lift s fun d => d.drainMsExpiry.settleAll

/-- DUMP_FAILED_SILENCE_EXPIRY (R670): 2 × JOIN_WAIT_S of silence after a failed dump ends, and an unfenced package proceeds
as JOINING. -/
def execDumpFailedSilenceExpiry (s : State) : Host.Outcome State Fault Refusal :=
  lift s fun d => d.dumpFailedSilenceExpiry

/-- PEER_LINK_UP (R633): A peer link finishes training, LINKS_UP is set, and mirroring and heartbeats use it again. -/
def execPeerLinkUp (pb : Bool) (s : State) : Host.Outcome State Fault Refusal :=
  lift s fun d => d.peerLinkUp pb

/-- MESSAGE_RING_ACK (R627): The partner advances MSG_ACK in the control page, freeing ring slots so that a message waiting
for space is written. -/
def execMessageRingAck (ack : Nat) (s : State) : Host.Outcome State Fault Refusal :=
  lift s fun d => d.messageRingAck ack

end Sys2Proof.Machine
end

