-- ==== Sys2Proof/Machine/ArmatureRows.lean ====
section
/-!
DEFINITION. Meanings of the armature rows and the checkpoints (chapters 3 and 5): each row applies its operation to the
device.
-/
namespace Sys2Proof.Machine

/-- ARM_LOAD (R133): The LOAD command discards any maquette, checks ARM_SRC_LEN and starts copying the image into the
maquette. -/
def execArmLoad (req : Requester) (internal : Bool) (s : State) : Host.Outcome State Fault Refusal :=
  lift s fun d => d.armLoad req internal

/-- ARM_LOAD_COPY_DONE (R793): The image copy for a LOAD ends, and the device validates the maquette and reaches STAGED or
REJECTED. -/
def execArmLoadCopyDone (ok : Bool) (img : List Byte) (s : State) : Host.Outcome State Fault Refusal :=
  lift s fun d => d.armLoadCopyDone (Memory.read s.mem) ok img

/-- ARM_COMMIT (R135): The COMMIT command reruns the state-dependent checks and writes the image to the free plinth slot. -/
def execArmCommit (req : Requester) (internal : Bool) (s : State) : Host.Outcome State Fault Refusal :=
  lift s fun d => d.armCommit req internal

/-- ARM_PLINTH_WRITTEN (R136): The plinth writes of a commit end, and the commit either fails with 0x0C01 or writes the vault
slot and commit record. -/
def execArmPlinthWritten (acks : Nat) (vaultOk : Bool) (s : State) : Host.Outcome State Fault Refusal :=
  lift s fun d => d.armPlinthWritten acks vaultOk

/-- ARM_COMMIT_POINT (R135): The vault commit record becomes durable, the active epoch switches and the old epoch starts
draining. -/
def execArmCommitPoint (s : State) : Host.Outcome State Fault Refusal :=
  lift s fun d => d.armCommitPoint.rowsSettled d

/-- ARM_DRAIN_END (R145): ARM_DRAIN_COUNT reaches 0, the old epoch's resolved rows are written invalid, and DRAINING clears
with DONE set. -/
def execArmDrainEnd (s : State) : Host.Outcome State Fault Refusal :=
  lift s fun d => d.armDrainEnd

/-- ARM_DISCARD (R133): The DISCARD command stops any load and empties the maquette without setting DONE. -/
def execArmDiscard (req : Requester) (internal : Bool) (s : State) : Host.Outcome State Fault Refusal :=
  lift s fun d => d.armDiscard req internal

/-- CKPT_INTERVAL_EXPIRY (R237): JNL_CKPT_CFG.INTERVAL_MS expires and the device writes an exception checkpoint and then a
journal checkpoint. -/
def execCkptIntervalExpiry (s : State) : Host.Outcome State Fault Refusal :=
  lift s fun d => d.ckptIntervalExpiry

/-- CKPT_METADATA_TRIGGER (R237): Unretired metadata records exceed 1/16 of the header slots, which triggers the checkpoints.
-/
def execCkptMetadataTrigger (s : State) : Host.Outcome State Fault Refusal :=
  lift s fun d => d.ckptMetadataTrigger

/-- CKPT_NOW (R237): A write of JNL_CTRL.CKPT_NOW starts an exception checkpoint and a journal checkpoint. -/
def execCkptNow (req : Requester) (s : State) : Host.Outcome State Fault Refusal :=
  lift s fun d => d.ckptNow req

/-- EXC_CHECKPOINT_DURABLE (R150): Plinth copies acknowledge the exception checkpoint area and directory, and exception
records up to the covered sequence retire, or CKPT_FAIL is set. -/
def execExcCheckpointDurable (acks : Nat) (s : State) : Host.Outcome State Fault Refusal :=
  lift s fun d => d.excCheckpointDurable acks

/-- JOURNAL_CHECKPOINT_DURABLE (R238): Plinth copies acknowledge the journal checkpoint, and MEMBER_STATE and LOST records up
to C retire, or CKPT_FAIL is set. -/
def execJournalCheckpointDurable (acks : Nat) (s : State) : Host.Outcome State Fault Refusal :=
  lift s fun d => d.journalCheckpointDurable acks

end Sys2Proof.Machine
end

