-- ==== Sys2Proof/Machine/BufferRows.lean ====
section
/-!
DEFINITION. Meanings of the buffer-memory rows (chapter 4): each row applies its operation to the device.
-/
namespace Sys2Proof.Machine

/-- BUF_INIT_DONE (R174): HBM zeroing and protected-area restore have both ended, and INIT_DONE is set. -/
def execBufInitDone (s : State) : Host.Outcome State Fault Refusal :=
  lift s fun d => d.bufInitDone

/-- BUF_UNCORRECTABLE_LINE (R166 to R173): An HBM read finds errors in a line. The outer decoder corrects it, or the line is uncorrectable, is
classed by area and takes the consequence of Table 4-4. -/
def execBufUncorrectableLine (addr : Nat) (source : Nat) (inner : Bool) (err : List Byte) (use : LineUse) (how : LineRebuild) (s : State) :
    Host.Outcome State Fault Refusal :=
  lift s fun d => d.bufUncorrectableLine addr source inner (s.mem.line72 (addr / 64)) err use how

/-- JOURNAL_LINE_REPAIR (R171): The record lines read back from the partner's mirror area arrive and are rewritten locally.
-/
def execJournalLineRepair (seq : Nat) (ok : Bool) (s : State) : Host.Outcome State Fault Refusal :=
  lift s fun d => d.journalLineRepair seq ok

/-- PATROL_SCRUB (R180): The patrol scrub reads the next HBM line, writes a corrected line back, and records an uncorrectable
one. -/
def execPatrolScrub (inner : Bool) (err : List Byte) (use : LineUse) (how : LineRebuild) (s : State) : Host.Outcome State Fault Refusal :=
  lift s fun d => d.patrolScrub inner (s.mem.line72 d.scrubLine) err use how

/-- BUF_CLR_COUNTS (R183): A write of BUF_CTRL.CLR_COUNTS clears the corrected and uncorrectable line counters. -/
def execBufClrCounts (req : Requester) (s : State) : Host.Outcome State Fault Refusal :=
  lift s fun d => d.bufClrCounts req

end Sys2Proof.Machine
end

