-- ==== Sys2Proof/Machine/ChannelRows.lean ====
section
/-!
DEFINITION. Meanings of channel programs (chapter 9): each row applies its operation to the device.
-/
namespace Sys2Proof.Machine

/-- MOVE (R398): The MOVE instruction copies L bytes between address spaces, applying swap and PI, in transfer units. -/
def execMove (ch : Nat) (w : BitVec 256) (s : State) : Host.Outcome State Fault Refusal :=
  lift s fun d => d.chMove (Memory.read s.mem) ch w

/-- MAC (R406): The MAC instruction fetches its table, loads the rows, and computes n GF output streams from k sources. -/
def execMac (ch : Nat) (w : BitVec 256) (table : List Byte) (s : State) : Host.Outcome State Fault Refusal :=
  lift s fun d => d.chMac (Memory.read s.mem) ch w table

/-- LOOP_BEGIN (R413): LOOP BEGIN activates a loop level, or skips its body when count is 0. -/
def execLoopBegin (ch : Nat) (w : BitVec 256) (s : State) : Host.Outcome State Fault Refusal :=
  lift s fun d => d.chLoopBegin (Memory.read s.mem) ch w

/-- LOOP_NEXT (R413): LOOP NEXT increments INDEX and branches back or deactivates the level. -/
def execLoopNext (ch : Nat) (w : BitVec 256) (s : State) : Host.Outcome State Fault Refusal :=
  lift s fun d => d.chLoopNext (Memory.read s.mem) ch w

/-- WAIT_SEM (R417): WAIT on a semaphore completes once the semaphore holds the value, and subtracts it. -/
def execWaitSem (ch : Nat) (w : BitVec 256) (s : State) : Host.Outcome State Fault Refusal :=
  lift s fun d => d.chWaitSem (Memory.read s.mem) ch w

/-- WAIT_LEVEL (R417): WAIT on a level counter completes once the counter holds the value, and subtracts it. -/
def execWaitLevel (ch : Nat) (w : BitVec 256) (s : State) : Host.Outcome State Fault Refusal :=
  lift s fun d => d.chWaitLevel (Memory.read s.mem) ch w

/-- WAIT_TIMER (R417): WAIT TIMER starts a wait of the given number of microseconds. -/
def execWaitTimer (ch : Nat) (w : BitVec 256) (s : State) : Host.Outcome State Fault Refusal :=
  lift s fun d => d.chWaitTimer (Memory.read s.mem) ch w

/-- WAIT_EVENT (R417): WAIT EVENT waits for the named completion queue to post its next entry. -/
def execWaitEvent (ch : Nat) (w : BitVec 256) (s : State) : Host.Outcome State Fault Refusal :=
  lift s fun d => d.chWaitEvent (Memory.read s.mem) ch w

/-- WAIT_TIMER_EXPIRY (R417): The time of a WAIT TIMER has passed, and the WAIT completes. -/
def execWaitTimerExpiry (ch : Nat) (s : State) : Host.Outcome State Fault Refusal :=
  lift s fun d => d.waitTimerExpiry ch

/-- WAIT_TIMEOUT (R417): A WAIT's timeout expires first, and the program ends with WAIT_TIMEOUT. -/
def execWaitTimeout (ch : Nat) (s : State) : Host.Outcome State Fault Refusal :=
  lift s fun d => d.waitTimeout ch

/-- SIGNAL_SEM (R415): SIGNAL SEM adds the value to a semaphore, and waiters on it are tested again. -/
def execSignalSem (ch : Nat) (w : BitVec 256) (s : State) : Host.Outcome State Fault Refusal :=
  lift s fun d => d.chSignalSem (Memory.read s.mem) ch w

/-- SIGNAL_IRQ (R418): SIGNAL IRQ raises the USER event. -/
def execSignalIrq (ch : Nat) (w : BitVec 256) (s : State) : Host.Outcome State Fault Refusal :=
  lift s fun d => d.chSignalIrq (Memory.read s.mem) ch w

/-- SIGNAL_COMPLETE (R418): SIGNAL COMPLETE posts the program's one completion at once with OK, and the program continues. -/
def execSignalComplete (ch : Nat) (w : BitVec 256) (s : State) : Host.Outcome State Fault Refusal :=
  lift s fun d => d.chSignalComplete (Memory.read s.mem) ch w

/-- NOP (R420): The NOP instruction does nothing. -/
def execNop (ch : Nat) (w : BitVec 256) (s : State) : Host.Outcome State Fault Refusal :=
  lift s fun d => d.chNop (Memory.read s.mem) ch w

/-- END (R420): The END instruction ends the program with status OK and its user value. -/
def execEnd (ch : Nat) (w : BitVec 256) (s : State) : Host.Outcome State Fault Refusal :=
  lift s fun d => d.chEnd (Memory.read s.mem) ch w

/-- TRANSFER_UNIT_DONE (R380): A transfer unit's writes become visible, and the channel advances its instruction, level
counter and watchdog. -/
def execTransferUnitDone (ch : Nat) (s : State) : Host.Outcome State Fault Refusal :=
  lift s fun d => d.transferUnitDone (Memory.read s.mem) ch

/-- CHANNEL_WATCHDOG (R422): CHN_WDOG.MS passes without a restart, and the program ends with WATCHDOG as an abort. -/
def execChannelWatchdog (ch : Nat) (s : State) : Host.Outcome State Fault Refusal :=
  lift s fun d => d.channelWatchdog ch

/-- CHN_ABORT (R423): CHN_CTRL.ABORT stops new transfer units, discards stalled ones and ends the program with ABORTED. -/
def execChnAbort (req : Requester) (ch : Nat) (s : State) : Host.Outcome State Fault Refusal :=
  lift s fun d => d.chnAbort req ch

/-- CHN_START (R430): CHN_CTRL.START starts a direct program on an idle host channel with DIRECT set, or sets START_REFUSED.
-/
def execChnStart (req : Requester) (ch : Nat) (s : State) : Host.Outcome State Fault Refusal :=
  lift s fun d => d.chnStart req ch

/-- CHN_CLR_LEVEL (R410): CHN_CTRL.CLR_LEVEL clears the channel's level counter. -/
def execChnClrLevel (req : Requester) (ch : Nat) (s : State) : Host.Outcome State Fault Refusal :=
  lift s fun d => d.chnClrLevel req ch

/-- CHN_SEM_WRITE (R417): A write to CHN_SEMn sets the semaphore, and any WAIT on it is tested again. -/
def execChnSemWrite (req : Requester) (ch : Nat) (sem : Nat) (value : Word) (s : State) : Host.Outcome State Fault Refusal :=
  lift s fun d => d.chnSemWrite req ch sem value.toNat

end Sys2Proof.Machine
end

