-- ==== Sys2Proof/Machine/FabricRows.lean ====
section
/-!
DEFINITION. Meanings of the codec fabric (chapter 8): each row applies its operation to the device.
-/
namespace Sys2Proof.Machine

/-- ITEM_DISPATCH (R339): A codec item starts on a free channel of the cluster that the binding, watch or route rules choose, and looks up
its resolved row; the data parity of the entries `errs` fails (R366). -/
def execItemDispatch (op : Nat) (errs : List RowKey) (s : State) : Host.Outcome State Fault Refusal :=
  lift s fun d => (d.itemDispatch op errs).vcdRaise.settleAll

/-- UNIT_FAULT (R346): A unit fault retires the unit, and its line offset is redone on the next unit in service. -/
def execUnitFault (unit : Nat) (mismatch : Bool) (s : State) : Host.Outcome State Fault Refusal :=
  lift s fun d => ((d.unitFault unit mismatch).noUnitCheck).settleAll

/-- UNIT_RETIRE (R349): The FAB_UNIT_CMD RETIRE command retires the named unit as if it had faulted. -/
def execUnitRetire (req : Requester) (unit : Nat) (s : State) : Host.Outcome State Fault Refusal :=
  lift s fun d => (d.unitRetire req unit).noUnitCheck.settleAll

/-- UCIE_DELIVERY_FAILURE (R337): A flit that retry cannot deliver, or a module that cannot stay at full width, raises the
die fabric reset source. -/
def execUcieDeliveryFailure (die : Nat) (s : State) : Host.Outcome State Fault Refusal :=
  lift s fun d => d.ucieFailure die

/-- ELB_FILL_DATA (R362): The data of an ELB fill arrives and is installed, or discarded and refetched if the fill was
poisoned; a record that is not valid is an uncorrectable PLACEMENT line (R355). -/
def execElbFillData (region : Nat) (key : RowKey) (good : Bool) (how : LineRebuild) (s : State) : Host.Outcome State Fault Refusal :=
  lift s fun d => ((d.elbFillData region key good how).rowsSettled d).settleAll

/-- SNOOP (R360): A region receives a snoop of a resolved-row line, invalidates the matching entries, poisons pending fills,
and then acknowledges. -/
def execSnoop (region : Nat) (key : RowKey) (s : State) : Host.Outcome State Fault Refusal :=
  lift s fun d => ((d.snoop region key).rowsSettled d).settleAll

/-- ELB_TAG_PARITY_ERROR (R366): An ELB tag parity error raises the ELB tags reset source of the region. -/
def execElbTagParityError (region : Nat) (s : State) : Host.Outcome State Fault Refusal :=
  lift s fun d => d.elbTagParity region

/-- CLUSTER_HOLD_EXPIRY (R368): A cluster has been idle for CLUSTER_HOLD_US and is clock-gated. -/
def execClusterHoldExpiry (cluster : Nat) (s : State) : Host.Outcome State Fault Refusal :=
  lift s fun d => d.clusterHoldExpiry cluster

/-- REGION_HOLD_EXPIRY (R369): A region has been quiescent for REGION_HOLD_US, so it copies its shadow, invalidates its ELB
and powers off. -/
def execRegionHoldExpiry (region : Nat) (s : State) : Host.Outcome State Fault Refusal :=
  lift s fun d => ((d.regionHoldExpiry region).rowsSettled d).settleAll

/-- REGION_POWER_UP_DONE (R371): A region completes power-up with its shadow restored and its ELB empty. -/
def execRegionPowerUpDone (region : Nat) (s : State) : Host.Outcome State Fault Refusal :=
  lift s fun d => ((d.regionPowerUpDone region).rowsSettled d).settleAll

/-- DIE_PLL_LOCK (R372): A stopped die PLL relocks and its UCIe link returns to active before region power-up. -/
def execDiePllLock (die : Nat) (s : State) : Host.Outcome State Fault Refusal :=
  lift s fun d => d.diePllLock die

/-- FAB_WATCH_WRITE (R376): A write to FAB_WATCH powers up added regions at once and makes removed ones eligible for
power-off. -/
def execFabWatchWrite (req : Requester) (mask : Nat) (s : State) : Host.Outcome State Fault Refusal :=
  lift s fun d => d.fabWatchWrite req mask

/-- NO_SLEEP_WRITE (R373): Writing FAB_SLEEP.NO_SLEEP to 1 powers up and holds every cluster, region and PLL awake. -/
def execNoSleepWrite (req : Requester) (s : State) : Host.Outcome State Fault Refusal :=
  lift s fun d => d.noSleepWrite req

/-- FAB_CLR_COUNTS (R378): A write of FAB_CTRL.CLR_COUNTS clears the region and ELB statistics of every region. -/
def execFabClrCounts (req : Requester) (s : State) : Host.Outcome State Fault Refusal :=
  lift s fun d => d.fabClrCounts req

end Sys2Proof.Machine
end

