-- ==== Sys2Proof/Machine/IntegrityRows.lean ====
section
/-!
DEFINITION. Meanings of integrity and keys (chapter 7): each row applies its operation to the device.
-/
namespace Sys2Proof.Machine

/-- ITG_CLR_COUNTS (R335): A write of ITG_CTRL.CLR_COUNTS clears the tag, PI and scrub finding counters. -/
def execItgClrCounts (req : Requester) (s : State) : Host.Outcome State Fault Refusal :=
  lift s fun d => d.itgClrCounts req

/-- KEY_GENERATION (R329): A key is generated, wrapped and made durable once an EMPTY slot is available, and the slot becomes
READY. -/
def execKeyGeneration (s : State) : Host.Outcome State Fault Refusal :=
  lift s fun d => d.keyGeneration

/-- KEY_SWITCH (R330): A namespace's key switches once none of its commands is between fetch and completion. -/
def execKeySwitch (nsid : Nat) (s : State) : Host.Outcome State Fault Refusal :=
  lift s fun d => d.keySwitch nsid

/-- KEY_SLOT_ERASED (R331): The vault blocks of a DESTROYING slot are erased, and the slot becomes EMPTY once its partner
copy has been reported. -/
def execKeySlotErased (slot : Nat) (s : State) : Host.Outcome State Fault Refusal :=
  lift s fun d => d.keySlotErased slot

end Sys2Proof.Machine
end

