-- ==== Sys2Proof/Machine/JournalRows.lean ====
section
/-!
DEFINITION. Meanings of the write path, drydown, reads and member I/O (chapters 5 and 6): each row applies its operation to
the device.
-/
namespace Sys2Proof.Machine

/-- WRITE (R192): A host Write is split into atomic groups of records at stripe boundaries and offered for admission. -/
def execWrite (h : HostIo) (data : List Block) (md : List (List Byte)) (s : State) : Host.Outcome State Fault Refusal :=
  lift s fun d => (d.write h data md).settleAll

/-- GROUP_ADMIT (R196): A waiting group is admitted once header slots and payload blocks are free for all its records. -/
def execGroupAdmit (s : State) : Host.Outcome State Fault Refusal :=
  lift s fun d => d.groupAdmit.settleAll

/-- LOCAL_COPY_IN_PLACE (R198): The HBM controllers accept every line of a group's records, and the group is published and,
if permitted, completed. -/
def execLocalCopyInPlace (first : Nat) (s : State) : Host.Outcome State Fault Refusal :=
  lift s fun d => (d.localCopyInPlace first).settleAll

/-- MIRROR_ACK (R201): The partner's ACK covers a group's last sequence, so the group's completion is posted. -/
def execMirrorAck (seq : Nat) (s : State) : Host.Outcome State Fault Refusal :=
  lift s fun d => (d.mirrorAck seq).settleAll

/-- DRYDOWN_IDLE_EXPIRY (R212): No group has been admitted for JNL_DRY_CFG.IDLE_US, so drydown runs. -/
def execDrydownIdleExpiry (s : State) : Host.Outcome State Fault Refusal :=
  lift s fun d => d.drydownIdleExpiry

/-- DESTAGE_SETTLE_EXPIRY (R214): The newest record of a partial stripe becomes older than SETTLE_US, which makes the stripe
eligible. -/
def execDestageSettleExpiry (pool : Nat) (stripe : Nat) (s : State) : Host.Outcome State Fault Refusal :=
  lift s fun d => d.destageSettleExpiry pool stripe

/-- DESTAGE_START (R214): Drydown chooses the next eligible stripe within MAX_INFLIGHT and requests EXCLUSIVE on it. -/
def execDestageStart (s : State) : Host.Outcome State Fault Refusal :=
  lift s fun d => d.destageStart.settleAll

/-- STRIPE_LOCK_GRANT (R208): A waiting stripe lock request is granted in arrival order, and its operation starts with the
active epoch. -/
def execStripeLockGrant (pool : Nat) (stripe : Nat) (s : State) : Host.Outcome State Fault Refusal :=
  lift s fun d => (d.stripeLockGrant pool stripe).settleAll

/-- MEMBER_READ_COMPLETION (R293): A member read completes, and its blocks are tag-checked and passed on to the waiting
operation. -/
def execMemberReadCompletion (id : Nat) (ok : Bool) (blocks : List Block) (tags : List (BitVec 128)) (tagBlocks : List (Nat × Block)) (s : State) :
    Host.Outcome State Fault Refusal :=
  lift s fun d => (d.memberReadCompletion id ok blocks tags tagBlocks).settleAll

/-- MEMBER_WRITE_COMPLETION (R222): A member write is acknowledged or fails, and the operation that issued it continues,
retries or finishes. -/
def execMemberWriteCompletion (id : Nat) (ok : Bool) (tagBlocks : List (Nat × Block)) (s : State) :
    Host.Outcome State Fault Refusal :=
  lift s fun d => (d.memberWriteCompletion id ok tagBlocks).settleAll

/-- JNL_BARRIER (R223): A write of JNL_CTRL.BARRIER sets JNL_BARRIER_SEQ to the current head. -/
def execJnlBarrier (req : Requester) (s : State) : Host.Outcome State Fault Refusal :=
  lift s fun d => d.jnlBarrier req

/-- REPLAY (R240): Replay rebuilds the journal from the protected area and the plinth checkpoints, then sets the journal
state to RUN. -/
def execReplay (copies : List PlinthRead) (bad : List Nat) (s : State) : Host.Outcome State Fault Refusal :=
  lift s fun d => (d.replayRow copies bad).settleAll

/-- READ (R254): A host Read is served from the journal index or from resolved data fragments on the members. -/
def execRead (h : HostIo) (s : State) : Host.Outcome State Fault Refusal :=
  lift s fun d => (d.read h).settleAll

/-- SUSPECT_READ_SLOW (R256): A read to a SUSPECT member passes its slow threshold, which starts a parallel degraded read. -/
def execSuspectReadSlow (id : Nat) (s : State) : Host.Outcome State Fault Refusal :=
  lift s fun d => (d.suspectReadSlow id).settleAll

/-- DECODE_STAGING_GRANT (R259): Staging space becomes free for a waiting decode's transfer unit, and the decode proceeds. -/
def execDecodeStagingGrant (op : Nat) (s : State) : Host.Outcome State Fault Refusal :=
  lift s fun d => (d.decodeStagingGrant op).settleAll

end Sys2Proof.Machine
end

