-- ==== Sys2Proof/Machine/MemberPortRows.lean ====
section
/-!
DEFINITION. Meanings of the member ports (chapter 13): each row applies its operation to the device.
-/
namespace Sys2Proof.Machine

/-- MEMBER_COMMAND_TIMEOUT (R590): A member command's timeout expires, which counts a TMO, fails the command internally and
sends an Abort. -/
def execMemberCommandTimeout (id : Nat) (s : State) : Host.Outcome State Fault Refusal :=
  lift s fun d => (d.memberCommandTimeout id).settleAll

/-- MEMBER_ABORT_TIMEOUT (R590): Nothing has arrived by 2T, so the member controller is reset. -/
def execMemberAbortTimeout (id : Nat) (s : State) : Host.Outcome State Fault Refusal :=
  lift s fun d => (d.memberAbortTimeout id).settleAll

/-- MEMBER_CTRL_RESET_DONE (R590): A member controller reset completes, its queues are recreated and held identifiers are
released. -/
def execMemberCtrlResetDone (m : Nat) (s : State) : Host.Outcome State Fault Refusal :=
  lift s fun d => (d.memberCtrlResetDone m).settleAll

/-- MEMBER_CTRL_RESET_TIMEOUT (R590): The controller reset has not completed within max(T, CAP.TO), so the member's link is
reset. -/
def execMemberCtrlResetTimeout (m : Nat) (s : State) : Host.Outcome State Fault Refusal :=
  lift s fun d => (d.memberCtrlResetTimeout m).settleAll

/-- MEMBER_LINK_TIMEOUT (R590): The member's link is not back up within T after the link reset, so the member takes GONE. -/
def execMemberLinkTimeout (m : Nat) (s : State) : Host.Outcome State Fault Refusal :=
  lift s fun d => (d.memberLinkTimeout m).settleAll

/-- MEMBER_SURPRISE_REMOVAL (R593): A loss of presence makes each member below the slot or link take GONE at once. -/
def execMemberSurpriseRemoval (link : Nat) (ports : List Nat) (s : State) : Host.Outcome State Fault Refusal :=
  lift s fun d => (d.memberSurpriseRemoval link ports).settleAll

/-- MEMBER_LINK_DOWN (R594): A member link goes down with presence kept, and the device waits for it within the member
timeout. -/
def execMemberLinkDown (link : Nat) (ports : List Nat) (s : State) : Host.Outcome State Fault Refusal :=
  lift s fun d => (d.memberLinkDown link ports).settleAll

/-- MEMBER_HOTPLUG_ARRIVAL (R595): A presence gain or link up starts enumeration of the subtree, powering the slot first when
AUTO is set. -/
def execMemberHotplugArrival (link : Nat) (ports : List Nat) (up : Option (Nat × Nat × Bool)) (s : State) :
    Host.Outcome State Fault Refusal :=
  lift s fun d => (d.memberHotplugArrival link ports up).settleAll

/-- MEMBER_AER_ERROR (R596): A member or switch reports an uncorrectable AER error, which is logged and may reset the link or
count an ERR. -/
def execMemberAerError (link : Nat) (ports : List Nat) (bus : Nat) (devfn : Nat) (fatal : Bool) (m : Option Nat) (s : State) :
    Host.Outcome State Fault Refusal :=
  lift s fun d => d.memberAerError link ports bus devfn fatal m

/-- MEMBER_ASYNC_EVENT (R588): A member's asynchronous event or critical warning is mapped to RPT, GONE or a log record. -/
def execMemberAsyncEvent (m : Nat) (kind : AsyncKind) (s : State) : Host.Outcome State Fault Refusal :=
  lift s fun d => (d.memberAsyncEvent m kind).settleAll

/-- MEMBER_STRAY_REQUEST (R576): A member's memory request outside the device's own pointers receives Unsupported Request and
is counted. -/
def execMemberStrayRequest (s : State) : Host.Outcome State Fault Refusal :=
  lift s fun d => d.memberStrayRequest

/-- MBR_RESCAN (R578): MBR_CTRL.RESCAN enumerates every member link again. -/
def execMbrRescan (req : Requester) (s : State) : Host.Outcome State Fault Refusal :=
  lift s fun d => d.mbrRescan req

/-- MBR_DISC_DUMP (R579): MBR_CTRL.DISC_DUMP writes the discovery list to the target address. -/
def execMbrDiscDump (req : Requester) (internal : Bool) (ok : Bool) (s : State) : Host.Outcome State Fault Refusal :=
  lift s fun d => d.mbrDiscDump req internal ok

/-- MBR_CLR_COUNTS (R602): MBR_CTRL.CLR_COUNTS clears MBR_ERRORS. -/
def execMbrClrCounts (req : Requester) (s : State) : Host.Outcome State Fault Refusal :=
  lift s fun d => d.mbrClrCounts req

/-- MBR_FORMAT (R580): A write of MBR_FMT_CMD formats a discovered namespace to 4,096 data bytes, or is refused. -/
def execMbrFormat (req : Requester) (ordinal : Nat) (meta16 : Bool) (s : State) : Host.Outcome State Fault Refusal :=
  lift s fun d => d.mbrFormat req ordinal meta16

/-- SLOT_POWER_ON (R598): MBR_SLOT_CMD power-on switches on the named slot. -/
def execSlotPowerOn (req : Requester) (member : Bool) (target : Nat) (s : State) : Host.Outcome State Fault Refusal :=
  lift s fun d => d.slotPowerOn req member target

/-- SLOT_POWER_OFF (R598): MBR_SLOT_CMD power-off switches off the named slot unless an active member is in it. -/
def execSlotPowerOff (req : Requester) (member : Bool) (target : Nat) (s : State) : Host.Outcome State Fault Refusal :=
  lift s fun d => d.slotPowerOff req member target

/-- SLOT_POWER_BATCH (R597): INTERVAL_MS after the previous batch, the next batch of slots is powered on. -/
def execSlotPowerBatch (s : State) : Host.Outcome State Fault Refusal :=
  lift s fun d => d.slotPowerBatch

/-- MPERST_RELEASE (R600): 100 ms after slot power is stable, MPERST_N is released. -/
def execMperstRelease (s : State) : Host.Outcome State Fault Refusal :=
  lift s fun d => d.mperstRelease

/-- MEMBER_ADMIN_COMPLETION (R577): A member admin command (Identify, Get Log Page, Abort or Format NVM) completes, and
enumeration, identification, identifier release or the format outcome moves on. -/
def execMemberAdminCompletion (res : AdminResult) (s : State) : Host.Outcome State Fault Refusal :=
  lift s fun d => d.memberAdminCompletion res

end Sys2Proof.Machine
end

