-- ==== Sys2Proof/Machine/MemberRows.lean ====
section
/-!
DEFINITION. Meanings of member states and sillage (chapter 6): each row applies its operation to the device.
-/
namespace Sys2Proof.Machine

/-- MEMBER_FAIL (R252): The SIL_MBR_CMD FAIL command makes the member FAILED with cause HOST. -/
def execMemberFail (req : Requester) (m : Nat) (s : State) : Host.Outcome State Fault Refusal :=
  lift s fun d => (d.memberFail req m).settleAll

/-- MEMBER_READMIT (R252): The SIL_MBR_CMD READMIT command makes a FAILED member REBUILDING or ABSENT. -/
def execMemberReadmit (req : Requester) (m : Nat) (s : State) : Host.Outcome State Fault Refusal :=
  lift s fun d => (d.memberReadmit req m).settleAll

/-- MEMBER_RETIRE (R252): The SIL_MBR_CMD RETIRE command makes an ABSENT or FAILED member RETIRED. -/
def execMemberRetire (req : Requester) (m : Nat) (s : State) : Host.Outcome State Fault Refusal :=
  lift s fun d => (d.memberRetire req m).settleAll

/-- MEMBER_CLEAR (R252): The SIL_MBR_CMD CLEAR command clears the member's window counters, and moves a SUSPECT member to
ONLINE. -/
def execMemberClear (req : Requester) (m : Nat) (s : State) : Host.Outcome State Fault Refusal :=
  lift s fun d => (d.memberClear req m).settleAll

/-- MEMBER_QUIET (R247): A SUSPECT member has had no TMO, ERR or SLOW for HOLD_S, and it returns to ONLINE. -/
def execMemberQuiet (m : Nat) (s : State) : Host.Outcome State Fault Refusal :=
  lift s fun d => d.memberQuiet m

/-- MEMBER_ABSENT_TIMEOUT (R247): A member has been ABSENT for ABSENT_FAIL_S and becomes FAILED with cause ABSENT_TIMEOUT. -/
def execMemberAbsentTimeout (m : Nat) (s : State) : Host.Outcome State Fault Refusal :=
  lift s fun d => (d.memberAbsentTimeout m).settleAll

/-- DISCOVER_TIMEOUT (R253): A restored member not identified within DISCOVER_S after replay takes GONE. -/
def execDiscoverTimeout (m : Nat) (s : State) : Host.Outcome State Fault Refusal :=
  lift s fun d => (d.discoverTimeout m).settleAll

/-- SILLAGE_INTERVAL (R263): A 100 ms interval ends, and each member's sillage use is measured against its allowance. -/
def execSillageInterval (s : State) : Host.Outcome State Fault Refusal :=
  lift s fun d => d.sillageInterval

/-- SILLAGE_START (R265): Sillage starts its next unit of work in class order when every member it touches is within its
allowance. -/
def execSillageStart (s : State) : Host.Outcome State Fault Refusal :=
  lift s fun d => d.sillageStart.settleAll

/-- EXC_BATCH_EXPIRY (R267): The 50 µs gathering of EXC_INSERT entries ends, and the record holding them is admitted. -/
def execExcBatchExpiry (s : State) : Host.Outcome State Fault Refusal :=
  lift s fun d => d.excBatchExpiry.settleAll

/-- SCRUB_PERIOD_EXPIRY (R271): PERIOD_DAYS have passed since the previous scrub pass began, so a new pass begins. -/
def execScrubPeriodExpiry (s : State) : Host.Outcome State Fault Refusal :=
  lift s fun d => d.scrubPeriodExpiry

/-- SCRUB_NOW (R271): A write of SIL_CTRL.SCRUB_NOW starts a scrub pass when none is running. -/
def execScrubNow (req : Requester) (s : State) : Host.Outcome State Fault Refusal :=
  lift s fun d => d.scrubNow req

end Sys2Proof.Machine
end

