-- ==== Sys2Proof/Machine/MgmtRows.lean ====
section
/-!
DEFINITION. Meanings of the management core and its bus (chapter 18): each row applies its operation to the device.
-/
namespace Sys2Proof.Machine

/-- MBX_NOP (R758): The mailbox NOP command completes. -/
def execMbxNop (s : State) : Host.Outcome State Fault Refusal :=
  lift s fun d => d.mbxNop

/-- MBX_GET_INFO (R758): The mailbox GET_INFO command returns firmware slot and revision information. -/
def execMbxGetInfo (s : State) : Host.Outcome State Fault Refusal :=
  lift s fun d => d.mbxGetInfo

/-- MBX_OPT_READ (R758): The mailbox OPT_READ command returns the loaded option block or a vault copy. -/
def execMbxOptRead (s : State) : Host.Outcome State Fault Refusal :=
  lift s fun d => d.mbxOptRead

/-- MBX_OPT_WRITE (R759): The mailbox OPT_WRITE command checks an option block and writes it to the spare copy. -/
def execMbxOptWrite (vaultOk : Bool) (s : State) : Host.Outcome State Fault Refusal :=
  lift s fun d => d.mbxOptWrite vaultOk

/-- MBX_LOG_READ (R758): The mailbox LOG_READ command returns up to 64 event records. -/
def execMbxLogRead (s : State) : Host.Outcome State Fault Refusal :=
  lift s fun d => d.mbxLogRead

/-- MBX_FW_SELECT (R758): The mailbox FW_SELECT command sets the boot slot to an admissible slot. -/
def execMbxFwSelect (s : State) : Host.Outcome State Fault Refusal :=
  lift s fun d => d.mbxFwSelect

/-- PLDM_REQUEST_UPDATE (R746): A PLDM RequestUpdate starts an out-of-band firmware update, or is refused during an NVMe
activation. -/
def execPldmRequestUpdate (size : Nat) (s : State) : Host.Outcome State Fault Refusal :=
  lift s fun d => d.pldmRequestUpdate size

/-- PLDM_FIRMWARE_DATA (R745): A RequestFirmwareData response delivers image data to the target slot. -/
def execPldmFirmwareData (bytes : List Byte) (s : State) : Host.Outcome State Fault Refusal :=
  lift s fun d => d.pldmFirmwareData bytes

/-- PLDM_ACTIVATE_FIRMWARE (R745): ActivateFirmware sets the boot slot and activates the image at once when self-contained
activation is requested. -/
def execPldmActivateFirmware (selfContained : Bool) (s : State) : Host.Outcome State Fault Refusal :=
  lift s fun d => d.pldmActivateFirmware selfContained

/-- PLDM_BASE_DISCOVERY (R748): A PLDM type 0 base discovery request is answered. -/
def execPldmBaseDiscovery (cmd : Nat) (arg : Nat) (s : State) : Host.Outcome State Fault Refusal :=
  lift s fun d => d.pldmBaseDiscovery cmd arg

/-- SET_ENDPOINT_ID (R748): MCTP Set Endpoint ID assigns the device's endpoint ID. -/
def execSetEndpointId (eid : Nat) (s : State) : Host.Outcome State Fault Refusal :=
  lift s fun d => d.setEndpointId eid

/-- GET_ENDPOINT_ID (R748): MCTP Get Endpoint ID returns the endpoint ID. -/
def execGetEndpointId (s : State) : Host.Outcome State Fault Refusal :=
  lift s fun d => d.getEndpointId

/-- GET_MCTP_VERSION_SUPPORT (R748): MCTP Get MCTP Version Support returns the supported versions. -/
def execGetMctpVersionSupport (typ : Nat) (s : State) : Host.Outcome State Fault Refusal :=
  lift s fun d => d.getMctpVersionSupport typ

/-- GET_MESSAGE_TYPE_SUPPORT (R748): MCTP Get Message Type Support returns the served message types. -/
def execGetMessageTypeSupport (s : State) : Host.Outcome State Fault Refusal :=
  lift s fun d => d.getMessageTypeSupport

/-- GET_ENDPOINT_UUID (R748): MCTP Get Endpoint UUID returns the endpoint UUID. -/
def execGetEndpointUuid (s : State) : Host.Outcome State Fault Refusal :=
  lift s fun d => d.getEndpointUuid

/-- READ_NVME_MI_DATA_STRUCTURE (R749): The NVMe-MI Read NVMe-MI Data Structure command returns the requested structure. -/
def execReadNvmeMiDataStructure (typ : Nat) (cntid : Nat) (s : State) : Host.Outcome State Fault Refusal :=
  lift s fun d => d.readMiDataStructure typ cntid

/-- SUBSYSTEM_HEALTH_STATUS_POLL (R749): The NVMe-MI NVM Subsystem Health Status Poll returns subsystem health. -/
def execSubsystemHealthStatusPoll (clear : Bool) (s : State) : Host.Outcome State Fault Refusal :=
  lift s fun d => d.subsystemHealthPoll clear

/-- CONTROLLER_HEALTH_STATUS_POLL (R749): The NVMe-MI Controller Health Status Poll returns controller health. -/
def execControllerHealthStatusPoll (first : Nat) (s : State) : Host.Outcome State Fault Refusal :=
  lift s fun d => d.controllerHealthPoll first

/-- CONFIGURATION_SET (R749): The NVMe-MI Configuration Set command sets a management configuration. -/
def execConfigurationSet (id : Nat) (value : Nat) (s : State) : Host.Outcome State Fault Refusal :=
  lift s fun d => d.configurationSet id value

/-- CONFIGURATION_GET (R749): The NVMe-MI Configuration Get command returns a management configuration. -/
def execConfigurationGet (id : Nat) (s : State) : Host.Outcome State Fault Refusal :=
  lift s fun d => d.configurationGet id

/-- VPD_READ (R749): The NVMe-MI VPD Read command returns the read-only VPD record. -/
def execVpdRead (off : Nat) (len : Nat) (s : State) : Host.Outcome State Fault Refusal :=
  lift s fun d => d.vpdRead off len

/-- VPD_WRITE (R749): The NVMe-MI VPD Write command completes with Invalid Parameter. -/
def execVpdWrite (s : State) : Host.Outcome State Fault Refusal :=
  lift s fun d => d.vpdWrite

/-- MI_RESET (R749): The NVMe-MI Reset command resets the management endpoint only. -/
def execMiReset (s : State) : Host.Outcome State Fault Refusal :=
  lift s fun d => d.miReset

/-- MI_TUNNELLED_ADMIN (R749): A tunnelled admin command runs as on PF0 of the primary port, or completes with Invalid
Command Opcode. -/
def execMiTunnelledAdmin (tag : Nat) (cmd : TunnelCmd) (s : State) : Host.Outcome State Fault Refusal :=
  lift s fun d => d.miTunnelledAdmin tag cmd

/-- I3C_MODE_ENTRY (R747): ENTDAA or SETDASA after COLD exit puts the management bus into I3C mode. -/
def execI3cModeEntry (s : State) : Host.Outcome State Fault Refusal :=
  lift s fun d => d.i3cModeEntry

/-- LOG_FLUSH (R753): LOG_CTRL.FLUSH writes the event log tail to the vault. -/
def execLogFlush (req : Requester) (s : State) : Host.Outcome State Fault Refusal :=
  lift s fun d => d.logFlush req

/-- LOG_PAGE_TIMEOUT (R753): 1 s after its first record arrived, a partly filled event log page is written to the vault. -/
def execLogPageTimeout (s : State) : Host.Outcome State Fault Refusal :=
  lift s fun d => d.logPageTimeout

end Sys2Proof.Machine
end

