-- ==== Sys2Proof/Machine/NvmeRows.lean ====
section
/-!
DEFINITION. Meanings of the host NVMe interface (chapter 11): each row applies its operation to the device.
-/
namespace Sys2Proof.Machine

/-- CREATE_IO_SQ (R486): The admin command Create I/O SQ creates an I/O submission queue. -/
def execCreateIoSq (portB : Bool) (cid : Nat) (qid : Nat) (size : Nat) (cqid : Nat) (prio : Nat) (s : State) :
    Host.Outcome State Fault Refusal :=
  lift s fun d => d.createIoSq portB cid qid size cqid prio

/-- CREATE_IO_CQ (R486): The admin command Create I/O CQ creates an I/O completion queue. -/
def execCreateIoCq (portB : Bool) (cid : Nat) (qid : Nat) (size : Nat) (vec : Nat) (ien : Bool) (s : State) :
    Host.Outcome State Fault Refusal :=
  lift s fun d => d.createIoCq portB cid qid size vec ien

/-- DELETE_IO_SQ (R521): Delete I/O SQ completes admitted writes, aborts caught commands and discards unfetched ones. -/
def execDeleteIoSq (portB : Bool) (cid : Nat) (qid : Nat) (s : State) : Host.Outcome State Fault Refusal :=
  lift s fun d => (d.deleteIoSq portB cid qid).settleAll

/-- DELETE_IO_CQ (R486): The admin command Delete I/O CQ deletes an I/O completion queue. -/
def execDeleteIoCq (portB : Bool) (cid : Nat) (qid : Nat) (s : State) : Host.Outcome State Fault Refusal :=
  lift s fun d => d.deleteIoCq portB cid qid

/-- GET_LOG_PAGE (R529): Get Log Page returns a standard or vendor log page. -/
def execGetLogPage (portB : Bool) (cid : Nat) (lid : Nat) (nsid : Nat) (off : Nat) (len : Nat) (rae : Bool) (s : State) :
    Host.Outcome State Fault Refusal :=
  lift s fun d => d.getLogPage portB cid lid nsid off len rae

/-- IDENTIFY (R500): Identify returns the requested controller or namespace data structure. -/
def execIdentify (portB : Bool) (cid : Nat) (cns : Nat) (nsid : Nat) (cntid : Nat) (s : State) :
    Host.Outcome State Fault Refusal :=
  lift s fun d => d.identifyCmd portB cid cns nsid cntid

/-- ABORT (R504): The NVMe Abort command catches its target before the point of Table 11-5, or leaves it to complete. -/
def execAbort (portB : Bool) (cid : Nat) (sq : Nat) (target : Nat) (s : State) : Host.Outcome State Fault Refusal :=
  lift s fun d => (d.abort portB cid sq target).settleAll

/-- SET_FEATURES (R525): Set Features sets a supported feature, including power state and vendor features. -/
def execSetFeatures (portB : Bool) (cid : Nat) (fid : Nat) (nsid : Nat) (cdw11 : Nat) (save : Bool) (table : List DWord) (s : State) :
    Host.Outcome State Fault Refusal :=
  lift s fun d => (d.setFeatures portB cid fid nsid cdw11 save table).settleAll

/-- GET_FEATURES (R525): Get Features returns the value of a supported feature. -/
def execGetFeatures (portB : Bool) (cid : Nat) (fid : Nat) (nsid : Nat) (cdw11 : Nat) (sel : Nat) (s : State) :
    Host.Outcome State Fault Refusal :=
  lift s fun d => d.getFeatures portB cid fid nsid cdw11 sel

/-- ASYNC_EVENT_REQUEST (R500): An Asynchronous Event Request waits for the next event notice. -/
def execAsyncEventRequest (portB : Bool) (cid : Nat) (s : State) : Host.Outcome State Fault Refusal :=
  lift s fun d => d.asyncEventRequest portB cid

/-- FIRMWARE_IMAGE_DOWNLOAD (R523): Firmware Image Download stores a 4 KiB-aligned piece of an image in the download buffer.
-/
def execFirmwareImageDownload (portB : Bool) (cid : Nat) (off : Nat) (bytes : List Byte) (s : State) :
    Host.Outcome State Fault Refusal :=
  lift s fun d => d.firmwareImageDownload portB cid off bytes

/-- FIRMWARE_COMMIT (R744): Firmware Commit writes and checks the slot, and sets the boot slot or activates the image as its
action directs. -/
def execFirmwareCommit (portB : Bool) (cid : Nat) (slot : Nat) (action : Nat) (s : State) :
    Host.Outcome State Fault Refusal :=
  lift s fun d => d.firmwareCommit portB cid slot action

/-- FW_ACTIVATION (R522): Once the fetched commands have completed, the new image takes over and fetching resumes. -/
def execFwActivation (s : State) : Host.Outcome State Fault Refusal :=
  lift s fun d => d.fwActivation

/-- FORMAT_NVM (R510): Format NVM changes the format or erases the namespace as SES directs. -/
def execFormatNvm (portB : Bool) (cid : Nat) (nsid : Nat) (lbaf : Nat) (pi : Nat) (ses : Nat) (piFirst : Bool) (s : State) :
    Host.Outcome State Fault Refusal :=
  lift s fun d => (d.formatNvm portB cid nsid lbaf pi ses piFirst).settleAll

/-- SANITIZE (R514): Sanitize crypto-erases or overwrites every namespace in resumable steps. -/
def execSanitize (portB : Bool) (cid : Nat) (action : Nat) (passes : Nat) (pattern : Nat) (ause : Bool) (invert : Bool) (noDealloc : Bool) (s : State) :
    Host.Outcome State Fault Refusal :=
  lift s fun d => (d.sanitize portB cid action passes pattern ause invert noDealloc).settleAll

/-- KEEP_ALIVE (R500): The Keep Alive command is accepted. -/
def execKeepAlive (portB : Bool) (cid : Nat) (s : State) : Host.Outcome State Fault Refusal :=
  lift s fun d => d.keepAlive portB cid

/-- FLUSH (R507): Flush sets a barrier and completes when the tail passes it, or at once when the write cache is reported
absent. -/
def execFlush (h : HostIo) (s : State) : Host.Outcome State Fault Refusal :=
  lift s fun d => (d.flush h).settleAll

/-- WRITE_ZEROES (R500): Write Zeroes is admitted as ZERO records of up to 65,536 blocks. -/
def execWriteZeroes (h : HostIo) (s : State) : Host.Outcome State Fault Refusal :=
  lift s fun d => (d.writeZeroes h).settleAll

/-- DATASET_MANAGEMENT (R500): Dataset Management Deallocate is admitted as ZERO records. -/
def execDatasetManagement (h : HostIo) (dealloc : Bool) (ranges : List (Nat × Nat)) (s : State) :
    Host.Outcome State Fault Refusal :=
  lift s fun d => (d.datasetManagement h dealloc ranges).settleAll

/-- VERIFY (R500): Verify reads, decodes and checks tags and PI without transferring data. -/
def execVerify (h : HostIo) (s : State) : Host.Outcome State Fault Refusal :=
  lift s fun d => (d.verify h).settleAll

/-- NAMESPACE_MANAGEMENT (R490): Namespace Management completes with Invalid Command Opcode. -/
def execNamespaceManagement (portB : Bool) (cid : Nat) (s : State) : Host.Outcome State Fault Refusal :=
  lift s fun d => d.namespaceManagement portB cid

/-- NAMESPACE_ATTACHMENT (R490): Namespace Attachment completes with Invalid Command Opcode. -/
def execNamespaceAttachment (portB : Bool) (cid : Nat) (s : State) : Host.Outcome State Fault Refusal :=
  lift s fun d => d.namespaceAttachment portB cid

/-- INVALID_OPCODE (R500): Any unsupported opcode completes with Invalid Command Opcode. -/
def execInvalidOpcode (portB : Bool) (sq : Nat) (cid : Nat) (s : State) : Host.Outcome State Fault Refusal :=
  lift s fun d => d.badOpcode portB sq cid

/-- NVME_SQ_DOORBELL (R487): An NVMe SQ tail doorbell makes the controller fetch and arbitrate new commands. -/
def execNvmeSqDoorbell (portB : Bool) (sq : Nat) (tail : Nat) (s : State) : Host.Outcome State Fault Refusal :=
  lift s fun d => d.nvmeSqDoorbell portB sq tail

/-- NVME_CQ_DOORBELL (R486): An NVMe CQ head doorbell frees completion queue slots. -/
def execNvmeCqDoorbell (portB : Bool) (cq : Nat) (head : Nat) (s : State) : Host.Outcome State Fault Refusal :=
  lift s fun d => d.nvmeCqDoorbell portB cq head

/-- CC_ENABLE (R485): Setting CC.EN makes the controller ready once buffer init and replay are done and no hold applies. -/
def execCcEnable (portB : Bool) (ams : Nat) (asqs : Nat) (acqs : Nat) (s : State) : Host.Outcome State Fault Refusal :=
  lift s fun d => d.ccEnable portB ams asqs acqs

/-- READY_TIMEOUT (R485): 30 s after CC.EN is set while the device is held not ready, the controller sets CSTS.CFS. -/
def execReadyTimeout (portB : Bool) (s : State) : Host.Outcome State Fault Refusal :=
  lift s fun d => d.readyTimeout portB

/-- CC_DISABLE (R521): Clearing CC.EN stops the controller's DMA, discards unfetched commands and keeps admitted writes. -/
def execCcDisable (portB : Bool) (s : State) : Host.Outcome State Fault Refusal :=
  lift s fun d => (d.ccDisable portB).settleAll

/-- SHUTDOWN_NORMAL (R521): A normal CC.SHN shutdown completes commands and reports SHST complete after a barrier when
needed. -/
def execShutdownNormal (portB : Bool) (s : State) : Host.Outcome State Fault Refusal :=
  lift s fun d => (d.shutdownNormal portB).settleAll

/-- SHUTDOWN_ABRUPT (R521): An abrupt CC.SHN shutdown reports SHST complete at once and keeps the journal. -/
def execShutdownAbrupt (portB : Bool) (s : State) : Host.Outcome State Fault Refusal :=
  lift s fun d => (d.shutdownAbrupt portB).settleAll

/-- NVM_SUBSYSTEM_RESET (R521): An NVM subsystem reset raises source 5 and resets both controllers of the package. -/
def execNvmSubsystemReset (s : State) : Host.Outcome State Fault Refusal :=
  lift s fun d => d.nvmSubsystemReset

/-- APST_TRANSITION (R520): An autonomous power state transition timer of the host's APST table expires and moves the
controller's state. -/
def execApstTransition (portB : Bool) (s : State) : Host.Outcome State Fault Refusal :=
  lift s fun d => (d.apstTransition portB).settleAll

end Sys2Proof.Machine
end

