-- ==== Sys2Proof/Machine/PortRows.lean ====
section
/-!
DEFINITION. Meanings of the host ports and the windows (chapter 12): each row applies its operation to the device.
-/
namespace Sys2Proof.Machine

/-- CONFIG_WRITE (R534): A configuration write updates the writable capability fields and ignores read-only ones. -/
def execConfigWrite (portB : Bool) (fn : Nat) (off : Nat) (v : Word) (enable : Word) (s : State) :
    Host.Outcome State Fault Refusal :=
  lift s fun d => d.configWrite portB fn off v enable

/-- FLR (R560): A Function Level Reset stops the function's requests and returns its configuration and port state to reset
values. -/
def execFlr (portB : Bool) (fn : Nat) (s : State) : Host.Outcome State Fault Refusal :=
  lift s fun d => d.flr portB fn

/-- BUS_MASTER_DISABLE (R559): Clearing Bus Master Enable stops the function's requests and quarantines the tags of its
outstanding reads. -/
def execBusMasterDisable (portB : Bool) (fn : Nat) (s : State) : Host.Outcome State Fault Refusal :=
  lift s fun d => d.busMasterDisable portB fn

/-- BUS_MASTER_ENABLE (R473): Setting Bus Master Enable releases the port's held completions in order. -/
def execBusMasterEnable (portB : Bool) (fn : Nat) (s : State) : Host.Outcome State Fault Refusal :=
  lift s fun d => d.busMasterEnable portB fn

/-- DSTATE_CHANGE (R563): A move of PF0 or PF1 between D0 and D3hot holds or resumes fetching, and flushes or holds
completions. -/
def execDstateChange (portB : Bool) (fn : Nat) (d3hot : Bool) (s : State) : Host.Outcome State Fault Refusal :=
  lift s fun d => d.dstateChange portB fn d3hot

/-- HOST_PORT_RESET (R561): PERST, hot reset or DL_Down on a host port resets both its functions and raises its reset source.
-/
def execHostPortReset (portB : Bool) (perst : Bool) (s : State) : Host.Outcome State Fault Refusal :=
  lift s fun d => d.hostPortReset portB perst

/-- HOST_COMPLETION (R550): A completion for a device read arrives on a host port and is delivered, discarded or reported. -/
def execHostCompletion (portB : Bool) (tag : Nat) (res : CplRes) (s : State) : Host.Outcome State Fault Refusal :=
  lift s fun d => d.hostCompletion portB tag res

/-- COMPLETION_TIMEOUT (R555): A read's completion timeout expires, it is reported through AER, and the requester takes the
outcome of Table 12-8. -/
def execCompletionTimeout (portB : Bool) (tag : Option Nat) (s : State) : Host.Outcome State Fault Refusal :=
  lift s fun d => d.completionTimeout portB tag

/-- TAG_QUARANTINE_EXPIRY (R556): The quarantine time of a tag passes, and the tag may be reused. -/
def execTagQuarantineExpiry (portB : Bool) (tag : Nat) (s : State) : Host.Outcome State Fault Refusal :=
  lift s fun d => d.tagQuarantineExpiry portB tag

/-- BAR4_READ (R543): A BAR4 read is translated through the port's XLT_ENTRY, or refused and counted. -/
def execBar4Read (portB : Bool) (off : Nat) (len : Nat) (s : State) : Host.Outcome State Fault Refusal :=
  lift s fun d => d.bar4Read (Memory.read s.mem) portB off len

/-- BAR4_WRITE (R543): A BAR4 write is translated through the port's XLT_ENTRY, or refused and counted. -/
def execBar4Write (portB : Bool) (off : Nat) (bytes : List Byte) (poisoned : Bool) (s : State) :
    Host.Outcome State Fault Refusal :=
  lift s fun d => d.bar4Write portB off bytes poisoned

/-- EXPANSION_ROM_READ (R549): A read of the expansion ROM window is served from the HBM copy of the UEFI image. -/
def execExpansionRomRead (portB : Bool) (off : Nat) (len : Nat) (s : State) : Host.Outcome State Fault Refusal :=
  lift s fun d => d.expansionRomRead portB off len

/-- XLT_CLR_COUNTS (R566): A write of XLT_CTRL.CLR_COUNTS clears the completion fault and refused access counters. -/
def execXltClrCounts (req : Requester) (s : State) : Host.Outcome State Fault Refusal :=
  lift s fun d => d.xltClrCounts req

/-- PORT_PLL_LOCK_LOSS (R713): A port or group PLL loses lock and its link goes down. -/
def execPortPllLockLoss (clock : Nat) (s : State) : Host.Outcome State Fault Refusal :=
  lift s fun d => d.portPllLockLoss clock

/-- HOST_PERST_RELEASE (R717): PERSTA_N or PERSTB_N is released, and PD_HA or PD_HB powers up within 20 µs so that the port's
link can train. -/
def execHostPerstRelease (portB : Bool) (link : Option (Nat × Nat × Bool)) (s : State) : Host.Outcome State Fault Refusal :=
  lift s fun d => d.hostPerstRelease portB link

end Sys2Proof.Machine
end

