-- ==== Sys2Proof/Machine/PowerRows.lean ====
section
/-!
DEFINITION. Meanings of sensors, power and voltage (chapters 17 and 18): each row applies its operation to the device.
-/
namespace Sys2Proof.Machine

/-- THERMAL_SAMPLE (R727): A 100 µs thermal sampling round updates the hottest reading and the throttle level. -/
def execThermalSample (readings : List Int) (s : State) : Host.Outcome State Fault Refusal :=
  lift s fun d => d.thermalSample readings

/-- RAIL_SAMPLE (R751): A 100 µs rail sampling round updates the rail readings and alarms. -/
def execRailSample (readings : List Nat) (s : State) : Host.Outcome State Fault Refusal :=
  lift s fun d => d.railSample readings

/-- VBAT_LOW (R752): VBAT falls below 2.0 V, and the VBAT alarm is entered and logged. -/
def execVbatLow (mv : Nat) (s : State) : Host.Outcome State Fault Refusal :=
  lift s fun d => d.vbatLow mv

/-- POWER_CAP_AVERAGE (R729): A 10 ms power average is compared with WATTS, and an extra throttle level starts or ends. -/
def execPowerCapAverage (mw : Nat) (s : State) : Host.Outcome State Fault Refusal :=
  lift s fun d => d.powerCapAverage mw

/-- AVS_TIMEOUT (R722): An AVSBus request is not acknowledged within 1 ms, so 800 mV is requested once and AVS_ERR is set. -/
def execAvsTimeout (s : State) : Host.Outcome State Fault Refusal :=
  lift s fun d => d.avsTimeout

/-- VCD_LOWER_TIMER (R721): 100 ms without a rise lets the IOD lower its VDD_CD request. -/
def execVcdLowerTimer (s : State) : Host.Outcome State Fault Refusal :=
  lift s fun d => d.vcdLowerTimer

/-- CPM_CLR_COUNTS (R731): CPM_CTRL.CLR_COUNTS clears the throttle counters, the throttled time and the power peak. -/
def execCpmClrCounts (req : Requester) (s : State) : Host.Outcome State Fault Refusal :=
  lift s fun d => d.cpmClrCounts req

/-- SNS_CLR_PEAK (R750): SNS_CTRL.CLR_PEAK sets every sensor PEAK to its current reading. -/
def execSnsClrPeak (req : Requester) (s : State) : Host.Outcome State Fault Refusal :=
  lift s fun d => d.snsClrPeak req

/-- VBAT_RESTORED (R752): VBAT rises back to 2.0 V or above, and the VBAT alarm is left with one event log record. -/
def execVbatRestored (mv : Nat) (s : State) : Host.Outcome State Fault Refusal :=
  lift s fun d => d.vbatRestored mv

end Sys2Proof.Machine
end

