-- ==== Sys2Proof/Machine/QueueRows.lean ====
section
/-!
DEFINITION. Meanings of codec work queues (chapter 10): each row applies its operation to the device.
-/
namespace Sys2Proof.Machine

/-- SQ_DOORBELL (R440): A CWQ SQ tail doorbell is accepted when it is within range, or refused as a silent violation. -/
def execSqDoorbell (req : Requester) (q : Nat) (tail : Word) (s : State) : Host.Outcome State Fault Refusal :=
  lift s fun d => d.sqDoorbell req q tail.toNat

/-- CQ_DOORBELL (R441): A CWQ CQ head doorbell frees slots, and waiting completions are posted. -/
def execCqDoorbell (req : Requester) (q : Nat) (head : Word) (s : State) : Host.Outcome State Fault Refusal :=
  lift s fun d => d.cqDoorbell req q head.toNat

/-- SQ_ENTRY_FETCHED (R448): A fetched SQ entry arrives, or the fetch fails and halts the SQ. -/
def execSqEntryFetched (q : Nat) (res : Option (List Byte)) (cause : Nat) (s : State) : Host.Outcome State Fault Refusal :=
  lift s fun d => d.sqEntryFetched q res cause

/-- ENTRY_START (R450): The arbiter starts a dispatchable entry on the lowest free host channel under weighted round robin.
-/
def execEntryStart (s : State) : Host.Outcome State Fault Refusal :=
  lift s fun d => d.entryStart

/-- HEAD_WRITEBACK_TIMER (R453): WB_US after the published head advances, the device writes the head and state to the
writeback area. -/
def execHeadWritebackTimer (q : Nat) (s : State) : Host.Outcome State Fault Refusal :=
  lift s fun d => d.headWritebackTimer q

/-- SQ_ABORT (R463): A write to CWQ_SQ_ABORT aborts the matching entry and reports the outcome in CWQ_SQ_ABORT_RES. -/
def execSqAbort (req : Requester) (q : Nat) (cid : Nat) (s : State) : Host.Outcome State Fault Refusal :=
  lift s fun d => d.sqAbort req q cid

/-- SQ_ENABLE (R467): Writing ENABLE = 1 runs the enable checks and sets the SQ RUNNING, or sets ERR. -/
def execSqEnable (req : Requester) (q : Nat) (s : State) : Host.Outcome State Fault Refusal :=
  lift s fun d => d.sqEnable req q

/-- SQ_DISABLE (R466): Writing ENABLE = 0 stops fetching, discards unstarted entries and drains the SQ to QUIESCED. -/
def execSqDisable (req : Requester) (q : Nat) (s : State) : Host.Outcome State Fault Refusal :=
  lift s fun d => d.sqDisable req q

/-- RESET_IDX (R470): RESET_IDX sets the published head to 0 when the SQ is DISABLED or QUIESCED. -/
def execResetIdx (req : Requester) (q : Nat) (s : State) : Host.Outcome State Fault Refusal :=
  lift s fun d => d.resetIdx req q

/-- CQ_ENABLE (R471): Enabling a CQ resets its tail and head and posts its held completions first. -/
def execCqEnable (req : Requester) (q : Nat) (s : State) : Host.Outcome State Fault Refusal :=
  lift s fun d => d.cqEnable req q

/-- CQ_DISABLE (R471): Disabling a CQ is refused while a naming SQ is RUNNING or DRAINING. -/
def execCqDisable (req : Requester) (q : Nat) (s : State) : Host.Outcome State Fault Refusal :=
  lift s fun d => d.cqDisable req q

/-- CQ_MOD_TIMER (R474): The oldest uninterrupted completion of a CQ has waited TIME_US, and the vector is sent. -/
def execCqModTimer (q : Nat) (s : State) : Host.Outcome State Fault Refusal :=
  lift s fun d => d.cqModTimer q

end Sys2Proof.Machine
end

