-- ==== Sys2Proof/Machine/Registers.lean ====
section
/-!
DEFINITION. Register accesses (chapters 0, 12, 19): what each register reads, how a write commits, what a write to an action register does,
the Discovery Table, the MSI-X tables, and the eight register rows.
-/
namespace Sys2Proof.Machine

/-! ### Values that registers report from the rest of the state -/

/-- A value placed in a field. -/
def at_ (f : Fld) (x : Nat) : Nat := (x % 2 ^ (f.hi + 1 - f.lo)) * 2 ^ f.lo

/-- Code of a key slot state (table 7-6). -/
def KeySt.code : KeySt → Nat
  | .empty => 0 | .ready => 1 | .active => 2 | .destroying => 3

/-- CPM_PD_STATE (table 17-2). -/
def Dev.pdState (d : Dev) : Nat :=
  let dump := d.on Reg.VLT_STATUS_DUMPING
  let fenced := d.acdState == 4
  let links := !fenced && !dump
  bitsFrom ([true, true, false, true, true, true, true, !d.vlt.nandOff, !d.ports.a.perst, !d.ports.b.perst, !d.solo && links, !d.solo && links] ++
    List.replicate 6 links ++ [true, true] ++ ([0, 1].map fun i => !d.fab.offline.contains i && !dump) ++
    ((List.range 8).map fun r => d.powered r))

/-- CPM_CLK_STATE (table 17-1). -/
def Dev.clkState (d : Dev) : Nat :=
  let pd := d.pdState
  let awake := d.pkgState != 4
  bitsFrom ([d.rst.bkpClock, true, awake && !d.on Reg.VLT_STATUS_DUMPING, true] ++ ((List.range 10).map fun i => pd.testBit (8 + i)) ++ [awake, awake] ++
    ([0, 1].map fun i => d.fab.pll.getD i false))

/-- ITG_INIT_PROGRESS of a pool (table 7-19): the fraction of its extents' blocks that is zeroed or skipped. -/
def Dev.initProgress (d : Dev) (p : Nat) : Nat :=
  if !d.initialising p then 100
  else
    let jobs := d.arm.zeroing.filter fun z => z.pool == p && z.ns == 0
    let total : Nat := (jobs.map (·.total)).foldl (· + ·) 0
    let done : Nat := (jobs.map fun z => if z.finished then z.total else z.done).foldl (· + ·) 0
    2 ^ 31 + min 99 (if total = 0 then 0 else 100 * done / total)

/-- MBR_LINK_STATE of a link (table 13-16). -/
def Dev.linkState (d : Dev) (l : Nat) : Nat :=
  let x := d.link l
  at_ Reg.MBR_LINK_STATE_PRESENT (bit x.present) + at_ Reg.MBR_LINK_STATE_EXISTS (bit (d.linkExists l)) +
  at_ Reg.MBR_LINK_STATE_NAMESPACES (min 2048 (d.disc.filter fun y => y.globalLink == l).length) +
  (if x.up then at_ Reg.MBR_LINK_STATE_LINK_UP 1 + at_ Reg.MBR_LINK_STATE_FLIT (bit x.flit) + at_ Reg.MBR_LINK_STATE_WIDTH x.width +
    at_ Reg.MBR_LINK_STATE_SPEED x.speed else 0)

/-- SNS_VALUE of the selected sensor (table 18-18). -/
def Dev.snsValue (d : Dev) : Nat :=
  let i := d.g Reg.SNS_SEL_INDEX
  let two := fun (x : Int) => (x % 65536).toNat
  if d.on Reg.SNS_SEL_KIND then at_ Reg.SNS_VALUE_PEAK (d.mgmt.railLow.getD i 0) + at_ Reg.SNS_VALUE_NOW (d.mgmt.rails.getD i 0)
  else at_ Reg.SNS_VALUE_PEAK (two (d.mgmt.thermPeak.getD i 0)) + at_ Reg.SNS_VALUE_NOW (two (d.mgmt.therm.getD i 0))

/-- SIL_MBR_STATE of the selected member (table 6-19). -/
def Dev.silMbrState (d : Dev) : Nat :=
  let n := d.g Reg.SIL_MBR_SEL_MEMBER
  let m := d.mbr n
  at_ Reg.SIL_MBR_STATE_STATE m.st.code + at_ Reg.SIL_MBR_STATE_CAUSE m.cause.code + at_ Reg.SIL_MBR_STATE_RESYNC_DRL (bit m.resyncDrl) +
  at_ Reg.SIL_MBR_STATE_DRL_HELD (bit m.drl.isSome) + at_ Reg.SIL_MBR_STATE_TIMEOUTS (d.mbrCount n .tmo) +
  at_ Reg.SIL_MBR_STATE_ERRORS (d.mbrCount n .err) + at_ Reg.SIL_MBR_STATE_SLOW (d.mbrCount n .slow)

/-- ITG_KEY_STATE of the selected slot (table 7-13). -/
def Dev.keyState (d : Dev) : Nat :=
  let n := d.g Reg.ITG_KEY_SEL_SLOT
  at_ Reg.ITG_KEY_STATE_BINDS (min 0xFFFF ((AMap.get d.keys.binds n).getD 0)) +
  (match d.keys.slots.find? (·.slot = n) with
  | some k => at_ Reg.ITG_KEY_STATE_STATE k.st.code + at_ Reg.ITG_KEY_STATE_NSID k.nsid
  | none => 0)

/-- FAB_STATUS, of which two bits are held (table 8-10). -/
def Dev.fabStatus (d : Dev) (held : Nat) : Nat :=
  at_ Reg.FAB_STATUS_REGION_ON (bitsFrom ((List.range 8).map d.powered)) + at_ Reg.FAB_STATUS_PLL_RUN (bitsFrom d.fab.pll) +
  at_ Reg.FAB_STATUS_DIE_OFFLINE (bitsFrom ([0, 1].map d.fab.offline.contains)) +
  at_ Reg.FAB_STATUS_EXHAUSTED_SEEN (bitsOf held Reg.FAB_STATUS_EXHAUSTED_SEEN.hi Reg.FAB_STATUS_EXHAUSTED_SEEN.lo) +
  at_ Reg.FAB_STATUS_UNIT_RETIRED_SEEN (bitsOf held Reg.FAB_STATUS_UNIT_RETIRED_SEEN.hi Reg.FAB_STATUS_UNIT_RETIRED_SEEN.lo) +
  at_ Reg.FAB_STATUS_UNITS d.unitsInService

/-- Tags of a port: outstanding and quarantined (table 12-16). -/
def Dev.tagUsage (d : Dev) (portB : Bool) : Nat :=
  let ts := (d.port portB).tags
  at_ Reg.XLT_TAGUSEA_OUTSTANDING (ts.filter (!·.quarantined)).length + at_ Reg.XLT_TAGUSEA_QUARANTINED (ts.filter (·.quarantined)).length

/-- RST_ACTIVE: sources active now, those of blocks held in reset included (table 16-12). -/
def Dev.activeSources (d : Dev) : Nat :=
  bitsFrom ((List.range 32).map fun s => d.rst.active.contains s || d.rst.blocks.any fun b => b.source == s || b.also.contains s)

/-- GCS_STATUS: the requester of this read, and whether it may write global registers (R766). -/
def Dev.gcsStatus (d : Dev) (req : Requester) : Nat :=
  at_ Reg.GCS_STATUS_REQUESTER req.code + at_ Reg.GCS_STATUS_IS_PRIMARY (bit (d.writesGlobal req))

/-- The pins MGPIO as sampled: the level driven where a pin is an output; an input's level comes from outside the block and is free. -/
def Dev.gpioIn (d : Dev) : Nat :=
  let oe := d.g Reg.MBR_GPIO_OE_PINS
  bitsFrom ((List.range 32).map fun i =>
    if oe.testBit i then (d.g Reg.MBR_GPIO_OUT_PINS).testBit i else (Config.freeValue d.freeCtr).testBit i)

/-- The channel of a CHN_ register instance. -/
def chOf (inst : Nat) : Nat := (inst - 0x80000) / 0x100

/-- What a register reads (R10): the value it holds, or what the rest of the state gives it. -/
def Dev.regView (d : Dev) (req : Requester) (r : RegRef) : Nat :=
  let held := (d.reg r.home).toNat
  let b := r.desc.base
  if b = Reg.GCS_STATUS_REQUESTER.base then d.gcsStatus req
  else if b = Reg.ARM_EXC_COUNT_COUNT.base then d.arm.excs.length
  else if b = Reg.ARM_DRAIN_COUNT_COUNT.base then d.drainCount
  else if b = Reg.SIL_STATUS_CRITICAL.base then held / 8 * 8 + bitsFrom [d.silCriticalFlag, d.silRepairing, d.silScrubbing]
  else if b = Reg.SIL_MBR_STATE_STATE.base then d.silMbrState
  else if b = Reg.SIL_MBR_DEPART_MARK.base then (d.mbr (d.g Reg.SIL_MBR_SEL_MEMBER)).mark.getD 0
  else if b = Reg.SIL_MBR_PROGRESS_DONE.base then
    let p := d.mbrProgress (d.g Reg.SIL_MBR_SEL_MEMBER)
    at_ Reg.SIL_MBR_PROGRESS_DONE p.1 + at_ Reg.SIL_MBR_PROGRESS_TOTAL p.2
  else if b = Reg.SIL_DEGRADED_COUNT.base then d.silDegraded
  else if b = Reg.SIL_CRITICAL_COUNT.base then d.silCritical
  else if b = Reg.SIL_UNRECOV_COUNT.base then d.jnl.marked.length
  else if b = Reg.FAB_STATUS_UNITS.base then d.fabStatus held
  else if b = Reg.FAB_REGION_STATS_WAKES.base then
    at_ Reg.FAB_REGION_STATS_WAKES d.selRegion.wakes + at_ Reg.FAB_REGION_STATS_READ_WAKES d.selRegion.readWakes
  else if b = Reg.FAB_ELB_HITS_COUNT.base then d.selRegion.hits
  else if b = Reg.FAB_ELB_MISSES_COUNT.base then d.selRegion.misses
  else if b = Reg.FAB_ELB_EVENTS_POISONED.base then
    at_ Reg.FAB_ELB_EVENTS_POISONED d.selRegion.poisoned + at_ Reg.FAB_ELB_EVENTS_DATA_ERRS d.selRegion.dataErrs
  else if b = Reg.ITG_KEY_STATE_STATE.base then d.keyState
  else if b = Reg.ITG_INIT_PROGRESS_ACTIVE.base then d.initProgress (d.g Reg.ITG_INIT_SEL_POOL)
  else if b = Reg.MBR_LINK_STATE_PRESENT.base then d.linkState (d.g Reg.MBR_LINK_SEL_LINK)
  else if b = Reg.MBR_MODES_MODE.base then ((List.range 6).map fun g => d.groupMode g % 4 * 4 ^ g).foldl (· + ·) 0
  else if b = Reg.MBR_GPIO_IN_PINS.base then d.gpioIn
  else if b = Reg.SNS_VALUE_NOW.base then d.snsValue
  else if b = Reg.CHN_STATUS_STATE.base then setBits held 28 28 (bit (d.chInternal (chOf r.inst)))
  else if b = Reg.XLT_TAGUSEA_OUTSTANDING.base then d.tagUsage false
  else if b = Reg.XLT_TAGUSEB_OUTSTANDING.base then d.tagUsage true
  else if b = Reg.CPM_STATUS_PSTATE.base then setBits held Reg.CPM_STATUS_PSTATE.hi Reg.CPM_STATUS_PSTATE.lo d.pkgState
  else if b = Reg.CPM_PD_STATE_ON.base then d.pdState
  else if b = Reg.CPM_CLK_STATE_ON.base then d.clkState
  else if b = Reg.CWQ_TIME_US.base then d.cwqTime
  else if b = Reg.RST_ACTIVE_SOURCES.base then d.activeSources
  else held

/-! ### When a block is enabled (table 0-6) -/

/-- Whether an SQ is RUNNING or DRAINING (R480). -/
def Dev.sqEnabled (d : Dev) (q : Nat) : Bool := d.sqState q == 1 || d.sqState q == 2

/-- Whether the block that owns a register counts as enabled, so that its frozen fields refuse a write. -/
def Dev.regEnabled (d : Dev) (r : RegRef) : Bool :=
  let b := r.desc.base
  let i := r.desc.index r.inst
  if 0x20000 ≤ b ∧ b < 0x30000 then d.armEnabled
  else if 0x40000 ≤ b ∧ b < 0x50000 then d.mbrs.any (·.drl.isSome)
  else if 0x80000 ≤ b ∧ b < 0xA0000 then d.chState (chOf r.inst) != 0
  else if 0xA0000 ≤ b ∧ b < 0xB0000 then d.sqEnabled i
  else if 0xB0000 ≤ b ∧ b < 0xB8000 then d.gi Reg.CWQ_CQ_CTRL_ENABLE i != 0
  else if 0x260000 ≤ b ∧ b < 0x268000 then d.on Reg.MBX_STATUS_BUSY
  else false

/-- Bits of an owner register that its queues freeze (R480). -/
def Dev.ownerFrozen (d : Dev) (r : RegRef) : Nat :=
  let n := 32 * r.desc.index r.inst
  if r.desc.base = Reg.CWQ_SQ_OWNER_OWNER.base then bitsFrom ((List.range 32).map fun i => d.sqEnabled (n + i))
  else if r.desc.base = Reg.CWQ_CQ_OWNER_OWNER.base then bitsFrom ((List.range 32).map fun i => d.gi Reg.CWQ_CQ_CTRL_ENABLE (n + i) != 0)
  else 0

/-- Registers whose RW field is a clearing counter (R12). -/
def clearingReg (base : Nat) : Bool :=
  base == Reg.GCS_IGNORED_WRITES_COUNT.base || base == Reg.JNL_OCCUPANCY_PEAK.base || base == Reg.CWQ_DROPPED_COUNT.base

/-! ### What a write does beside changing fields -/

/-- The bits of a field in a value written. -/
def fieldOf (f : Fld) (w : Nat) : Nat := bitsOf w f.hi f.lo

/-- Applies a meaning where a field's bits in the value written are not 0. -/
def whenSet (f : Fld) (w : Nat) (act : Dev → Dev) (d : Dev) : Dev := if fieldOf f w = 0 then d else act d

/-- ARM_CTRL.CMD. -/
def Dev.actArm (d : Dev) (req : Requester) (w : Nat) : Dev :=
  let internal := d.on Reg.ARM_CTRL_SRC_INTERNAL
  match fieldOf Reg.ARM_CTRL_CMD w with
  | 1 => d.armLoad req internal
  | 2 => d.armCommit req internal
  | 3 => d.armDiscard req internal
  | _ => d

/-- SIL_MBR_CMD.OP. -/
def Dev.actSilMbr (d : Dev) (req : Requester) (w : Nat) : Dev :=
  let m := fieldOf Reg.SIL_MBR_CMD_MEMBER w
  match fieldOf Reg.SIL_MBR_CMD_OP w with
  | 1 => (d.memberFail req m).settleAll
  | 2 => (d.memberReadmit req m).settleAll
  | 3 => (d.memberRetire req m).settleAll
  | 4 => (d.memberClear req m).settleAll
  | _ => d

/-- CHN_CTRL: CLR_LEVEL, then ABORT, then START. -/
def Dev.actChn (d : Dev) (req : Requester) (ch w : Nat) : Dev :=
  if d.chInternal ch then whenSet Reg.CHN_CTRL_START w (fun d => d.chnStart req ch) d
  else
    whenSet Reg.CHN_CTRL_START w (fun d => d.chnStart req ch)
      (whenSet Reg.CHN_CTRL_ABORT w (fun d => d.chnAbort req ch) (whenSet Reg.CHN_CTRL_CLR_LEVEL w (fun d => d.chnClrLevel req ch) d))

/-- CWQ_SQ_CTRL: RESET_IDX while the queue is not enabled, then a change of ENABLE. -/
def Dev.actSqCtrl (d : Dev) (req : Requester) (q w : Nat) : Dev :=
  let d := if fieldOf Reg.CWQ_SQ_CTRL_RESET_IDX w ≠ 0 && !d.sqEnabled q then d.resetIdx req q else d
  let on := fieldOf Reg.CWQ_SQ_CTRL_ENABLE w
  if on = d.gi Reg.CWQ_SQ_CTRL_ENABLE q then d else if on = 1 then d.sqEnable req q else d.sqDisable req q

/-- CWQ_CQ_CTRL: a change of ENABLE; clearing it while a queue needs the CQ is refused and has been counted. -/
def Dev.actCqCtrl (d : Dev) (req : Requester) (q w : Nat) : Dev :=
  let on := fieldOf Reg.CWQ_CQ_CTRL_ENABLE w
  if on = d.gi Reg.CWQ_CQ_CTRL_ENABLE q then d
  else if on = 1 then d.cqEnable req q
  else if d.cqInUse q then d
  else d.cqDisable req q

/-- MBR_CTRL. -/
def Dev.actMbr (d : Dev) (req : Requester) (w : Nat) : Dev :=
  let internal := fieldOf Reg.MBR_CTRL_DISC_INTERNAL w != 0
  whenSet Reg.MBR_CTRL_CLR_COUNTS w (fun d => d.mbrClrCounts req)
    (whenSet Reg.MBR_CTRL_DISC_DUMP w (fun d => d.mbrDiscDump req internal true) (whenSet Reg.MBR_CTRL_RESCAN w (fun d => d.mbrRescan req) d))

/-- MBR_SLOT_CMD.OP. -/
def Dev.actSlot (d : Dev) (req : Requester) (w : Nat) : Dev :=
  let member := fieldOf Reg.MBR_SLOT_CMD_KIND w != 0
  let target := fieldOf Reg.MBR_SLOT_CMD_TARGET w
  match fieldOf Reg.MBR_SLOT_CMD_OP w with
  | 1 => d.slotPowerOn req member target
  | 2 => d.slotPowerOff req member target
  | _ => d

/-- ACD_CTRL. -/
def Dev.actAcd (d : Dev) (req : Requester) (w : Nat) : Dev :=
  whenSet Reg.ACD_CTRL_CLR_COUNTS w (fun d => d.acdClrCounts req)
    (whenSet Reg.ACD_CTRL_PEER_RESET w (fun d => d.acdPeerReset req)
      (whenSet Reg.ACD_CTRL_RELEASE w (fun d => d.acdRelease req) (whenSet Reg.ACD_CTRL_FENCE w (fun d => d.acdFence req) d)))

/-- RST_CTRL, with its key. -/
def Dev.actRst (d : Dev) (req : Requester) (w : Nat) : Dev :=
  let key := fieldOf Reg.RST_CTRL_KEY w
  let d := whenSet Reg.RST_CTRL_CLR_HIST w (fun d => d.rstClrHist req key) d
  match fieldOf Reg.RST_CTRL_OP w with
  | 1 => d.softwareWarm req key
  | 2 => d.softwareCold req key
  | _ => d

/-- FAB_UNIT_CMD.OP. -/
def Dev.actUnit (d : Dev) (req : Requester) (w : Nat) : Dev :=
  if fieldOf Reg.FAB_UNIT_CMD_OP w = 1 then (d.unitRetire req (fieldOf Reg.FAB_UNIT_CMD_UNIT w)).noUnitCheck.settleAll else d

/-- What an accepted write does beside changing fields; `old` is what the register held before. -/
def Dev.regAct (d : Dev) (req : Requester) (r : RegRef) (old w : Nat) : Dev :=
  let b := r.desc.base
  let i := r.desc.index r.inst
  if b = Reg.ARM_CTRL_CMD.base then d.actArm req w
  else if b = Reg.JNL_CTRL_BARRIER.base then
    whenSet Reg.JNL_CTRL_CKPT_NOW w (fun d => d.ckptNow req) (whenSet Reg.JNL_CTRL_BARRIER w (fun d => d.jnlBarrier req) d)
  else if b = Reg.JNL_DRY_CFG_HIGH_WATER.base then d.jnlStatus
  else if b = Reg.SIL_CTRL_SCRUB_NOW.base then whenSet Reg.SIL_CTRL_SCRUB_NOW w (fun d => d.scrubNow req) d
  else if b = Reg.SIL_MBR_CMD_OP.base then d.actSilMbr req w
  else if b = Reg.ITG_CTRL_CLR_COUNTS.base then whenSet Reg.ITG_CTRL_CLR_COUNTS w (fun d => d.itgClrCounts req) d
  else if b = Reg.FAB_CTRL_CLR_COUNTS.base then whenSet Reg.FAB_CTRL_CLR_COUNTS w (fun d => d.fabClrCounts req) d
  else if b = Reg.FAB_SLEEP_NO_SLEEP.base then if fieldOf Reg.FAB_SLEEP_NO_SLEEP old = 0 ∧ d.noSleep then d.wakeAll else d
  else if b = Reg.FAB_WATCH_MASK.base then d.watchUp
  else if b = Reg.FAB_UNIT_CMD_OP.base then d.actUnit req w
  else if b = Reg.CHN_CTRL_START.base then d.actChn req (chOf r.inst) w
  else if Reg.CHN_SEM0_VALUE.base ≤ b ∧ b ≤ Reg.CHN_SEM0_VALUE.base + 12 then
    if d.chInternal (chOf r.inst) then d else d.serveAll (chOf r.inst) (some ((b - Reg.CHN_SEM0_VALUE.base) / 4))
  else if b = Reg.CWQ_SQ_CTRL_ENABLE.base then d.actSqCtrl req i w
  else if b = Reg.CWQ_SQ_ABORT_CMD_ID.base then d.sqAbort req i (fieldOf Reg.CWQ_SQ_ABORT_CMD_ID w)
  else if b = Reg.CWQ_CQ_CTRL_ENABLE.base then d.actCqCtrl req i w
  else if b = Reg.XLT_CTRL_CLR_COUNTS.base then whenSet Reg.XLT_CTRL_CLR_COUNTS w (fun d => d.xltClrCounts req) d
  else if b = Reg.XLT_TAGSA_PF0_LIMIT.base then (d.pumpReads false 0).pumpReads false 1
  else if b = Reg.XLT_TAGSB_PF0_LIMIT.base then (d.pumpReads true 0).pumpReads true 1
  else if b = Reg.MBR_CTRL_RESCAN.base then d.actMbr req w
  else if b = Reg.MBR_SLOT_CMD_OP.base then d.actSlot req w
  else if b = Reg.MBR_GPIO_OUT_PINS.base ∨ b = Reg.MBR_GPIO_OE_PINS.base then
    d.emit (.gpio (d.g Reg.MBR_GPIO_OUT_PINS) (d.g Reg.MBR_GPIO_OE_PINS))
  else if b = Reg.MBR_FMT_CMD_ORDINAL.base then d.mbrFormat req (fieldOf Reg.MBR_FMT_CMD_ORDINAL w) (fieldOf Reg.MBR_FMT_CMD_META16 w != 0)
  else if b = Reg.ACD_CTRL_FENCE.base then d.actAcd req w
  else if b = Reg.ACD_OWN_CMD_POOLS.base then d.acdOwnCmd req w
  else if b = Reg.VLT_CTRL_CLR_FLAGS.base then
    whenSet Reg.VLT_CTRL_DISCARD_DUMP w (fun d => d.vltDiscardDump req) (whenSet Reg.VLT_CTRL_CLR_FLAGS w (fun d => d.vltClrFlags req) d)
  else if b = Reg.RST_CTRL_OP.base then d.actRst req w
  else if b = Reg.RST_BLOCK_CMD_LEVEL.base then d.blockResetCmd req (fieldOf Reg.RST_BLOCK_CMD_LEVEL w) (fieldOf Reg.RST_BLOCK_CMD_TARGET w)
  else if b = Reg.CPM_CTRL_CLR_COUNTS.base then whenSet Reg.CPM_CTRL_CLR_COUNTS w (fun d => d.cpmClrCounts req) d
  else if b = Reg.SNS_CTRL_CLR_PEAK.base then whenSet Reg.SNS_CTRL_CLR_PEAK w (fun d => d.snsClrPeak req) d
  else if b = Reg.LOG_CTRL_FLUSH.base then whenSet Reg.LOG_CTRL_FLUSH w (fun d => d.logFlush req) d
  else if b = Reg.BUF_CTRL_CLR_COUNTS.base then whenSet Reg.BUF_CTRL_CLR_COUNTS w (fun d => d.bufClrCounts req) d
  else if b = Reg.BUF_SCRUB_PERIOD.base then
    d.p Reg.BUF_STATUS_SCRUB_PAUSED (bit (d.on Reg.VLT_STATUS_DUMPING || d.g Reg.BUF_SCRUB_PERIOD == 0))
  else d

/-! ### Writes -/

/-- The value of a register after a write (R18): enable bits of queues stay for their own operations, and the bits of enabled queues keep
their owner. -/
def Dev.regNext (d : Dev) (r : RegRef) (enabled may : Bool) (old w : Nat) : Nat :=
  let b := r.desc.base
  let v := r.desc.written enabled may (clearingReg b) old w
  if b = Reg.CWQ_SQ_CTRL_ENABLE.base ∨ b = Reg.CWQ_CQ_CTRL_ENABLE.base then setBits v 31 31 (bitsOf old 31 31)
  else
    let z := d.ownerFrozen r
    if z = 0 then v else (List.range 32).foldl (fun v i => if z.testBit i then setBits v i i (bitsOf old i i) else v) v

/-- Whether a write to a register that its requester may write breaks a rule of its own: a frozen owner bit, a CQ still in use, or GO while
the management core is down (table 18-1), which alone refuses GO and leaves the other fields of MBX_CMD to the rule of their block (R760). -/
def Dev.regRefuses (d : Dev) (r : RegRef) (old w : Nat) : Bool :=
  let i := r.desc.index r.inst
  (old ^^^ w) &&& d.ownerFrozen r != 0 ||
  (r.desc.base == Reg.CWQ_CQ_CTRL_ENABLE.base && bitsOf old 31 31 == 1 && bitsOf w 31 31 == 0 && d.cqInUse i) ||
  (r.desc.base == Reg.MBX_CMD_GO.base && !d.mgmtUp && fieldOf Reg.MBX_CMD_GO w == 1)

/-- Whether the requester's write reaches the fields of a register: it may write it, and a channel's register is not internal (R432). -/
def Dev.regMay (d : Dev) (req : Requester) (r : RegRef) : Bool :=
  d.mayWrite req r.desc r.inst && !(decide (0x80000 ≤ r.desc.base ∧ r.desc.base < 0xA0000) && d.chInternal (chOf r.inst))

/-- A write of a whole register (R18 to R23): a violation is counted first, then the accepted fields change and the write acts. -/
def Dev.commitReg (d : Dev) (req : Requester) (r : RegRef) (off w : Nat) : Dev :=
  let own := d.mayWrite req r.desc r.inst
  let may := d.regMay req r
  let enabled := d.regEnabled r
  let old := (d.reg r.home).toNat
  let counted := if own && r.desc.base == Reg.CHN_CTRL_START.base then setBits w 30 30 0 else w
  let bad := r.desc.violated enabled may (d.regView req r) counted || (may && d.regRefuses r old w)
  let d := if bad then d.violation req off false else d
  let d := d.setReg r.home (BitVec.ofNat 64 (d.regNext r enabled may (d.reg r.home).toNat w))
  if own then (if r.desc.base = Reg.MBX_CMD_GO.base ∧ !enabled ∧ d.mgmtUp ∧ fieldOf Reg.MBX_CMD_GO w = 1 then d.mbxGo else d.regAct req r old w) else d

/-- The word that a requester's holding latch has for a register, or the committed low word (R6, R8). -/
def Dev.latched (d : Dev) (req : Requester) (r : RegRef) : Nat :=
  match d.bus.wlatch.find? fun x => x.1 == req && x.2.1 == r.home with
  | some x => x.2.2.toNat
  | none => (d.reg r.home).toNat % 2 ^ 32

/-- A write of a low word of a 64-bit register loads the requester's holding latch (R6). -/
def Dev.loadLatch (d : Dev) (req : Requester) (r : RegRef) (w : Word) : Dev :=
  { d with bus := { d.bus with
      wlatch := d.bus.wlatch.filter (fun x => !(x.1 == req && x.2.1 == r.home)) ++ [(req, r.home, w)] } }

/-- Whether a write to a register changes any of its fields: the requester may write it, and a field takes the write. -/
def Dev.regCommits (d : Dev) (req : Requester) (r : RegRef) : Bool :=
  d.regMay req r && r.desc.fields.any fun f => f.takes (d.regEnabled r)

/-- A write of a high word commits the latched low word with it (R7); every latch of the register then holds the committed low word (R8). A
write that every field refuses is no commit and leaves the latches as they are (R17). -/
def Dev.commitHigh (d : Dev) (req : Requester) (r : RegRef) (off : Nat) (w : Word) : Dev :=
  let v := d.latched req r + 2 ^ 32 * w.toNat
  let d := if d.regCommits req r then { d with bus := { d.bus with wlatch := d.bus.wlatch.filter fun x => x.2.1 != r.home } } else d
  d.commitReg req r off v

/-- An access to a register of a channel wakes its cluster (R368), unless its region is off and the shadow serves it (R370). -/
def Dev.chnTouched (d : Dev) (r : RegRef) : Dev :=
  if 0x80000 ≤ r.desc.base ∧ r.desc.base < 0xA0000 ∧ d.powered (regionOf (chCluster (chOf r.inst))) then d.wakeCluster (chCluster (chOf r.inst)) else d

/-! ### The Discovery Table and the MSI-X tables -/

/-- Entries of table 12-6: type, offset, bytes per instance, count, flags. -/
def discoBlocks : List (Nat × Nat × Nat × Nat × Nat) :=
  ((List.range 6).map fun i => (i + 1, 0x10000 + 0x10000 * i, 0x10000, 1, 0x04)) ++
  [(0x07, 0x80000, 0x100, 512, 0x04), (0x08, 0xA0000, 0x40, 1024, 0x10), (0x09, 0xB0000, 0x40, 256, 0x10),
   (0x0A, 0xB8000, 0x100, 1, 0x04), (0x0B, 0x100000, 4, 1024, 0x10), (0x0C, 0x101000, 4, 256, 0x10), (0x0D, 0x200000, 0x1000, 1, 0x04)] ++
  ((List.range 8).map fun i => (0x0E + i, 0x210000 + 0x10000 * i, 0x10000, 1, 0x04)) ++
  [(0x16, 0x8000, 16, 2048, 0x08), (0x17, 0x1000, 0x100, 1, 0x08), (0x18, 0, 0x400000, 256, 0x01), (0x19, 0x201000, 8, 256, 0x08)]

/-- The Discovery Table (R539, R540). -/
def discoTable : List Byte :=
  leBytes 2 0 ++ leBytes 1 1 ++ leBytes 1 0x20 ++ leBytes 4 0x56435344 ++ leBytes 4 416 ++ leBytes 2 26 ++ leBytes 2 0 ++
  discoBlocks.flatMap fun e =>
    leBytes 2 e.1 ++ leBytes 1 1 ++ leBytes 1 e.2.2.2.2 ++ leBytes 4 e.2.1 ++ leBytes 4 e.2.2.1 ++ leBytes 2 e.2.2.2.1 ++ leBytes 2 0

/-- A word of an MSI-X table: address, data, and the mask bit. -/
def Fn.msixWord (f : Fn) (off : Nat) : Nat :=
  let m := (AMap.get f.table (off / 16)).getD ⟨0, 0, true⟩
  match off / 4 % 4 with
  | 0 => m.addr.toNat % 2 ^ 32
  | 1 => m.addr.toNat / 2 ^ 32
  | 2 => m.data.toNat
  | _ => bit m.masked

/-- A write of one word of an MSI-X table; a vector that becomes unmasked sends what is pending (R477). -/
def Dev.msixWrite (d : Dev) (portB : Bool) (fn off w : Nat) : Dev :=
  let m := (AMap.get ((d.port portB).fn fn).table (off / 16)).getD ⟨0, 0, true⟩
  let m : Msix := match off / 4 % 4 with
    | 0 => { m with addr := BitVec.ofNat 64 (m.addr.toNat / 2 ^ 32 * 2 ^ 32 + w / 4 * 4) }
    | 1 => { m with addr := BitVec.ofNat 64 (m.addr.toNat % 2 ^ 32 + w * 2 ^ 32) }
    | 2 => { m with data := BitVec.ofNat 32 w }
    | _ => { m with masked := w % 2 = 1 }
  (d.updFn portB fn fun f => { f with table := AMap.put f.table (off / 16) m }).flushPba portB fn

/-- A word of a pending bit array. -/
def Fn.pbaWord (f : Fn) (off : Nat) : Nat := bitsFrom ((List.range 32).map fun i => f.pba.contains (off / 4 * 32 + i))

/-- Where an access outside table 19-1's blocks goes. -/
inductive Place
  /-- the Discovery Table, or the zeros after it -/
  | disco (off : Nat)
  /-- an MSI-X table or pending bit array: port B, function, offset within it -/
  | msix (portB : Bool) (fn off : Nat)
  | pba (portB : Bool) (fn off : Nat)
  /-- a register of a port's controller (BAR0 of PF0), by offset -/
  | ctl (portB : Bool) (off : Nat)
  | reg (r : RegRef) (low : Bool)
  | reserved
deriving DecidableEq, Repr

/-- A word of a controller's registers (R484, R485, table 11-1): CAP, VS, the fields of CC that the device holds, and CSTS, at the places
that the NVMe standard gives them (log entry 134). -/
def NvmeCtl.word (c : NvmeCtl) (off : Nat) : Nat :=
  match off / 4 with
  | 0 => 0xFFFF + 2 ^ 16 + 2 ^ 17 + 60 * 2 ^ 24
  | 1 => 2 ^ 4 + 2 ^ 5 + 4 * 2 ^ 20
  | 2 => 0x00020100
  | 5 => bit c.en + 2 ^ 11 * c.ams
  | 7 => bit c.rdy + 2 * bit c.cfs + 4 * c.shst
  | _ => 0

/-- First offset that stands for BAR0 of PF0 (log entry 60). -/
def bar0Space : Nat := 2 ^ 32

/-- The place of an aligned offset: BAR2, port B's second range for the management core (R762), or BAR0 of PF0. -/
def placeOf (req : Requester) (off : Nat) : Place :=
  let second := req == .mgmt && decide (portBOffset ≤ off)
  let b := second || req == .portB
  let a := if second then off - portBOffset else off
  if bar0Space ≤ off then
    let x := off - bar0Space
    if req = .mgmt then .reserved
    else if 0x4000 ≤ x ∧ x < 0x8000 then .msix b 0 (x - 0x4000)
    else if 0x8000 ≤ x ∧ x < 0x8080 then .pba b 0 (x - 0x8000)
    else if x < 0x20 then .ctl b x
    else .reserved
  else if a < 0x1000 then (if second then .reserved else .disco a)
  else if 0x1000 ≤ a ∧ a < 0x1100 then .pba b 1 (a - 0x1000)
  else if 0x8000 ≤ a ∧ a < 0x10000 then .msix b 1 (a - 0x8000)
  else match regRef req off with
    | none => .reserved
    | some r => .reg r (decide (r.desc.width = 64 ∧ a = r.inst))

/-- Whether an access reaches its function: PF0's memory space for BAR0, PF1's else. -/
def Dev.reachesAt (d : Dev) (req : Requester) (off : Nat) : Bool :=
  if bar0Space ≤ off then
    let p := d.port (req == .portB)
    req != .mgmt && p.up && p.pf0.mse && !p.pf0.d3hot
  else d.reaches req

/-- Counts a write to a read-only place where the value written differs from the one read (R19). -/
def Dev.roWrite (d : Dev) (req : Requester) (off seen w : Nat) : Dev :=
  if seen = w ∨ bar0Space ≤ off then d else d.violation req off false

/-- A 32-bit write at an offset (R3 to R9, R15 to R23). -/
def Dev.busWrite (d : Dev) (req : Requester) (off : Nat) (w : Word) : Dev :=
  if !d.reachesAt req off then d.emit .unsupported
  else if off % 4 ≠ 0 then d.violation req (off / 4 * 4) true
  else match placeOf req off with
    | .disco a => if 416 ≤ a then d else d.roWrite req off (leAt discoTable a 4) w.toNat
    | .pba b fn x => d.roWrite req off (((d.port b).fn fn).pbaWord x) w.toNat
    | .ctl b x => d.roWrite req off ((d.ctl b).word x) w.toNat
    | .msix b fn x =>
      let rsv := match x / 4 % 4 with | 0 => w.toNat % 4 | 3 => w.toNat / 2 | _ => 0
      (d.roWrite req off 0 rsv).msixWrite b fn x w.toNat
    | .reserved => d.roWrite req off 0 w.toNat
    | .reg r low =>
      let d := d.chnTouched r
      if 0x100000 ≤ r.desc.base ∧ r.desc.base < 0x101000 then d.sqDoorbell req (r.desc.index r.inst) w.toNat
      else if 0x101000 ≤ r.desc.base ∧ r.desc.base < 0x101400 then d.cqDoorbell req (r.desc.index r.inst) w.toNat
      else if low then d.loadLatch req r w
      else if r.desc.width = 64 then d.commitHigh req r off w
      else d.commitReg req r off w.toNat

/-! ### Reads -/

/-- The requester's read latch loaded, or emptied (R764). -/
def Dev.setReadLatch (d : Dev) (req : Requester) (l : Option (Nat × Word)) : Dev :=
  { d with bus := { d.bus with rlatch := d.bus.rlatch.filter (·.1 != req) ++ (match l with | some x => [(req, x.1, x.2)] | none => []) } }

/-- Answers a read with a value. -/
def Dev.replyWord (d : Dev) (v : Nat) : Dev := d.emit (.reply (BitVec.ofNat 64 v))

/-- A 32-bit read at an offset (R10, R15, R16, R764). A read of MGPIO draws a free value for its inputs. -/
def Dev.busRead (d : Dev) (req : Requester) (off : Nat) : Dev :=
  if !d.reachesAt req off then d.emit .unsupported
  else if off % 4 ≠ 0 then (d.violation req (off / 4 * 4) true).replyWord 0
  else
    let none_ := d.setReadLatch req none
    match placeOf req off with
    | .disco a => none_.replyWord (leAt discoTable a 4)
    | .pba b fn x => none_.replyWord (((d.port b).fn fn).pbaWord x)
    | .msix b fn x => none_.replyWord (((d.port b).fn fn).msixWord x)
    | .ctl b x => none_.replyWord ((d.ctl b).word x)
    | .reserved => none_.replyWord 0
    | .reg r low =>
      let v := d.regView req r
      let d := d.chnTouched r
      let none_ := none_.chnTouched r
      let next : Dev := if r.desc.base = Reg.MBR_GPIO_IN_PINS.base then { none_ with freeCtr := d.freeCtr + 1 } else none_
      if low then (d.setReadLatch req (some (r.home, BitVec.ofNat 32 (v / 2 ^ 32)))).replyWord (v % 2 ^ 32)
      else if r.desc.width = 64 then
        match d.bus.rlatch.find? fun x => x.1 == req && x.2.1 == r.home with
        | some x => next.replyWord x.2.2.toNat
        | none => next.replyWord (v / 2 ^ 32)
      else next.replyWord v

/-! ### The rows -/

/-- REGISTER_WRITE (R18). -/
def Dev.registerWrite (d : Dev) (req : Requester) (off : Nat) (w : Word) : Dev := d.busWrite req off w

/-- LOW_WORD_WRITE (R6). -/
def Dev.lowWordWrite (d : Dev) (req : Requester) (off : Nat) (w : Word) : Dev := d.busWrite req off w

/-- HIGH_WORD_WRITE (R7). -/
def Dev.highWordWrite (d : Dev) (req : Requester) (off : Nat) (w : Word) : Dev := d.busWrite req off w

/-- UNALIGNED_ACCESS (R4, R538): an access that is no aligned 32-bit or 64-bit one counts once; a read of it returns zeros. -/
def Dev.unalignedAccess (d : Dev) (req : Requester) (off : Nat) (read : Bool) (len : Nat) : Dev :=
  if !d.reaches req then d.emit .unsupported
  else
    let d := d.violation req (off / 4 * 4) true
    if read then d.emit (.replyBytes (List.replicate len 0)) else d

/-- CLEAR_IGNORED_WRITES (R22, R767). -/
def Dev.clearIgnoredWrites (d : Dev) (req : Requester) (w : Word) : Dev := d.busWrite req Reg.GCS_IGNORED_WRITES_COUNT.base w

/-- CLEARING_COUNTER_WRITE (R12): `which` is 0 GCS_IGNORED_WRITES, 1 JNL_OCCUPANCY, 2 CWQ_DROPPED. -/
def Dev.clearingCounterWrite (d : Dev) (req : Requester) (which : Nat) (w : Word) : Dev :=
  d.busWrite req ([Reg.GCS_IGNORED_WRITES_COUNT.base, Reg.JNL_OCCUPANCY_PEAK.base, Reg.CWQ_DROPPED_COUNT.base].getD (which % 3) 0) w

/-- LOW_WORD_READ (R764). -/
def Dev.lowWordRead (d : Dev) (req : Requester) (off : Nat) : Dev := d.busRead req off

/-- HIGH_WORD_READ (R764). -/
def Dev.highWordRead (d : Dev) (req : Requester) (off : Nat) : Dev := d.busRead req off

end Sys2Proof.Machine
end

