-- ==== Sys2Proof/Machine/RegisterRows.lean ====
section
/-!
DEFINITION. Meanings of the register rows (chapters 0 and 19): each row applies its operation to the device.
-/
namespace Sys2Proof.Machine

/-- REGISTER_WRITE (R18): A write to a vendor register that has no row of its own is applied field by field, and refused
fields keep their values. -/
def execRegisterWrite (req : Requester) (off : Nat) (w : Word) (s : State) : Host.Outcome State Fault Refusal :=
  lift s fun d => d.registerWrite req off w

/-- LOW_WORD_WRITE (R6): A write to the low word of a 64-bit register loads the requester's holding latch and changes nothing
else. -/
def execLowWordWrite (req : Requester) (off : Nat) (w : Word) (s : State) : Host.Outcome State Fault Refusal :=
  lift s fun d => d.lowWordWrite req off w

/-- HIGH_WORD_WRITE (R7): A write to the high word of a 64-bit register commits the latched low word and the new high word as
one update. -/
def execHighWordWrite (req : Requester) (off : Nat) (w : Word) (s : State) : Host.Outcome State Fault Refusal :=
  lift s fun d => d.highWordWrite req off w

/-- UNALIGNED_ACCESS (R4): A register access that is neither an aligned 32-bit nor an aligned 64-bit access is a counted
silent violation. -/
def execUnalignedAccess (req : Requester) (off : Nat) (read : Bool) (len : Nat) (s : State) :
    Host.Outcome State Fault Refusal :=
  lift s fun d => d.unalignedAccess req off read len

/-- CLEAR_IGNORED_WRITES (R22): A write to GCS_IGNORED_WRITES from the primary port or the management core clears it to zero,
in register-fabric order. -/
def execClearIgnoredWrites (req : Requester) (w : Word) (s : State) : Host.Outcome State Fault Refusal :=
  lift s fun d => d.clearIgnoredWrites req w

/-- CLEARING_COUNTER_WRITE (R12): An accepted write to a clearing counter such as JNL_OCCUPANCY.PEAK or CWQ_DROPPED sets it
to 0. -/
def execClearingCounterWrite (req : Requester) (which : Nat) (w : Word) (s : State) : Host.Outcome State Fault Refusal :=
  lift s fun d => d.clearingCounterWrite req which w

/-- LOW_WORD_READ (R764): A 32-bit read of a 64-bit register's low word loads the requester's read latch with the matching
high word. -/
def execLowWordRead (req : Requester) (off : Nat) (s : State) : Host.Outcome State Fault Refusal :=
  lift s fun d => d.lowWordRead req off

/-- HIGH_WORD_READ (R764): A 32-bit read of a high word returns the read latch when the previous read was that register's low
word. -/
def execHighWordRead (req : Requester) (off : Nat) (s : State) : Host.Outcome State Fault Refusal :=
  lift s fun d => d.highWordRead req off

end Sys2Proof.Machine
end

