-- ==== Sys2Proof/Machine/ResetRows.lean ====
section
/-!
DEFINITION. Meanings of resets and option loading (chapter 16): each row applies its operation to the device.
-/
namespace Sys2Proof.Machine

/-- POWER_ON (R679): Supplies come up, and source 0 holds a COLD reset. -/
def execPowerOn (bkp : Bool) (s : State) : Host.Outcome State Fault Refusal :=
  lift s fun d => d.powerOn bkp

/-- SYS_RST_N_ASSERT (R689): SYS_RST_N is read low for 1 µs while the device does not drive it, which raises source 1. -/
def execSysRstNAssert (s : State) : Host.Outcome State Fault Refusal :=
  lift s fun d => d.sysRstAssert

/-- SYS_RST_STRETCH_EXPIRY (R689): 2.0 ms after a package reset starts, SYS_RST_N is released if no WARM or wider source is
active. -/
def execSysRstStretchExpiry (s : State) : Host.Outcome State Fault Refusal :=
  lift s fun d => d.stretchExpiry

/-- SOFTWARE_WARM (R679): RST_CTRL OP 1 with the key raises source 10. -/
def execSoftwareWarm (req : Requester) (keyw : Nat) (s : State) : Host.Outcome State Fault Refusal :=
  lift s fun d => d.softwareWarm req keyw

/-- SOFTWARE_COLD (R693): RST_CTRL OP 2 with the key raises source 11, and the journal is first sealed and dumped if it is
live. -/
def execSoftwareCold (req : Requester) (keyw : Nat) (s : State) : Host.Outcome State Fault Refusal :=
  lift s fun d => d.softwareCold req keyw

/-- RST_CLR_HIST (R700): RST_CTRL.CLR_HIST with the key clears the reset history. -/
def execRstClrHist (req : Requester) (keyw : Nat) (s : State) : Host.Outcome State Fault Refusal :=
  lift s fun d => d.rstClrHist req keyw

/-- PEER_PERST (R682): PB_PERST_N asserts in accord mode, which raises source 4. -/
def execPeerPerst (s : State) : Host.Outcome State Fault Refusal :=
  lift s fun d => d.peerPerst

/-- IOD_PLL_LOCK_LOSS (R679): The IOD PLL loses lock, which raises source 8. -/
def execIodPllLockLoss (s : State) : Host.Outcome State Fault Refusal :=
  lift s fun d => d.iodPllLockLoss

/-- MGMT_WATCHDOG (R734): The core watchdog expires after 2 s, which raises source 9. -/
def execMgmtWatchdog (s : State) : Host.Outcome State Fault Refusal :=
  lift s fun d => d.mgmtWatchdog

/-- CRITICAL_STATE_ERROR (R679): A double-bit or parity error in named critical state raises its reset source. -/
def execCriticalStateError (source : Nat) (target : Nat) (s : State) : Host.Outcome State Fault Refusal :=
  lift s fun d => d.criticalStateError source target

/-- DIE_PLL_LOCK_LOSS (R679): A die PLL unlocks or fails to lock within 20 µs, which raises source 19. -/
def execDiePllLockLoss (die : Nat) (s : State) : Host.Outcome State Fault Refusal :=
  lift s fun d => d.diePllLockLoss die

/-- SUPPLY_BROWNOUT (R774): A rail falls below its range, which raises source 7 within 1 µs. -/
def execSupplyBrownout (s : State) : Host.Outcome State Fault Refusal :=
  lift s fun d => d.supplyBrownout

/-- BLOCK_RESET_CMD (R688): A write to RST_BLOCK_CMD raises source 18 for the named block, or is refused. -/
def execBlockResetCmd (req : Requester) (level : Nat) (target : Nat) (s : State) : Host.Outcome State Fault Refusal :=
  lift s fun d => d.blockResetCmd req level target

/-- BLOCK_IDLE_REACHED (R684): A block asked to go idle becomes idle, and its reset follows. -/
def execBlockIdleReached (level : Nat) (target : Nat) (s : State) : Host.Outcome State Fault Refusal :=
  lift s fun d => d.blockIdleReached level target

/-- BLOCK_IDLE_TIMEOUT (R684): The idle request timeout expires, and a forced reset follows. -/
def execBlockIdleTimeout (level : Nat) (target : Nat) (s : State) : Host.Outcome State Fault Refusal :=
  lift s fun d => d.blockIdleTimeout level target

/-- BLOCK_RESET_EXIT (R687): A block leaves reset when no active source reaches it. -/
def execBlockResetExit (level : Nat) (target : Nat) (trained : Bool) (s : State) : Host.Outcome State Fault Refusal :=
  lift s fun d => ((d.blockResetExit level target trained).rowsSettled d).settleAll

/-- PACKAGE_RESET_EXIT (R698): No active source holds the package, and the exit proceeds level by level. -/
def execPackageResetExit (failed : List Nat) (linkA : Option (Nat × Nat × Bool)) (linkB : Option (Nat × Nat × Bool)) (bkpClock : Bool) (s : State) :
    Host.Outcome State Fault Refusal :=
  lift s fun d => d.packageResetExit failed linkA linkB bkpClock

/-- OPTION_LOAD_DONE (R703): The option loader finishes reading copies A and B and sets OPT_VALID. -/
def execOptionLoadDone (okA : Bool) (okB : Bool) (s : State) : Host.Outcome State Fault Refusal :=
  lift s fun d => d.optionLoadDone okA okB

end Sys2Proof.Machine
end

