-- ==== Sys2Proof/Machine/VaultRows.lean ====
section
/-!
DEFINITION. Meanings of power loss and the vault (chapter 15): each row applies its operation to the device.
-/
namespace Sys2Proof.Machine

/-- PWR_FAIL_ASSERT (R653): PWR_FAIL_N asserts, the ports and journal stop, and the journal is sealed. -/
def execPwrFailAssert (s : State) : Host.Outcome State Fault Refusal :=
  lift s fun d => d.pwrFailAssert

/-- DUMP (R657): After the seal the device sheds domains and writes the protected area to a vault generation. -/
def execDump (ms : Nat) (failed : Nat) (s : State) : Host.Outcome State Fault Refusal :=
  lift s fun d => d.dump ms failed

/-- IN_PLACE_RESUME (R671): PWR_FAIL_N has stayed high for RESUME_MS after the dump, so the package resumes in place. -/
def execInPlaceResume (s : State) : Host.Outcome State Fault Refusal :=
  lift s fun d => d.inPlaceResume.settleAll

/-- VLT_DISCARD_DUMP (R668): VLT_CTRL.DISCARD_DUMP consumes the held generation while P_MISMATCH is set. -/
def execVltDiscardDump (req : Requester) (s : State) : Host.Outcome State Fault Refusal :=
  lift s fun d => d.vltDiscardDump req

/-- VLT_CLR_FLAGS (R664): VLT_CTRL.CLR_FLAGS clears LAST_DUMP_FAILED and HOLDUP_LOW. -/
def execVltClrFlags (req : Requester) (s : State) : Host.Outcome State Fault Refusal :=
  lift s fun d => d.vltClrFlags req

/-- VAULT_NAND_IDLE (R716): No vault access has been pending for 10 ms, and PD_VLTN powers off. -/
def execVaultNandIdle (s : State) : Host.Outcome State Fault Refusal :=
  lift s fun d => d.vaultNandIdle

/-- PWR_FAIL_DEASSERT (R671): PWR_FAIL_N returns high, which starts the RESUME_MS wait once the dump has completed. -/
def execPwrFailDeassert (s : State) : Host.Outcome State Fault Refusal :=
  lift s fun d => d.pwrFailDeassert

end Sys2Proof.Machine
end

