-- ==== Sys2Proof/Machine/Dispatch.lean ====
section
/-!
DEFINITION. The dispatch: one arm per command, each one call of its meaning.
-/
namespace Sys2Proof.Machine

def exec (i : Instr) (s : State) : Host.Outcome State Fault Refusal :=
  match i with
  | .registerWrite req off w => Sys2Proof.Machine.execRegisterWrite req off w s
  | .lowWordWrite req off w => Sys2Proof.Machine.execLowWordWrite req off w s
  | .highWordWrite req off w => Sys2Proof.Machine.execHighWordWrite req off w s
  | .unalignedAccess req off read len => Sys2Proof.Machine.execUnalignedAccess req off read len s
  | .clearIgnoredWrites req w => Sys2Proof.Machine.execClearIgnoredWrites req w s
  | .clearingCounterWrite req which w => Sys2Proof.Machine.execClearingCounterWrite req which w s
  | .lowWordRead req off => Sys2Proof.Machine.execLowWordRead req off s
  | .highWordRead req off => Sys2Proof.Machine.execHighWordRead req off s
  | .armLoad req internal => Sys2Proof.Machine.execArmLoad req internal s
  | .armLoadCopyDone ok img => Sys2Proof.Machine.execArmLoadCopyDone ok img s
  | .armCommit req internal => Sys2Proof.Machine.execArmCommit req internal s
  | .armPlinthWritten acks vaultOk => Sys2Proof.Machine.execArmPlinthWritten acks vaultOk s
  | .armCommitPoint => Sys2Proof.Machine.execArmCommitPoint s
  | .armDrainEnd => Sys2Proof.Machine.execArmDrainEnd s
  | .armDiscard req internal => Sys2Proof.Machine.execArmDiscard req internal s
  | .ckptIntervalExpiry => Sys2Proof.Machine.execCkptIntervalExpiry s
  | .ckptMetadataTrigger => Sys2Proof.Machine.execCkptMetadataTrigger s
  | .ckptNow req => Sys2Proof.Machine.execCkptNow req s
  | .excCheckpointDurable acks => Sys2Proof.Machine.execExcCheckpointDurable acks s
  | .journalCheckpointDurable acks => Sys2Proof.Machine.execJournalCheckpointDurable acks s
  | .bufInitDone => Sys2Proof.Machine.execBufInitDone s
  | .bufUncorrectableLine addr source inner err use how => Sys2Proof.Machine.execBufUncorrectableLine addr source inner err use how s
  | .journalLineRepair seq ok => Sys2Proof.Machine.execJournalLineRepair seq ok s
  | .patrolScrub inner err use how => Sys2Proof.Machine.execPatrolScrub inner err use how s
  | .bufClrCounts req => Sys2Proof.Machine.execBufClrCounts req s
  | .write h data md => Sys2Proof.Machine.execWrite h data md s
  | .groupAdmit => Sys2Proof.Machine.execGroupAdmit s
  | .localCopyInPlace first => Sys2Proof.Machine.execLocalCopyInPlace first s
  | .mirrorAck seq => Sys2Proof.Machine.execMirrorAck seq s
  | .drydownIdleExpiry => Sys2Proof.Machine.execDrydownIdleExpiry s
  | .destageSettleExpiry pool stripe => Sys2Proof.Machine.execDestageSettleExpiry pool stripe s
  | .destageStart => Sys2Proof.Machine.execDestageStart s
  | .stripeLockGrant pool stripe => Sys2Proof.Machine.execStripeLockGrant pool stripe s
  | .memberReadCompletion id ok blocks tags tagBlocks => Sys2Proof.Machine.execMemberReadCompletion id ok blocks tags tagBlocks s
  | .memberWriteCompletion id ok tagBlocks => Sys2Proof.Machine.execMemberWriteCompletion id ok tagBlocks s
  | .jnlBarrier req => Sys2Proof.Machine.execJnlBarrier req s
  | .replay copies bad => Sys2Proof.Machine.execReplay copies bad s
  | .read h => Sys2Proof.Machine.execRead h s
  | .suspectReadSlow id => Sys2Proof.Machine.execSuspectReadSlow id s
  | .decodeStagingGrant op => Sys2Proof.Machine.execDecodeStagingGrant op s
  | .memberFail req m => Sys2Proof.Machine.execMemberFail req m s
  | .memberReadmit req m => Sys2Proof.Machine.execMemberReadmit req m s
  | .memberRetire req m => Sys2Proof.Machine.execMemberRetire req m s
  | .memberClear req m => Sys2Proof.Machine.execMemberClear req m s
  | .memberQuiet m => Sys2Proof.Machine.execMemberQuiet m s
  | .memberAbsentTimeout m => Sys2Proof.Machine.execMemberAbsentTimeout m s
  | .discoverTimeout m => Sys2Proof.Machine.execDiscoverTimeout m s
  | .sillageInterval => Sys2Proof.Machine.execSillageInterval s
  | .sillageStart => Sys2Proof.Machine.execSillageStart s
  | .excBatchExpiry => Sys2Proof.Machine.execExcBatchExpiry s
  | .scrubPeriodExpiry => Sys2Proof.Machine.execScrubPeriodExpiry s
  | .scrubNow req => Sys2Proof.Machine.execScrubNow req s
  | .itgClrCounts req => Sys2Proof.Machine.execItgClrCounts req s
  | .keyGeneration => Sys2Proof.Machine.execKeyGeneration s
  | .keySwitch nsid => Sys2Proof.Machine.execKeySwitch nsid s
  | .keySlotErased slot => Sys2Proof.Machine.execKeySlotErased slot s
  | .itemDispatch op errs => Sys2Proof.Machine.execItemDispatch op errs s
  | .unitFault unit mismatch => Sys2Proof.Machine.execUnitFault unit mismatch s
  | .unitRetire req unit => Sys2Proof.Machine.execUnitRetire req unit s
  | .ucieDeliveryFailure die => Sys2Proof.Machine.execUcieDeliveryFailure die s
  | .elbFillData region key good how => Sys2Proof.Machine.execElbFillData region key good how s
  | .snoop region key => Sys2Proof.Machine.execSnoop region key s
  | .elbTagParityError region => Sys2Proof.Machine.execElbTagParityError region s
  | .clusterHoldExpiry cluster => Sys2Proof.Machine.execClusterHoldExpiry cluster s
  | .regionHoldExpiry region => Sys2Proof.Machine.execRegionHoldExpiry region s
  | .regionPowerUpDone region => Sys2Proof.Machine.execRegionPowerUpDone region s
  | .diePllLock die => Sys2Proof.Machine.execDiePllLock die s
  | .fabWatchWrite req mask => Sys2Proof.Machine.execFabWatchWrite req mask s
  | .noSleepWrite req => Sys2Proof.Machine.execNoSleepWrite req s
  | .fabClrCounts req => Sys2Proof.Machine.execFabClrCounts req s
  | .move ch w => Sys2Proof.Machine.execMove ch w s
  | .mac ch w table => Sys2Proof.Machine.execMac ch w table s
  | .loopBegin ch w => Sys2Proof.Machine.execLoopBegin ch w s
  | .loopNext ch w => Sys2Proof.Machine.execLoopNext ch w s
  | .waitSem ch w => Sys2Proof.Machine.execWaitSem ch w s
  | .waitLevel ch w => Sys2Proof.Machine.execWaitLevel ch w s
  | .waitTimer ch w => Sys2Proof.Machine.execWaitTimer ch w s
  | .waitEvent ch w => Sys2Proof.Machine.execWaitEvent ch w s
  | .waitTimerExpiry ch => Sys2Proof.Machine.execWaitTimerExpiry ch s
  | .waitTimeout ch => Sys2Proof.Machine.execWaitTimeout ch s
  | .signalSem ch w => Sys2Proof.Machine.execSignalSem ch w s
  | .signalIrq ch w => Sys2Proof.Machine.execSignalIrq ch w s
  | .signalComplete ch w => Sys2Proof.Machine.execSignalComplete ch w s
  | .nop ch w => Sys2Proof.Machine.execNop ch w s
  | .end_ ch w => Sys2Proof.Machine.execEnd ch w s
  | .transferUnitDone ch => Sys2Proof.Machine.execTransferUnitDone ch s
  | .channelWatchdog ch => Sys2Proof.Machine.execChannelWatchdog ch s
  | .chnAbort req ch => Sys2Proof.Machine.execChnAbort req ch s
  | .chnStart req ch => Sys2Proof.Machine.execChnStart req ch s
  | .chnClrLevel req ch => Sys2Proof.Machine.execChnClrLevel req ch s
  | .chnSemWrite req ch sem value => Sys2Proof.Machine.execChnSemWrite req ch sem value s
  | .sqDoorbell req q tail => Sys2Proof.Machine.execSqDoorbell req q tail s
  | .cqDoorbell req q head => Sys2Proof.Machine.execCqDoorbell req q head s
  | .sqEntryFetched q res cause => Sys2Proof.Machine.execSqEntryFetched q res cause s
  | .entryStart => Sys2Proof.Machine.execEntryStart s
  | .headWritebackTimer q => Sys2Proof.Machine.execHeadWritebackTimer q s
  | .sqAbort req q cid => Sys2Proof.Machine.execSqAbort req q cid s
  | .sqEnable req q => Sys2Proof.Machine.execSqEnable req q s
  | .sqDisable req q => Sys2Proof.Machine.execSqDisable req q s
  | .resetIdx req q => Sys2Proof.Machine.execResetIdx req q s
  | .cqEnable req q => Sys2Proof.Machine.execCqEnable req q s
  | .cqDisable req q => Sys2Proof.Machine.execCqDisable req q s
  | .cqModTimer q => Sys2Proof.Machine.execCqModTimer q s
  | .createIoSq portB cid qid size cqid prio => Sys2Proof.Machine.execCreateIoSq portB cid qid size cqid prio s
  | .createIoCq portB cid qid size vec ien => Sys2Proof.Machine.execCreateIoCq portB cid qid size vec ien s
  | .deleteIoSq portB cid qid => Sys2Proof.Machine.execDeleteIoSq portB cid qid s
  | .deleteIoCq portB cid qid => Sys2Proof.Machine.execDeleteIoCq portB cid qid s
  | .getLogPage portB cid lid nsid off len rae => Sys2Proof.Machine.execGetLogPage portB cid lid nsid off len rae s
  | .identify portB cid cns nsid cntid => Sys2Proof.Machine.execIdentify portB cid cns nsid cntid s
  | .abort portB cid sq target => Sys2Proof.Machine.execAbort portB cid sq target s
  | .setFeatures portB cid fid nsid cdw11 save table => Sys2Proof.Machine.execSetFeatures portB cid fid nsid cdw11 save table s
  | .getFeatures portB cid fid nsid cdw11 sel => Sys2Proof.Machine.execGetFeatures portB cid fid nsid cdw11 sel s
  | .asyncEventRequest portB cid => Sys2Proof.Machine.execAsyncEventRequest portB cid s
  | .firmwareImageDownload portB cid off bytes => Sys2Proof.Machine.execFirmwareImageDownload portB cid off bytes s
  | .firmwareCommit portB cid slot action => Sys2Proof.Machine.execFirmwareCommit portB cid slot action s
  | .fwActivation => Sys2Proof.Machine.execFwActivation s
  | .formatNvm portB cid nsid lbaf pi ses piFirst => Sys2Proof.Machine.execFormatNvm portB cid nsid lbaf pi ses piFirst s
  | .sanitize portB cid action passes pattern ause invert noDealloc => Sys2Proof.Machine.execSanitize portB cid action passes pattern ause invert noDealloc s
  | .keepAlive portB cid => Sys2Proof.Machine.execKeepAlive portB cid s
  | .flush h => Sys2Proof.Machine.execFlush h s
  | .writeZeroes h => Sys2Proof.Machine.execWriteZeroes h s
  | .datasetManagement h dealloc ranges => Sys2Proof.Machine.execDatasetManagement h dealloc ranges s
  | .verify h => Sys2Proof.Machine.execVerify h s
  | .namespaceManagement portB cid => Sys2Proof.Machine.execNamespaceManagement portB cid s
  | .namespaceAttachment portB cid => Sys2Proof.Machine.execNamespaceAttachment portB cid s
  | .invalidOpcode portB sq cid => Sys2Proof.Machine.execInvalidOpcode portB sq cid s
  | .nvmeSqDoorbell portB sq tail => Sys2Proof.Machine.execNvmeSqDoorbell portB sq tail s
  | .nvmeCqDoorbell portB cq head => Sys2Proof.Machine.execNvmeCqDoorbell portB cq head s
  | .ccEnable portB ams asqs acqs => Sys2Proof.Machine.execCcEnable portB ams asqs acqs s
  | .readyTimeout portB => Sys2Proof.Machine.execReadyTimeout portB s
  | .ccDisable portB => Sys2Proof.Machine.execCcDisable portB s
  | .shutdownNormal portB => Sys2Proof.Machine.execShutdownNormal portB s
  | .shutdownAbrupt portB => Sys2Proof.Machine.execShutdownAbrupt portB s
  | .nvmSubsystemReset => Sys2Proof.Machine.execNvmSubsystemReset s
  | .apstTransition portB => Sys2Proof.Machine.execApstTransition portB s
  | .configWrite portB fn off v enable => Sys2Proof.Machine.execConfigWrite portB fn off v enable s
  | .flr portB fn => Sys2Proof.Machine.execFlr portB fn s
  | .busMasterDisable portB fn => Sys2Proof.Machine.execBusMasterDisable portB fn s
  | .busMasterEnable portB fn => Sys2Proof.Machine.execBusMasterEnable portB fn s
  | .dstateChange portB fn d3hot => Sys2Proof.Machine.execDstateChange portB fn d3hot s
  | .hostPortReset portB perst => Sys2Proof.Machine.execHostPortReset portB perst s
  | .hostCompletion portB tag res => Sys2Proof.Machine.execHostCompletion portB tag res s
  | .completionTimeout portB tag => Sys2Proof.Machine.execCompletionTimeout portB tag s
  | .tagQuarantineExpiry portB tag => Sys2Proof.Machine.execTagQuarantineExpiry portB tag s
  | .bar4Read portB off len => Sys2Proof.Machine.execBar4Read portB off len s
  | .bar4Write portB off bytes poisoned => Sys2Proof.Machine.execBar4Write portB off bytes poisoned s
  | .expansionRomRead portB off len => Sys2Proof.Machine.execExpansionRomRead portB off len s
  | .xltClrCounts req => Sys2Proof.Machine.execXltClrCounts req s
  | .portPllLockLoss clock => Sys2Proof.Machine.execPortPllLockLoss clock s
  | .memberCommandTimeout id => Sys2Proof.Machine.execMemberCommandTimeout id s
  | .memberAbortTimeout id => Sys2Proof.Machine.execMemberAbortTimeout id s
  | .memberCtrlResetDone m => Sys2Proof.Machine.execMemberCtrlResetDone m s
  | .memberCtrlResetTimeout m => Sys2Proof.Machine.execMemberCtrlResetTimeout m s
  | .memberLinkTimeout m => Sys2Proof.Machine.execMemberLinkTimeout m s
  | .memberSurpriseRemoval link ports => Sys2Proof.Machine.execMemberSurpriseRemoval link ports s
  | .memberLinkDown link ports => Sys2Proof.Machine.execMemberLinkDown link ports s
  | .memberHotplugArrival link ports up => Sys2Proof.Machine.execMemberHotplugArrival link ports up s
  | .memberAerError link ports bus devfn fatal m => Sys2Proof.Machine.execMemberAerError link ports bus devfn fatal m s
  | .memberAsyncEvent m kind => Sys2Proof.Machine.execMemberAsyncEvent m kind s
  | .memberStrayRequest => Sys2Proof.Machine.execMemberStrayRequest s
  | .mbrRescan req => Sys2Proof.Machine.execMbrRescan req s
  | .mbrDiscDump req internal ok => Sys2Proof.Machine.execMbrDiscDump req internal ok s
  | .mbrClrCounts req => Sys2Proof.Machine.execMbrClrCounts req s
  | .mbrFormat req ordinal meta16 => Sys2Proof.Machine.execMbrFormat req ordinal meta16 s
  | .slotPowerOn req member target => Sys2Proof.Machine.execSlotPowerOn req member target s
  | .slotPowerOff req member target => Sys2Proof.Machine.execSlotPowerOff req member target s
  | .slotPowerBatch => Sys2Proof.Machine.execSlotPowerBatch s
  | .mperstRelease => Sys2Proof.Machine.execMperstRelease s
  | .heartbeatSend => Sys2Proof.Machine.execHeartbeatSend s
  | .heartbeatReceived view => Sys2Proof.Machine.execHeartbeatReceived view s
  | .partnerLoss => Sys2Proof.Machine.execPartnerLoss s
  | .peerLinkDown pb => Sys2Proof.Machine.execPeerLinkDown pb s
  | .fenceHoldoffExpiry => Sys2Proof.Machine.execFenceHoldoffExpiry s
  | .fenceInAssert => Sys2Proof.Machine.execFenceInAssert s
  | .fenceInRelease => Sys2Proof.Machine.execFenceInRelease s
  | .fenceInPlace => Sys2Proof.Machine.execFenceInPlace s
  | .mirrorCommitDoorbell first last tail crcOk recs => Sys2Proof.Machine.execMirrorCommitDoorbell first last tail crcOk recs s
  | .peerWindowRequest write addr len => Sys2Proof.Machine.execPeerWindowRequest write addr len s
  | .join msg => Sys2Proof.Machine.execJoin msg s
  | .keyx verified certLen => Sys2Proof.Machine.execKeyx verified certLen s
  | .key op slot nsid keyNo => Sys2Proof.Machine.execKey op slot nsid keyNo s
  | .keyDone op result slot nsid => Sys2Proof.Machine.execKeyDone op result slot nsid s
  | .memberEvent m code => Sys2Proof.Machine.execMemberEvent m code s
  | .ownership pools head => Sys2Proof.Machine.execOwnership pools head s
  | .ownAck pools => Sys2Proof.Machine.execOwnAck pools s
  | .quiet pools => Sys2Proof.Machine.execQuiet pools s
  | .adoptDone pools => Sys2Proof.Machine.execAdoptDone pools s
  | .armStage epoch crc img => Sys2Proof.Machine.execArmStage epoch crc img s
  | .armReady epoch code draining => Sys2Proof.Machine.execArmReady epoch code draining s
  | .armSwitch epoch => Sys2Proof.Machine.execArmSwitch epoch s
  | .ckptDone seq => Sys2Proof.Machine.execCkptDone seq s
  | .mirrorBad seq => Sys2Proof.Machine.execMirrorBad seq s
  | .resyncDone m => Sys2Proof.Machine.execResyncDone m s
  | .nsOp op nsid cdw10 cdw11 => Sys2Proof.Machine.execNsOp op nsid cdw10 cdw11 s
  | .nsDone op status => Sys2Proof.Machine.execNsDone op status s
  | .fillDone pool pos group => Sys2Proof.Machine.execFillDone pool pos group s
  | .acdFence req => Sys2Proof.Machine.execAcdFence req s
  | .acdRelease req => Sys2Proof.Machine.execAcdRelease req s
  | .acdPeerReset req => Sys2Proof.Machine.execAcdPeerReset req s
  | .acdClrCounts req => Sys2Proof.Machine.execAcdClrCounts req s
  | .acdOwnCmd req mask => Sys2Proof.Machine.execAcdOwnCmd req mask s
  | .joinWaitExpiry => Sys2Proof.Machine.execJoinWaitExpiry s
  | .drainMsExpiry => Sys2Proof.Machine.execDrainMsExpiry s
  | .dumpFailedSilenceExpiry => Sys2Proof.Machine.execDumpFailedSilenceExpiry s
  | .pwrFailAssert => Sys2Proof.Machine.execPwrFailAssert s
  | .dump ms failed => Sys2Proof.Machine.execDump ms failed s
  | .inPlaceResume => Sys2Proof.Machine.execInPlaceResume s
  | .vltDiscardDump req => Sys2Proof.Machine.execVltDiscardDump req s
  | .vltClrFlags req => Sys2Proof.Machine.execVltClrFlags req s
  | .vaultNandIdle => Sys2Proof.Machine.execVaultNandIdle s
  | .powerOn bkp => Sys2Proof.Machine.execPowerOn bkp s
  | .sysRstNAssert => Sys2Proof.Machine.execSysRstNAssert s
  | .sysRstStretchExpiry => Sys2Proof.Machine.execSysRstStretchExpiry s
  | .softwareWarm req keyw => Sys2Proof.Machine.execSoftwareWarm req keyw s
  | .softwareCold req keyw => Sys2Proof.Machine.execSoftwareCold req keyw s
  | .rstClrHist req keyw => Sys2Proof.Machine.execRstClrHist req keyw s
  | .peerPerst => Sys2Proof.Machine.execPeerPerst s
  | .iodPllLockLoss => Sys2Proof.Machine.execIodPllLockLoss s
  | .mgmtWatchdog => Sys2Proof.Machine.execMgmtWatchdog s
  | .criticalStateError source target => Sys2Proof.Machine.execCriticalStateError source target s
  | .diePllLockLoss die => Sys2Proof.Machine.execDiePllLockLoss die s
  | .supplyBrownout => Sys2Proof.Machine.execSupplyBrownout s
  | .blockResetCmd req level target => Sys2Proof.Machine.execBlockResetCmd req level target s
  | .blockIdleReached level target => Sys2Proof.Machine.execBlockIdleReached level target s
  | .blockIdleTimeout level target => Sys2Proof.Machine.execBlockIdleTimeout level target s
  | .blockResetExit level target trained => Sys2Proof.Machine.execBlockResetExit level target trained s
  | .packageResetExit failed linkA linkB bkpClock => Sys2Proof.Machine.execPackageResetExit failed linkA linkB bkpClock s
  | .optionLoadDone okA okB => Sys2Proof.Machine.execOptionLoadDone okA okB s
  | .thermalSample readings => Sys2Proof.Machine.execThermalSample readings s
  | .railSample readings => Sys2Proof.Machine.execRailSample readings s
  | .vbatLow mv => Sys2Proof.Machine.execVbatLow mv s
  | .powerCapAverage mw => Sys2Proof.Machine.execPowerCapAverage mw s
  | .avsTimeout => Sys2Proof.Machine.execAvsTimeout s
  | .vcdLowerTimer => Sys2Proof.Machine.execVcdLowerTimer s
  | .cpmClrCounts req => Sys2Proof.Machine.execCpmClrCounts req s
  | .mbxNop => Sys2Proof.Machine.execMbxNop s
  | .mbxGetInfo => Sys2Proof.Machine.execMbxGetInfo s
  | .mbxOptRead => Sys2Proof.Machine.execMbxOptRead s
  | .mbxOptWrite vaultOk => Sys2Proof.Machine.execMbxOptWrite vaultOk s
  | .mbxLogRead => Sys2Proof.Machine.execMbxLogRead s
  | .mbxFwSelect => Sys2Proof.Machine.execMbxFwSelect s
  | .pldmRequestUpdate size => Sys2Proof.Machine.execPldmRequestUpdate size s
  | .pldmFirmwareData bytes => Sys2Proof.Machine.execPldmFirmwareData bytes s
  | .pldmActivateFirmware selfContained => Sys2Proof.Machine.execPldmActivateFirmware selfContained s
  | .pldmBaseDiscovery cmd arg => Sys2Proof.Machine.execPldmBaseDiscovery cmd arg s
  | .setEndpointId eid => Sys2Proof.Machine.execSetEndpointId eid s
  | .getEndpointId => Sys2Proof.Machine.execGetEndpointId s
  | .getMctpVersionSupport typ => Sys2Proof.Machine.execGetMctpVersionSupport typ s
  | .getMessageTypeSupport => Sys2Proof.Machine.execGetMessageTypeSupport s
  | .getEndpointUuid => Sys2Proof.Machine.execGetEndpointUuid s
  | .readNvmeMiDataStructure typ cntid => Sys2Proof.Machine.execReadNvmeMiDataStructure typ cntid s
  | .subsystemHealthStatusPoll clear => Sys2Proof.Machine.execSubsystemHealthStatusPoll clear s
  | .controllerHealthStatusPoll first => Sys2Proof.Machine.execControllerHealthStatusPoll first s
  | .configurationSet id value => Sys2Proof.Machine.execConfigurationSet id value s
  | .configurationGet id => Sys2Proof.Machine.execConfigurationGet id s
  | .vpdRead off len => Sys2Proof.Machine.execVpdRead off len s
  | .vpdWrite => Sys2Proof.Machine.execVpdWrite s
  | .miReset => Sys2Proof.Machine.execMiReset s
  | .miTunnelledAdmin tag cmd => Sys2Proof.Machine.execMiTunnelledAdmin tag cmd s
  | .i3cModeEntry => Sys2Proof.Machine.execI3cModeEntry s
  | .logFlush req => Sys2Proof.Machine.execLogFlush req s
  | .logPageTimeout => Sys2Proof.Machine.execLogPageTimeout s
  | .snsClrPeak req => Sys2Proof.Machine.execSnsClrPeak req s
  | .vbatRestored mv => Sys2Proof.Machine.execVbatRestored mv s
  | .peerLinkUp pb => Sys2Proof.Machine.execPeerLinkUp pb s
  | .hostPerstRelease portB link => Sys2Proof.Machine.execHostPerstRelease portB link s
  | .memberAdminCompletion res => Sys2Proof.Machine.execMemberAdminCompletion res s
  | .messageRingAck ack => Sys2Proof.Machine.execMessageRingAck ack s
  | .pwrFailDeassert => Sys2Proof.Machine.execPwrFailDeassert s

end Sys2Proof.Machine
end

