-- ==== Sys2Proof/Machine/Step.lean ====
section
/-!
DEFINITION. The step: the command at the front of the queue runs with the rest of the queue left; on an empty queue a microsecond passes (log
entry 1). And the placing of a command that a table word spells.
-/
namespace Sys2Proof.Machine

/-- A microsecond passes with nothing commanded. -/
def State.tick (s : State) : State := { s with dev := { s.dev with now := s.dev.now + 1 } }

/-- One step: the oldest waiting command, or a microsecond of idling. -/
def step (s : State) : Host.Outcome State Fault Refusal :=
  match s.pending with
  | [] => .next s.tick
  | c :: rest => exec c { s with pending := rest }

/-- The state with the command that a table word spells at the front of the queue; unchanged where it spells none. -/
def State.withFetchWord (s : State) (nbits w : Nat) : State :=
  match Sys2Proof.decodeTableWord nbits w with
  | some c => { s with pending := c :: s.pending }
  | none => s

end Sys2Proof.Machine
end

