-- ==== Sys2Proof/WellFormed.lean ====
section
/-!
DEFINITION. Which operands a command can have: the ranges that the spec gives register offsets, queues, channels, members, fabric blocks,
namespaces and messages, as named checks. A command whose operand fails one spells nothing that the outside of the block can send.
-/
namespace Sys2Proof

/-- Why a command is not well formed. -/
inductive IllFormed
  /-- a register offset outside the requester's space or not a multiple of 4 (R3, R762) -/
  | offset
  /-- an access of the unaligned row that is an aligned 32-bit or 64-bit one (R4) -/
  | aligned
  /-- no clearing counter (R12) -/
  | counter
  /-- a length that the form cannot have -/
  | length
  /-- more plinth copies than a plinth has (R103) -/
  | copies
  /-- an address outside buffer memory -/
  | address
  /-- a source code that its table does not list -/
  | source
  | sequence
  /-- the fields of a host I/O command -/
  | hostCommand
  /-- blocks that do not match the command's length -/
  | blocks
  | metadata
  | ranges
  /-- a pool or stripe out of range (table 3-2) -/
  | stripe
  | nsid
  | keySlot
  /-- blocks of the codec fabric: 2 dies, 8 regions, 32 clusters, 256 units -/
  | die
  | region
  | cluster
  | unit
  | mask
  /-- one of 512 channels, and its 4 semaphores (R415) -/
  | channel
  | semaphore
  /-- codec work queues: 1,024 submission and 256 completion queues -/
  | sq
  | cq
  | identifier
  /-- an NVMe queue identifier or size -/
  | queue
  | priority
  | vector
  | page
  | feature
  /-- a field wider than its place in the command -/
  | word
  | function
  | tag
  | clock
  | link
  | downstream
  | member
  | ordinal
  | slot
  | pools
  /-- the level and target of a block reset (table 16-2) -/
  | block
  | readings
deriving DecidableEq, Repr

open Machine

/-- Whether an offset is a 32-bit word of a requester's register space: BAR2 (32 MiB), the management core's two ranges of it (R762), or the
space that stands for BAR0 of PF0 (log entry 60). -/
def regAt (req : Requester) (off : Nat) : Bool :=
  decide (off % 4 = 0) &&
    (match req with
     | .mgmt => decide (off < 0x4000000)
     | _ => decide (off < 0x2000000 ∨ (2 ^ 32 ≤ off ∧ off < 2 ^ 32 + 0x10000)))

/-- Whether an access is no aligned 4-byte or 8-byte one (R4). -/
def oddAccess (off len : Nat) : Bool := decide (0 < len) && !(decide (len = 4 ∧ off % 4 = 0) || decide (len = 8 ∧ off % 8 = 0))

/-- A pool of 64 and a stripe of 2^40. -/
def stripeOk (pool stripe : Nat) : Bool := decide (pool < 64 ∧ stripe < 2 ^ 40)

/-- A 32-bit namespace identifier. -/
def nsOk (nsid : Nat) : Bool := decide (nsid < 2 ^ 32)

/-- The fields of a host I/O command (NVM command set): 1 to 65,536 blocks from a 64-bit LBA. -/
def ioOk (h : HostIo) : Bool :=
  decide (h.sq < 2 ^ 16 ∧ h.cid < 2 ^ 16 ∧ h.nsid < 2 ^ 32 ∧ h.slba < 2 ^ 64 ∧ 1 ≤ h.nlb ∧ h.nlb ≤ 2 ^ 16 ∧ h.prchk < 8)

/-- One of 512 channels. -/
def chanOk (ch : Nat) : Bool := decide (ch < 512)

/-- One of 2,048 members. -/
def memOk (m : Nat) : Bool := decide (m < 2048)

/-- An NVMe queue identifier, and a doorbell value or size. -/
def queueOk (id n : Nat) : Bool := decide (id < 2 ^ 16 ∧ n ≤ 2 ^ 16)

/-- A fetched entry has 64 bytes; a failed fetch has one of four causes (R448). -/
def entryOk (res : Option (List Byte)) (cause : Nat) : Bool :=
  match res with
  | some bs => decide (bs.length = 64)
  | none => decide (cause < 4)

/-- Downstream ports to a slot: 5-bit port numbers, at most four switch levels (R573). -/
def portsOk (ports : List Nat) : Bool := decide (ports.length ≤ 4) && ports.all fun p => decide (p < 256)

/-- A slot is a direct link or a member. -/
def slotOk (member : Bool) (target : Nat) : Bool := if member then memOk target else decide (target < 48)

/-- The target of a block reset: UNIT, CLUSTER, REGION or DIE. -/
def targetOk (level target : Nat) : Bool := decide (level < 4 ∧ target < [256, 32, 8, 2].getD level 0)

/-- The checks of a command. -/
def Instr.checks : Instr → List (Bool × IllFormed)
  | .registerWrite req off _ => [(regAt req off, .offset)]
  | .lowWordWrite req off _ => [(regAt req off, .offset)]
  | .highWordWrite req off _ => [(regAt req off, .offset)]
  | .unalignedAccess _ off _ len => [(oddAccess off len, .aligned)]
  | .clearIgnoredWrites _ _ => []
  | .clearingCounterWrite _ which _ => [(decide (which < 3), .counter)]
  | .lowWordRead req off => [(regAt req off, .offset)]
  | .highWordRead req off => [(regAt req off, .offset)]
  | .armLoad _ _ => []
  | .armLoadCopyDone _ img => [(decide (img.length ≤ 2 ^ 26), .length)]
  | .armCommit _ _ => []
  | .armPlinthWritten acks _ => [(decide (acks ≤ 6), .copies)]
  | .armCommitPoint => []
  | .armDrainEnd => []
  | .armDiscard _ _ => []
  | .ckptIntervalExpiry => []
  | .ckptMetadataTrigger => []
  | .ckptNow _ => []
  | .excCheckpointDurable acks => [(decide (acks ≤ 6), .copies)]
  | .journalCheckpointDurable acks => [(decide (acks ≤ 6), .copies)]
  | .bufInitDone => []
  | .bufUncorrectableLine addr source _ err _ _ =>
    [(decide (addr < 72 * 2 ^ 30), .address), (decide (source < 4), .source), (decide (err.length = 72), .length)]
  | .journalLineRepair seq _ => [(decide (seq < 2 ^ 64), .sequence)]
  | .patrolScrub _ err _ _ => [(decide (err.length = 72), .length)]
  | .bufClrCounts _ => []
  | .write h data md => [(ioOk h, .hostCommand), (decide (data.length = h.nlb), .blocks), (decide (md.length = 0 ∨ md.length = h.nlb), .metadata)]
  | .groupAdmit => []
  | .localCopyInPlace first => [(decide (first < 2 ^ 64), .sequence)]
  | .mirrorAck seq => [(decide (seq < 2 ^ 64), .sequence)]
  | .drydownIdleExpiry => []
  | .destageSettleExpiry pool stripe => [(stripeOk pool stripe, .stripe)]
  | .destageStart => []
  | .stripeLockGrant pool stripe => [(stripeOk pool stripe, .stripe)]
  | .memberReadCompletion _ _ blocks tags _ => [(decide (tags.length ≤ blocks.length), .metadata)]
  | .memberWriteCompletion _ _ _ => []
  | .jnlBarrier _ => []
  | .replay copies _ => [(decide (copies.length ≤ 6), .copies)]
  | .read h => [(ioOk h, .hostCommand)]
  | .suspectReadSlow _ => []
  | .decodeStagingGrant _ => []
  | .memberFail _ m => [(memOk m, .member)]
  | .memberReadmit _ m => [(memOk m, .member)]
  | .memberRetire _ m => [(memOk m, .member)]
  | .memberClear _ m => [(memOk m, .member)]
  | .memberQuiet m => [(memOk m, .member)]
  | .memberAbsentTimeout m => [(memOk m, .member)]
  | .discoverTimeout m => [(memOk m, .member)]
  | .sillageInterval => []
  | .sillageStart => []
  | .excBatchExpiry => []
  | .scrubPeriodExpiry => []
  | .scrubNow _ => []
  | .itgClrCounts _ => []
  | .keyGeneration => []
  | .keySwitch nsid => [(nsOk nsid, .nsid)]
  | .keySlotErased slot => [(decide (slot < 1024), .keySlot)]
  | .itemDispatch _ _ => []
  | .unitFault unit _ => [(decide (unit < 256), .unit)]
  | .unitRetire _ unit => [(decide (unit < 256), .unit)]
  | .ucieDeliveryFailure die => [(decide (die < 2), .die)]
  | .elbFillData region _ _ _ => [(decide (region < 8), .region)]
  | .snoop region _ => [(decide (region < 8), .region)]
  | .elbTagParityError region => [(decide (region < 8), .region)]
  | .clusterHoldExpiry cluster => [(decide (cluster < 32), .cluster)]
  | .regionHoldExpiry region => [(decide (region < 8), .region)]
  | .regionPowerUpDone region => [(decide (region < 8), .region)]
  | .diePllLock die => [(decide (die < 2), .die)]
  | .fabWatchWrite _ mask => [(decide (mask < 256), .mask)]
  | .noSleepWrite _ => []
  | .fabClrCounts _ => []
  | .move ch _ => [(chanOk ch, .channel)]
  | .mac ch _ _ => [(chanOk ch, .channel)]
  | .loopBegin ch _ => [(chanOk ch, .channel)]
  | .loopNext ch _ => [(chanOk ch, .channel)]
  | .waitSem ch _ => [(chanOk ch, .channel)]
  | .waitLevel ch _ => [(chanOk ch, .channel)]
  | .waitTimer ch _ => [(chanOk ch, .channel)]
  | .waitEvent ch _ => [(chanOk ch, .channel)]
  | .waitTimerExpiry ch => [(chanOk ch, .channel)]
  | .waitTimeout ch => [(chanOk ch, .channel)]
  | .signalSem ch _ => [(chanOk ch, .channel)]
  | .signalIrq ch _ => [(chanOk ch, .channel)]
  | .signalComplete ch _ => [(chanOk ch, .channel)]
  | .nop ch _ => [(chanOk ch, .channel)]
  | .end_ ch _ => [(chanOk ch, .channel)]
  | .transferUnitDone ch => [(chanOk ch, .channel)]
  | .channelWatchdog ch => [(chanOk ch, .channel)]
  | .chnAbort _ ch => [(chanOk ch, .channel)]
  | .chnStart _ ch => [(chanOk ch, .channel)]
  | .chnClrLevel _ ch => [(chanOk ch, .channel)]
  | .chnSemWrite _ ch sem _ => [(chanOk ch, .channel), (decide (sem < 4), .semaphore)]
  | .sqDoorbell _ q _ => [(decide (q < 1024), .sq)]
  | .cqDoorbell _ q _ => [(decide (q < 256), .cq)]
  | .sqEntryFetched q res cause => [(decide (q < 1024), .sq), (entryOk res cause, .length)]
  | .entryStart => []
  | .headWritebackTimer q => [(decide (q < 1024), .sq)]
  | .sqAbort _ q cid => [(decide (q < 1024), .sq), (decide (cid < 2 ^ 16), .identifier)]
  | .sqEnable _ q => [(decide (q < 1024), .sq)]
  | .sqDisable _ q => [(decide (q < 1024), .sq)]
  | .resetIdx _ q => [(decide (q < 1024), .sq)]
  | .cqEnable _ q => [(decide (q < 256), .cq)]
  | .cqDisable _ q => [(decide (q < 256), .cq)]
  | .cqModTimer q => [(decide (q < 256), .cq)]
  | .createIoSq _ cid qid size cqid prio => [(decide (cid < 2 ^ 16), .identifier), (queueOk qid size, .queue), (decide (cqid < 2 ^ 16), .queue), (decide (prio < 4), .priority)]
  | .createIoCq _ cid qid size vec _ => [(decide (cid < 2 ^ 16), .identifier), (queueOk qid size, .queue), (decide (vec < 2 ^ 16), .vector)]
  | .deleteIoSq _ cid qid => [(decide (cid < 2 ^ 16), .identifier), (decide (qid < 2 ^ 16), .queue)]
  | .deleteIoCq _ cid qid => [(decide (cid < 2 ^ 16), .identifier), (decide (qid < 2 ^ 16), .queue)]
  | .getLogPage _ cid lid nsid off len _ => [(decide (cid < 2 ^ 16), .identifier), (decide (lid < 256), .page), (nsOk nsid, .nsid), (decide (off < 2 ^ 64 ∧ len ≤ 2 ^ 34), .length)]
  | .identify _ cid cns nsid cntid => [(decide (cid < 2 ^ 16), .identifier), (decide (cns < 256), .page), (nsOk nsid, .nsid), (decide (cntid < 2 ^ 16), .identifier)]
  | .abort _ cid sq target => [(decide (cid < 2 ^ 16 ∧ target < 2 ^ 16), .identifier), (decide (sq < 2 ^ 16), .queue)]
  | .setFeatures _ cid fid nsid cdw11 _ table => [(decide (cid < 2 ^ 16), .identifier), (decide (fid < 256), .feature), (nsOk nsid, .nsid), (decide (cdw11 < 2 ^ 32), .word), (decide (table.length ≤ 32), .length)]
  | .getFeatures _ cid fid nsid cdw11 sel => [(decide (cid < 2 ^ 16), .identifier), (decide (fid < 256), .feature), (nsOk nsid, .nsid), (decide (cdw11 < 2 ^ 32 ∧ sel < 8), .word)]
  | .asyncEventRequest _ cid => [(decide (cid < 2 ^ 16), .identifier)]
  | .firmwareImageDownload _ cid off bytes => [(decide (cid < 2 ^ 16), .identifier), (decide (off % 4 = 0 ∧ off < 2 ^ 34 ∧ bytes.length % 4 = 0), .length)]
  | .firmwareCommit _ cid slot action => [(decide (cid < 2 ^ 16), .identifier), (decide (slot < 8 ∧ action < 8), .word)]
  | .fwActivation => []
  | .formatNvm _ cid nsid lbaf pi ses _ => [(decide (cid < 2 ^ 16), .identifier), (nsOk nsid, .nsid), (decide (lbaf < 64 ∧ pi < 8 ∧ ses < 8), .word)]
  | .sanitize _ cid action passes pattern _ _ _ => [(decide (cid < 2 ^ 16), .identifier), (decide (action < 8 ∧ passes < 16 ∧ pattern < 2 ^ 32), .word)]
  | .keepAlive _ cid => [(decide (cid < 2 ^ 16), .identifier)]
  | .flush h => [(ioOk h, .hostCommand)]
  | .writeZeroes h => [(ioOk h, .hostCommand)]
  | .datasetManagement h _ ranges => [(ioOk h, .hostCommand), (decide (1 ≤ ranges.length ∧ ranges.length ≤ 256), .ranges)]
  | .verify h => [(ioOk h, .hostCommand)]
  | .namespaceManagement _ cid => [(decide (cid < 2 ^ 16), .identifier)]
  | .namespaceAttachment _ cid => [(decide (cid < 2 ^ 16), .identifier)]
  | .invalidOpcode _ sq cid => [(decide (sq < 2 ^ 16), .queue), (decide (cid < 2 ^ 16), .identifier)]
  | .nvmeSqDoorbell _ sq tail => [(queueOk sq tail, .queue)]
  | .nvmeCqDoorbell _ cq head => [(queueOk cq head, .queue)]
  | .ccEnable _ ams asqs acqs => [(decide (ams < 8), .word), (decide (2 ≤ asqs ∧ asqs ≤ 4096 ∧ 2 ≤ acqs ∧ acqs ≤ 4096), .queue)]
  | .readyTimeout _ => []
  | .ccDisable _ => []
  | .shutdownNormal _ => []
  | .shutdownAbrupt _ => []
  | .nvmSubsystemReset => []
  | .apstTransition _ => []
  | .configWrite _ fn off _ _ => [(decide (fn < 2), .function), (decide (off % 4 = 0 ∧ off < 4096), .offset)]
  | .flr _ fn => [(decide (fn < 2), .function)]
  | .busMasterDisable _ fn => [(decide (fn < 2), .function)]
  | .busMasterEnable _ fn => [(decide (fn < 2), .function)]
  | .dstateChange _ fn _ => [(decide (fn < 2), .function)]
  | .hostPortReset _ _ => []
  | .hostCompletion _ tag _ => [(decide (tag < 2 ^ 14), .tag)]
  | .completionTimeout _ tag => [(tag.all fun t => decide (t < 2 ^ 14), .tag)]
  | .tagQuarantineExpiry _ tag => [(decide (tag < 2 ^ 14), .tag)]
  | .bar4Read _ _ len => [(decide (0 < len), .length)]
  | .bar4Write _ _ bytes _ => [(decide (0 < bytes.length), .length)]
  | .expansionRomRead _ _ len => [(decide (0 < len), .length)]
  | .xltClrCounts _ => []
  | .portPllLockLoss clock => [(decide (4 ≤ clock ∧ clock ≤ 13), .clock)]
  | .memberCommandTimeout _ => []
  | .memberAbortTimeout _ => []
  | .memberCtrlResetDone m => [(memOk m, .member)]
  | .memberCtrlResetTimeout m => [(memOk m, .member)]
  | .memberLinkTimeout m => [(memOk m, .member)]
  | .memberSurpriseRemoval link ports => [(decide (link < 48), .link), (portsOk ports, .downstream)]
  | .memberLinkDown link ports => [(decide (link < 48), .link), (portsOk ports, .downstream)]
  | .memberHotplugArrival link ports _ => [(decide (link < 48), .link), (portsOk ports, .downstream)]
  | .memberAerError link ports bus devfn _ _ => [(decide (link < 48), .link), (portsOk ports, .downstream), (decide (bus < 256 ∧ devfn < 256), .function)]
  | .memberAsyncEvent m _ => [(memOk m, .member)]
  | .memberStrayRequest => []
  | .mbrRescan _ => []
  | .mbrDiscDump _ _ _ => []
  | .mbrClrCounts _ => []
  | .mbrFormat _ ordinal _ => [(decide (ordinal < 2 ^ 16), .ordinal)]
  | .slotPowerOn _ member target => [(slotOk member target, .slot)]
  | .slotPowerOff _ member target => [(slotOk member target, .slot)]
  | .slotPowerBatch => []
  | .mperstRelease => []
  | .heartbeatSend => []
  | .heartbeatReceived _ => []
  | .partnerLoss => []
  | .peerLinkDown _ => []
  | .fenceHoldoffExpiry => []
  | .fenceInAssert => []
  | .fenceInRelease => []
  | .fenceInPlace => []
  | .mirrorCommitDoorbell first last tail _ _ => [(decide (first ≤ last ∧ last < 2 ^ 64 ∧ tail < 2 ^ 64), .sequence)]
  | .peerWindowRequest _ addr len => [(decide (addr < 2 ^ 64), .address), (decide (0 < len), .length)]
  | .join msg => [(decide (msg.role < 2), .word)]
  | .keyx _ _ => []
  | .key op slot nsid wrapped => [(decide (op = 1 ∨ op = 2), .word), (decide (slot < 1024), .keySlot), (nsOk nsid, .nsid), (decide (wrapped < 2 ^ 576), .length)]
  | .keyDone op _ slot nsid => [(decide (op = 1 ∨ op = 2), .word), (decide (slot < 1024), .keySlot), (nsOk nsid, .nsid)]
  | .memberEvent m code => [(memOk m, .member), (decide (code < 256), .word)]
  | .ownership pools head => [(decide (pools < 2 ^ 64), .pools), (decide (head < 2 ^ 64), .sequence)]
  | .ownAck pools => [(decide (pools < 2 ^ 64), .pools)]
  | .quiet pools => [(decide (pools < 2 ^ 64), .pools)]
  | .adoptDone pools => [(decide (pools < 2 ^ 64), .pools)]
  | .armStage epoch crc img => [(decide (epoch < 2 ^ 32 ∧ crc < 2 ^ 32), .word), (decide (img.length ≤ 2 ^ 26), .length)]
  | .armReady epoch code _ => [(decide (epoch < 2 ^ 32 ∧ code < 2 ^ 16), .word)]
  | .armSwitch epoch => [(decide (epoch < 2 ^ 32), .word)]
  | .ckptDone seq => [(decide (seq < 2 ^ 64), .sequence)]
  | .mirrorBad seq => [(decide (seq < 2 ^ 64), .sequence)]
  | .resyncDone m => [(memOk m, .member)]
  | .nsOp op nsid cdw10 cdw11 => [(decide (op < 256 ∧ cdw10 < 2 ^ 32 ∧ cdw11 < 2 ^ 32), .word), (nsOk nsid, .nsid)]
  | .nsDone op _ => [(decide (op < 256), .word)]
  | .fillDone pool pos _ => [(decide (pool < 64), .stripe), (decide (pos < 256), .word)]
  | .acdFence _ => []
  | .acdRelease _ => []
  | .acdPeerReset _ => []
  | .acdClrCounts _ => []
  | .acdOwnCmd _ _ => []
  | .joinWaitExpiry => []
  | .drainMsExpiry => []
  | .dumpFailedSilenceExpiry => []
  | .pwrFailAssert => []
  | .dump _ _ => []
  | .inPlaceResume => []
  | .vltDiscardDump _ => []
  | .vltClrFlags _ => []
  | .vaultNandIdle => []
  | .powerOn _ => []
  | .sysRstNAssert => []
  | .sysRstStretchExpiry => []
  | .softwareWarm _ keyw => [(decide (keyw < 2 ^ 16), .word)]
  | .softwareCold _ keyw => [(decide (keyw < 2 ^ 16), .word)]
  | .rstClrHist _ keyw => [(decide (keyw < 2 ^ 16), .word)]
  | .peerPerst => []
  | .iodPllLockLoss => []
  | .mgmtWatchdog => []
  | .criticalStateError source _ => [(decide (13 ≤ source ∧ source ≤ 17 ∨ source = 21 ∨ source = 23 ∨ source = 24), .source)]
  | .diePllLockLoss die => [(decide (die < 2), .die)]
  | .supplyBrownout => []
  | .blockResetCmd _ level target => [(decide (level < 8 ∧ target < 256), .block)]
  | .blockIdleReached level target => [(targetOk level target, .block)]
  | .blockIdleTimeout level target => [(targetOk level target, .block)]
  | .blockResetExit level target _ => [(targetOk level target, .block)]
  | .packageResetExit failed _ _ _ => [(failed.all fun u => decide (u < 256), .unit)]
  | .optionLoadDone _ _ => []
  | .thermalSample readings => [(decide (readings.length = 28), .readings)]
  | .railSample readings => [(decide (readings.length = 12), .readings)]
  | .vbatLow _ => []
  | .powerCapAverage _ => []
  | .avsTimeout => []
  | .vcdLowerTimer => []
  | .cpmClrCounts _ => []
  | .mbxNop => []
  | .mbxGetInfo => []
  | .mbxOptRead => []
  | .mbxOptWrite _ => []
  | .mbxLogRead => []
  | .mbxFwSelect => []
  | .pldmRequestUpdate _ => []
  | .pldmFirmwareData _ => []
  | .pldmActivateFirmware _ => []
  | .pldmBaseDiscovery cmd arg => [(decide (cmd < 256 ∧ arg < 256), .word)]
  | .setEndpointId eid => [(decide (eid < 256), .word)]
  | .getEndpointId => []
  | .getMctpVersionSupport typ => [(decide (typ < 256), .word)]
  | .getMessageTypeSupport => []
  | .getEndpointUuid => []
  | .readNvmeMiDataStructure typ cntid => [(decide (typ < 256 ∧ cntid < 2 ^ 16), .word)]
  | .subsystemHealthStatusPoll _ => []
  | .controllerHealthStatusPoll first => [(decide (first < 2 ^ 16), .word)]
  | .configurationSet id _ => [(decide (id < 256), .word)]
  | .configurationGet id => [(decide (id < 256), .word)]
  | .vpdRead off len => [(decide (off < 2 ^ 16 ∧ len < 2 ^ 16), .length)]
  | .vpdWrite => []
  | .miReset => []
  | .miTunnelledAdmin tag _ => [(decide (tag < 2 ^ 16), .identifier)]
  | .i3cModeEntry => []
  | .logFlush _ => []
  | .logPageTimeout => []
  | .snsClrPeak _ => []
  | .vbatRestored _ => []
  | .peerLinkUp _ => []
  | .hostPerstRelease _ _ => []
  | .memberAdminCompletion _ => []
  | .messageRingAck ack => [(decide (ack < 2 ^ 32), .word)]
  | .pwrFailDeassert => []

/-- The first check that fails. -/
def firstFailed : List (Bool × IllFormed) → Option IllFormed
  | [] => none
  | (ok, e) :: cs => if ok then firstFailed cs else some e

/-- Why a command is not well formed, if it is not. -/
def Instr.problem (i : Instr) : Option IllFormed := firstFailed i.checks

/-- A well-formed command. -/
def Instr.wf (i : Instr) : Bool := i.problem == none

end Sys2Proof
end

