-- ==== Sys2Proof/Safety.lean ====
section
/-!
DEFINITION. What counts as a safe run, in the terms that statements use: every waiting command is well formed, the host area keeps its
canonical form, and every step answers a next state.
-/
namespace Sys2Proof.Machine

/-- A state from which a run is safe to begin: the host area's bytes are in canonical form, and what waits is well formed. -/
def State.good (s : State) : Prop := s.mem.wf ∧ ∀ c ∈ s.pending, c.wf = true

/-- A step goes on: it neither faults nor refuses. -/
def State.goesOn (s : State) : Prop := ∃ t, step s = .next t

/-- A run of `n` steps goes on to a state. -/
def State.reaches (s : State) : Nat → State → Prop
  | 0, t => t = s
  | n + 1, t => ∃ u, step s = .next u ∧ State.reaches u n t

/-- A command answers a next state, of which `P` holds. -/
def Runs (i : Instr) (s : State) (P : State → Prop) : Prop := ∃ t, exec i s = .next t ∧ P t

/-- Every byte of buffer memory's host area reads as before. -/
def State.memKept (s t : State) : Prop := ∀ a, Memory.read t.mem a = Memory.read s.mem a

/-- Every register but those at the named addresses holds what it held. -/
def Dev.regsKept (d e : Dev) (addrs : List Nat) : Prop := ∀ a, a ∉ addrs → e.reg a = d.reg a

/-- A command that changed registers at the named addresses and sent things outside, and changed nothing else of the machine. -/
def State.onlyRegs (s t : State) (addrs : List Nat) : Prop :=
  t.pending = s.pending ∧ s.memKept t ∧ s.dev.regsKept t.dev addrs ∧
    t.dev = { s.dev with regs := t.dev.regs, emitted := t.dev.emitted }

/-- A requester whose command of a global register acts: its access reaches the block and it may write global registers (R542). -/
def Dev.commands (d : Dev) (req : Requester) : Prop := d.reaches req = true ∧ d.writesGlobal req = true

/-- No erasure, pool transfer or firmware commit waits for other work to end. -/
def Dev.calm (d : Dev) : Prop := d.nvm.erases = [] ∧ d.acd.transfers = [] ∧ d.mgmt.waiting = []

/-- An armature gives every member lane group the bifurcation mode that it has now, so that its commit takes no link down (R570). -/
def Dev.sameModes (d : Dev) (a : Armature) : Prop :=
  ∀ g < 6, (match d.arm.active with
    | some o => o.modes.getD g 0
    | none => d.opt.boot / 4 ^ g % 4) = a.modes.getD g 0

/-- No two unretired or retired records of one journal share a sequence number (R186). -/
def Dev.seqsDistinct (d : Dev) : Prop := (d.jnl.recs.map (·.seq)).Nodup ∧ (d.acd.adopted.map (·.seq)).Nodup

/-- The completion queue of a submission queue can take a completion now: it has a free slot, holds nothing back, and its port may send. -/
def Dev.canPost (d : Dev) (portB : Bool) (sq : Nat) : Prop :=
  ∃ x q, (d.ctl portB).sqs.find? (·.id = sq) = some x ∧ (d.ctl portB).cqs.find? (·.id = x.cq) = some q ∧
    q.full = false ∧ q.held = [] ∧ d.canSend portB 0 = true ∧ d.postStopped = false

/-- The device as a command finds it: nothing has been sent yet. -/
def State.start (s : State) : Dev := { s.dev with emitted := [] }

/-- A controller whose admin queue has a command that may be fetched now, and whose completion can be posted at once. -/
def Dev.adminTakes (d : Dev) (portB : Bool) : Prop := d.fetchable portB 0 = true ∧ d.canPost portB 0

/-- The command sent a completion of this queue, identifier, status and first result word. -/
def State.answers (t : State) (portB : Bool) (sq cid : Nat) (st : NvStatus) (dw0 : Nat) : Prop :=
  Emit.cpl portB sq cid st st.dnr dw0 ∈ t.dev.emitted

/-- A command that changed the NVMe controllers, a pending interrupt bit of a host port and the journal's live status fields at most, and
began the power-up of regions that were off (a controller that leaves a non-operational state powers watch regions, R374). -/
def State.ctlOnly (s t : State) : Prop :=
  t.pending = s.pending ∧ s.memKept t ∧
    s.dev.regsKept t.dev [Reg.JNL_STATUS_DRYING.base, Reg.JNL_OCCUPANCY_PEAK.base, Reg.JNL_LOST_COUNT_RANGES.base] ∧
    t.dev = { s.dev with regs := t.dev.regs, emitted := t.dev.emitted, ctlA := t.dev.ctlA, ctlB := t.dev.ctlB, ports := t.dev.ports,
                         fab := t.dev.fab } ∧
    t.dev.fab = { s.dev.fab with regions := t.dev.fab.regions, pllLocking := t.dev.fab.pllLocking } ∧
    ∀ r, (t.dev.region r).power = (s.dev.region r).power ∨ ((s.dev.region r).power = .off ∧ (t.dev.region r).power = .up)

/-- A requester whose write of a codec work queue's register acts: it reaches the block and is the queue's owner or the management core
(R436). -/
def Dev.ownsQueue (d : Dev) (req : Requester) (cq : Bool) (q : Nat) : Prop :=
  d.reaches req = true ∧ q < (if cq then 256 else 1024) ∧
    (match req with | .mgmt => true | .portA => !d.queueOwnerB cq q | .portB => d.queueOwnerB cq q) = true

/-- A channel can run, and the word that its fetch delivers (`w`, or that at its PC in HBM) meets no uncorrectable line and is this instruction
(R390, R392, R395). -/
def State.delivers (s : State) (ch : Nat) (w : BitVec 256) (i : ChInstr) : Prop :=
  let x := s.dev.insWord (Memory.read s.mem) ch w
  s.dev.canRun ch = true ∧ s.dev.fetchBad ch x = false ∧ decodeIns x = .ok i

/-- No operation holds a decode back (R228). -/
def Dev.noneHeld (d : Dev) : Prop := ∀ o ∈ d.ops, o.phase ≠ .held

/-- The device with some of its fields changed, nothing sent but what `es` lists, and everything outside the device as it was. -/
def State.withDev (s : State) (es : List Emit) (f : Dev → Dev) : State := { s with dev := f { s.dev with emitted := es } }

/-- The event log holds a record with this code and payload, in its ring or its tail (R753). -/
def State.logged (t : State) (code : Nat) (payload : List Byte) : Prop :=
  ∃ r ∈ t.dev.log.ring ++ t.dev.log.tail, r.code = code ∧ r.payload = payload

/-- A DMA write of bytes at an address that went out in parts that follow one another. -/
def State.sentWhole (t : State) (portB : Bool) (addr : Nat) (bytes : List Byte) : Prop :=
  ∃ (ro : Bool) (parts : List (Nat × List Byte)), t.dev.emitted = parts.map (fun p => Emit.dma portB ro p.1 p.2) ∧
    parts.flatMap (·.2) = bytes ∧
    ∀ pre p post, parts = pre ++ p :: post → p.1 = addr + (pre.flatMap (·.2)).length

/-- The posted writes of a peer message that this package sends next (R626, R628). -/
def Dev.message (d : Dev) (typ : Nat) (args : List Nat) : List Emit := (PeerMsg.mk typ args).writes d.peerOut d.acd.txSeq

/-- The write of MSG_ACK with which a message of a payload length is taken (R627). -/
def Dev.ringAck (d : Dev) (len : Nat) : Emit := .peerWrite d.peerOut 0x28 (leBytes 4 ((d.acd.rxSlots + msgSlots len) % 2 ^ 32))

/-- A peer message was taken and changed nothing but the count of the slots received. -/
def State.tookOnly (s t : State) (len : Nat) : Prop :=
  t = s.withDev [s.dev.ringAck len] fun d => { d with acd := { d.acd with rxSlots := (d.acd.rxSlots + msgSlots len) % 2 ^ 32 } }

/-- A command that sent nothing and changed nothing. -/
def State.silent (s t : State) : Prop := t = { s with dev := { s.dev with emitted := [] } }

end Sys2Proof.Machine
end

