-- ==== Sys2Proof/Certificates/Slice0/Obligations.lean ====
section
/-!
DEFINITION. The statements for the provers, family by family. Each says what a command or the machine does by the spec; where one rests on a
choice of the model, its text names the log entry.
-/
open Sys2Proof Sys2Proof.Machine

/-! ### The queue, reset and the whole machine -/

/-- A step runs the command at the front of the queue. For every command and state, step of the state with that command in front of its queue is
exec of the command on the state with the queue's rest; on an empty queue a microsecond passes, which is the model's choice (log entry 1),
and everything but the clock stays. Basis: derived, 00_scope.md, log entry 1. -/
def Obligations.StepRunsFrontCommand : Prop :=
  (∀ (c : Instr) (rest : List Instr) (s : State),
    step { s with pending := c :: rest } = exec c { s with pending := rest }) ∧
  (∀ s : State, s.pending = [] → step s = .next { s with dev := { s.dev with now := s.dev.now + 1 } })

/-- Commands run first in, first out, and no command touches the queue. A step that goes on from a queue with a command in front leaves exactly
the queue's rest, whatever the command; so commands run in the order they wait, each once. That the block has such a queue is the model's
form (log entry 1). Basis: derived, 00_scope.md, log entry 1. -/
def Obligations.QueueIsFifo : Prop :=
  ∀ (c : Instr) (rest : List Instr) (s t : State), s.pending = c :: rest → step s = .next t → t.pending = rest

/-- The state right after reset is good. Right after reset no command waits, the host area lists nothing and so has its canonical form, and
every byte of it reads 0. Basis: derived, 04_buffer_memory.md. -/
def Obligations.ResetMemoryCanonical : Prop :=
  State.reset.pending = [] ∧ State.reset.mem.wf ∧ ∀ a, Memory.read State.reset.mem a = 0

/-- Every step keeps the canonical form of the host area. From every state whose host area of buffer memory is in canonical form (addresses
strictly rising, no zero byte listed), a step that goes on gives a state whose host area is in canonical form. Basis: derived,
04_buffer_memory.md. -/
def Obligations.StepKeepsMemoryCanonical : Prop :=
  ∀ s t : State, s.mem.wf → step s = .next t → t.mem.wf

/-- The host area changes only where a command stores. From every state with a canonical host area, a step that goes on leaves every byte of the
host area that no store of the step covers: a byte reads as before unless one of the writes into buffer memory that the new state lists as
sent (its address and its bytes) covers it, or the area was zeroed whole. Bytes are those of the 48-bit internal addresses; a line's check
bytes, which the model keeps above them, follow its data. Basis: derived, 04_buffer_memory.md. -/
def Obligations.StepStoresOnlyWhereSent : Prop :=
  ∀ (s t : State) (c : Instr) (rest : List Instr) (a : Nat), s.mem.wf → s.pending = c :: rest → step s = .next t →
    a < 2 ^ 48 → Emit.hbmZero ∉ t.dev.emitted →
    (∀ (b : Nat) (bs : List Byte), Emit.hbm b bs ∈ t.dev.emitted → a < b ∨ b + bs.length ≤ a) →
    Memory.read t.mem a = Memory.read s.mem a

/-- Every command of the table completes, and every step goes on. For every command of the table (every constructor, with every operand) and
every state, exec answers a next state whose queue is the queue it was given: no command faults and none is refused, since the spec gives
every command of the table an effect. What that next state is, the statements on the commands say. From every state a step answers a next
state. Basis: derived, 00_scope.md. -/
def Obligations.EveryStepGoesOn : Prop :=
  (∀ (c : Instr) (s : State), ∃ t, exec c s = .next t ∧ t.pending = s.pending) ∧ ∀ s : State, s.goesOn

/-- What reset leaves in registers. Right after a COLD reset the fields that the spec gives a reset value hold it: no ignored write counted,
scratch 0, no epoch active, staged or draining, MAQ_STATE EMPTY, the journal OFF with no record, checkpoint interval 1000 ms, 1,024 free key
slots, buffer memory not initialised, the accord state 0, the event log's next sequence 0, the reset counter at 1, the fuse reach of sources
0 and 2 at 5 and 6 (the fuse values are log entries 5 and 6), and both host links down. Basis: derived, 19_register_index.md,
16_reset_and_options.md, log entry 5, log entry 6. -/
def Obligations.ResetRegisterValues : Prop :=
  let d := State.reset.dev
  d.g Reg.GCS_IGNORED_WRITES_COUNT = 0 ∧ d.g Reg.GCS_SCRATCH_VALUE = 0 ∧ d.g Reg.ARM_EPOCH_ACTIVE_EPOCH = 0 ∧
  d.g Reg.ARM_EPOCH_STAGED_EPOCH = 0 ∧ d.g Reg.ARM_EPOCH_DRAINING_EPOCH = 0 ∧ d.g Reg.ARM_STATUS_MAQ_STATE = 0 ∧
  d.g Reg.JNL_STATUS_STATE = 0 ∧ d.jnl.recs = [] ∧
  d.g Reg.JNL_CKPT_CFG_INTERVAL_MS = 1000 ∧ d.g Reg.ITG_STATUS_FREE_SLOTS = 1024 ∧ d.g Reg.BUF_STATUS_INIT_DONE = 0 ∧
  d.g Reg.ACD_STATUS_STATE = 0 ∧ d.g Reg.LOG_NEXT_SEQ_VALUE = 0 ∧ d.g Reg.RST_COUNT_COUNT = 1 ∧
  d.reachOf 0 = 5 ∧ d.reachOf 2 = 6 ∧ d.ports.a.up = false ∧ d.ports.b.up = false

/-! ### Register accesses -/

/-- A write changes a register field by field, by each field's type. For every register of table 19-1 and every one of its fields, the value
after a write of any word is the old value where the requester or the field refuses, and else what the field's type gives: the bits written
(RW), the old bits without those written 1 (W1C), 0 (WO), the old bits with those written 1 set (RW1S), 0 whatever is written for a clearing
counter; and bits that no field holds stay. For every state, REGISTER_WRITE that reaches a 32-bit register whose write does nothing else,
and the register is not GCS_IGNORED_WRITES or a doorbell, gives the register that value; every other register but the two that count ignored
writes stays, and so does everything else but the clock gate of the cluster whose channel the register belongs to. A write of a GPIO output
register also drives the pins, one of the scrub period pauses or resumes the scrub, and one of MBX_CMD with GO starts the mailbox command,
or ends it at once where the opcode is not allowed. Basis: stated, R18. -/
def Obligations.WriteIsFieldByField : Prop :=
  (∀ r ∈ regTable, ∀ (enabled may clearing : Bool) (old w : Nat),
    (∀ f ∈ r.fields, bitsOf (r.written enabled may clearing old w) f.hi f.lo =
      if may && f.takes enabled then f.next clearing (bitsOf old f.hi f.lo) (bitsOf w f.hi f.lo) % 2 ^ (f.hi + 1 - f.lo)
      else bitsOf old f.hi f.lo) ∧
    (∀ i, (∀ f ∈ r.fields, i < f.lo ∨ f.hi < i) → (r.written enabled may clearing old w).testBit i = old.testBit i)) ∧
  (∀ (s : State) (req : Requester) (off : Nat) (w : Word) (r : RegRef),
    s.dev.reachesAt req off = true → off % 4 = 0 → placeOf req off = .reg r false → r.desc.width ≠ 64 → r.home ≠ 0x10008 →
    r.desc.base < 0x100000 ∨ 0x101400 ≤ r.desc.base → r.desc.base ≠ Reg.MBX_CMD_GO.base →
    (∀ (d : Dev) (old w : Nat), d.regAct req r old w = d) →
    let d := s.start.chnTouched r
    Runs (.registerWrite req off w) s fun t =>
      t.dev.reg r.home = BitVec.ofNat 64 (d.regNext r (d.regEnabled r) (d.regMay req r) (d.reg r.home).toNat w.toNat) ∧
      (∀ a, a ≠ r.home → a ≠ 0x10008 → a ≠ 0x10010 → t.dev.reg a = s.dev.reg a) ∧
      t.dev = { d with regs := t.dev.regs } ∧ t.mem = s.mem ∧ t.pending = s.pending) ∧
  (∀ (s : State) (req : Requester) (w : Word), s.dev.commands req →
    (Runs (.registerWrite req 0x210020 w) s fun t => t.dev.g Reg.MBR_GPIO_OUT_PINS = w.toNat ∧
      t.dev.emitted = [.gpio w.toNat (s.dev.g Reg.MBR_GPIO_OE_PINS)] ∧ s.onlyRegs t [0x210020]) ∧
    (Runs (.registerWrite req 0x210024 w) s fun t => t.dev.g Reg.MBR_GPIO_OE_PINS = w.toNat ∧
      t.dev.emitted = [.gpio (s.dev.g Reg.MBR_GPIO_OUT_PINS) w.toNat] ∧ s.onlyRegs t [0x210024]) ∧
    (Runs (.registerWrite req Reg.BUF_SCRUB_PERIOD.base w) s fun t =>
      t.dev.g Reg.BUF_SCRUB_PERIOD = w.toNat % 256 ∧
      t.dev.on Reg.BUF_STATUS_SCRUB_PAUSED = (s.dev.on Reg.VLT_STATUS_DUMPING || w.toNat % 256 == 0) ∧
      s.onlyRegs t [Reg.BUF_SCRUB_PERIOD.base, Reg.BUF_STATUS_SCRUB_PAUSED.base, 0x10008, 0x10010]) ∧
    (s.dev.mgmtUp = true → s.dev.on Reg.MBX_STATUS_BUSY = false → w.toNat.testBit 31 = true →
      let op := bitsOf w.toNat 23 16
      let len := bitsOf w.toNat 12 0
      Runs (.registerWrite req Reg.MBX_CMD_GO.base w) s fun t =>
        t.dev.g Reg.MBX_CMD_OPCODE = op ∧ t.dev.g Reg.MBX_CMD_LEN = len ∧
        (s.dev.mbxAllowed op = true → len ≤ 4096 → t.dev.on Reg.MBX_STATUS_BUSY = true) ∧
        (s.dev.mbxAllowed op = false → t.dev.on Reg.MBX_STATUS_BUSY = false ∧ t.dev.on Reg.MBX_STATUS_DONE = true ∧
          t.dev.g Reg.MBX_STATUS_STATUS = 1) ∧
        t.dev.mgmt = s.dev.mgmt ∧ s.memKept t))

/-- A low-word write loads the requester's latch and changes nothing else. For every state, requester, word and 64-bit register: an aligned
LOW_WORD_WRITE that reaches the register's low word answers the state in which that requester's latch for the register holds the word; the
latches of the other requesters and of its other registers stay, and nothing else changes, but that an access to a channel's register
ungates its cluster's clock. Basis: stated, R6. -/
def Obligations.LowWordWriteLoadsLatch : Prop :=
  ∀ (s : State) (req : Requester) (off : Nat) (w : Word) (r : RegRef),
    s.dev.reachesAt req off = true → off % 4 = 0 → placeOf req off = .reg r true →
    exec (.lowWordWrite req off w) s = .next { s with dev := { s.start.chnTouched r with
      bus := { s.dev.bus with wlatch := s.dev.bus.wlatch.filter (fun x => !(x.1 == req && x.2.1 == r.home)) ++ [(req, r.home, w)] } } }

/-- A high-word write commits the latched low word with it. For every state and every 64-bit register whose write does nothing beside changing
the register: a HIGH_WORD_WRITE that reaches its high word gives every field that takes it the value of the whole 64 bits, the high word
with the requester's latched low word below it (the committed low word where the requester has latched none); every other register but the
two that count ignored writes stays. Where the requester may write the register and a field takes the write, every requester's latch of the
register is emptied, so that it holds the committed low word, and the latches of other registers stay; else the latches stay as they are.
Nothing else changes but the clock gate of a channel's cluster. Basis: derived, 00_scope.md. -/
def Obligations.HighWordWriteCommits : Prop :=
  ∀ (s : State) (req : Requester) (off : Nat) (w : Word) (r : RegRef),
    s.dev.reachesAt req off = true → off % 4 = 0 → placeOf req off = .reg r false → r.desc.width = 64 → r.home ≠ 0x10010 →
    (∀ (d : Dev) (old w : Nat), d.regAct req r old w = d) →
    let d := s.start.chnTouched r
    let v := (match s.dev.bus.wlatch.find? fun x => x.1 == req && x.2.1 == r.home with
      | some x => x.2.2.toNat
      | none => (s.dev.reg r.home).toNat % 2 ^ 32) + 2 ^ 32 * w.toNat
    Runs (.highWordWrite req off w) s fun t =>
      t.dev.reg r.home = BitVec.ofNat 64 (d.regNext r (d.regEnabled r) (d.regMay req r) (d.reg r.home).toNat v) ∧
      (∀ a, a ≠ r.home → a ≠ 0x10008 → a ≠ 0x10010 → t.dev.reg a = s.dev.reg a) ∧
      t.dev.bus = (if s.dev.regCommits req r then { s.dev.bus with wlatch := s.dev.bus.wlatch.filter fun x => x.2.1 != r.home } else s.dev.bus) ∧
      t.dev = { d with regs := t.dev.regs, bus := t.dev.bus } ∧ t.mem = s.mem ∧ t.pending = s.pending

/-- A refused write changes nothing but the count of ignored writes and its record. For every state, requester and 32-bit register other than
GCS_IGNORED_WRITES, a doorbell and a register whose write does more than change it: a REGISTER_WRITE of which a refused field or a reserved
bit differs from what the register reads (a violation) counts one ignored write more, up to the counter's largest value, and
GCS_LAST_IGNORED names the requester, its kind and the offset with WIDTH clear; a write without a violation leaves both registers. A write
to a read-only register (GCS_ID) leaves it as it was. An access that is not aligned counts one more with WIDTH set, changes nothing else,
and answers a read with zeros; one that does not reach the block is an Unsupported Request and changes nothing. Basis: derived, 00_scope.md,
19_register_index.md. -/
def Obligations.RefusedWriteIsCounted : Prop :=
  let counted := fun (s t : State) (req : Requester) (off width : Nat) =>
    t.dev.g Reg.GCS_IGNORED_WRITES_COUNT = min (s.dev.g Reg.GCS_IGNORED_WRITES_COUNT + 1) (2 ^ 32 - 1) ∧
    t.dev.g Reg.GCS_LAST_IGNORED_SOURCE = req.code ∧ t.dev.g Reg.GCS_LAST_IGNORED_WIDTH = width ∧
    t.dev.g Reg.GCS_LAST_IGNORED_INTERNAL = (if req = .mgmt then 1 else 0) ∧ t.dev.g Reg.GCS_LAST_IGNORED_OFFSET = req.addrOf off % 2 ^ 48
  (∀ (s : State) (req : Requester) (off : Nat) (w : Word) (r : RegRef),
    s.dev.reachesAt req off = true → off % 4 = 0 → placeOf req off = .reg r false → r.desc.width ≠ 64 → r.home ≠ 0x10008 →
    r.desc.base < 0x100000 ∨ 0x101400 ≤ r.desc.base → r.desc.base ≠ Reg.MBX_CMD_GO.base → r.desc.base ≠ Reg.CHN_CTRL_START.base →
    (∀ (d : Dev) (old w : Nat), d.regAct req r old w = d) →
    let d := s.start.chnTouched r
    let bad := r.desc.violated (d.regEnabled r) (d.regMay req r) (d.regView req r) w.toNat ||
      (d.regMay req r && d.regRefuses r (d.reg r.home).toNat w.toNat)
    (bad = true → Runs (.registerWrite req off w) s fun t => counted s t req off 0) ∧
    (bad = false → Runs (.registerWrite req off w) s fun t =>
      t.dev.reg 0x10008 = s.dev.reg 0x10008 ∧ t.dev.reg 0x10010 = s.dev.reg 0x10010)) ∧
  (∀ (s : State) (req : Requester) (w : Word), s.dev.reaches req = true →
    Runs (.registerWrite req 0x10000 w) s fun t => t.dev.reg 0x10000 = s.dev.reg 0x10000 ∧ s.onlyRegs t [0x10008, 0x10010]) ∧
  (∀ (s : State) (req : Requester) (off len : Nat) (read : Bool),
    (s.dev.reaches req = true → Runs (.unalignedAccess req off read len) s fun t =>
      counted s t req (off / 4 * 4) 1 ∧ t.dev.emitted = (if read then [.replyBytes (List.replicate len 0)] else []) ∧
      s.onlyRegs t [0x10008, 0x10010]) ∧
    (s.dev.reaches req = false → exec (.unalignedAccess req off read len) s = .next (s.withDev [.unsupported] id)))

/-- Any write of a clearing counter sets it to 0 and is not counted. For every state and requester that reaches the block and may write global
registers, whatever word is written: CLEAR_IGNORED_WRITES leaves GCS_IGNORED_WRITES at 0 and GCS_LAST_IGNORED as it was;
CLEARING_COUNTER_WRITE of CWQ_DROPPED leaves that counter at 0, and of JNL_OCCUPANCY leaves PEAK at 0 and the read-only PERCENT as it was (a
word that differs in its read-only bits may count one ignored write). Every other register and everything else stays. Basis: stated, R22. -/
def Obligations.ClearingCountersClear : Prop :=
  ∀ (s : State) (req : Requester) (w : Word), s.dev.reaches req = true → s.dev.writesGlobal req = true →
    (Runs (.clearIgnoredWrites req w) s fun t => t.dev.g Reg.GCS_IGNORED_WRITES_COUNT = 0 ∧ s.onlyRegs t [0x10008]) ∧
    (Runs (.clearingCounterWrite req 0 w) s fun t => t.dev.g Reg.GCS_IGNORED_WRITES_COUNT = 0 ∧ s.onlyRegs t [0x10008]) ∧
    (Runs (.clearingCounterWrite req 2 w) s fun t => t.dev.g Reg.CWQ_DROPPED_COUNT = 0 ∧ s.onlyRegs t [Reg.CWQ_DROPPED_COUNT.base]) ∧
    (Runs (.clearingCounterWrite req 1 w) s fun t =>
      t.dev.g Reg.JNL_OCCUPANCY_PEAK = 0 ∧ t.dev.g Reg.JNL_OCCUPANCY_PERCENT = s.dev.g Reg.JNL_OCCUPANCY_PERCENT ∧
      s.onlyRegs t [Reg.JNL_OCCUPANCY_PEAK.base, 0x10008, 0x10010])

/-- Reads return what a register reads, and the high word of the value whose low word was read. For every state and every aligned read that
reaches its function: a read of a 32-bit register answers its value; a read of a low word answers the low word and latches the high word of
the same value for the requester; a read of a high word answers the latched word where the requester's previous register read was that low
word, and else the current high word; a reserved place answers 0. Nothing but the requester's read latch changes, and the clock gate of a
channel's cluster; a read of the GPIO inputs draws a free value. A read that does not reach its function is an Unsupported Request. Basis:
derived, 00_scope.md, 19_register_index.md. -/
def Obligations.ReadsReturnCommittedValues : Prop :=
  ∀ (s : State) (req : Requester) (off : Nat),
    let others := s.dev.bus.rlatch.filter (·.1 != req)
    (s.dev.reachesAt req off = false →
      exec (.lowWordRead req off) s = .next (s.withDev [.unsupported] id) ∧ exec (.highWordRead req off) s = .next (s.withDev [.unsupported] id)) ∧
    (s.dev.reachesAt req off = true → off % 4 = 0 →
      (placeOf req off = .reserved →
        exec (.lowWordRead req off) s = .next (s.withDev [.reply 0] fun d => { d with bus := { d.bus with rlatch := others } })) ∧
      ∀ r : RegRef,
        let after := fun (v : Nat) (l : List (Requester × Nat × Word)) (draws : Bool) =>
          ({ s with dev := { s.start.chnTouched r with emitted := [.reply (BitVec.ofNat 64 v)], bus := { s.dev.bus with rlatch := others ++ l },
                                                       freeCtr := s.dev.freeCtr + (if draws then 1 else 0) } } : State)
        let gpio := r.desc.base == Reg.MBR_GPIO_IN_PINS.base
        let v := s.dev.regView req r
        (placeOf req off = .reg r true →
          exec (.lowWordRead req off) s = .next (after (v % 2 ^ 32) [(req, r.home, BitVec.ofNat 32 (v / 2 ^ 32))] false)) ∧
        (placeOf req off = .reg r false → r.desc.width ≠ 64 → exec (.lowWordRead req off) s = .next (after v [] gpio)) ∧
        (placeOf req off = .reg r false → r.desc.width = 64 →
          (∀ x, (s.dev.bus.rlatch.find? fun x => x.1 == req && x.2.1 == r.home) = some x →
            exec (.highWordRead req off) s = .next (after x.2.2.toNat [] gpio)) ∧
          ((s.dev.bus.rlatch.find? fun x => x.1 == req && x.2.1 == r.home) = none →
            exec (.highWordRead req off) s = .next (after (v / 2 ^ 32) [] gpio))))

/-! ### The armature engine and the checkpoints -/

/-- LOAD, its refusals, and DISCARD. For every state and requester whose command acts: a LOAD by the steward where MAQ_STATE is EMPTY, STAGED or
REJECTED and the length is 64 to 0x04000000 and a multiple of 8, from host memory or from within the host area, leaves MAQ_STATE LOADING
with no maquette and no staged epoch; from an internal address outside the host area it ends REJECTED with DONE and code 0x0109, and with
any other length with code 0x0104. In another MAQ_STATE, or where the package is not the steward, it sets CMD_REFUSED and keeps maquette and
MAQ_STATE. A DISCARD by the steward where MAQ_STATE is LOADING to REJECTED leaves it EMPTY with no maquette and DONE as it was, and is
refused elsewhere. The active armature, the exception table and the fill list stay. Basis: derived, 03_armature.md. -/
def Obligations.ArmLoadAndDiscard : Prop :=
  ∀ (s : State) (req : Requester) (internal : Bool), s.dev.commands req →
    let len := s.dev.g Reg.ARM_SRC_LEN_LEN
    let legal := 64 ≤ len ∧ len ≤ 0x04000000 ∧ len % 8 = 0
    let may := s.dev.maq = 0 ∨ s.dev.maq = 3 ∨ s.dev.maq = 4
    let kept := fun (t : State) => t.dev.arm.active = s.dev.arm.active ∧ t.dev.arm.draining = s.dev.arm.draining ∧
      t.dev.arm.excs = s.dev.arm.excs ∧ t.dev.arm.fills = s.dev.arm.fills ∧ s.memKept t
    let rejected := fun (code : Nat) (t : State) => t.dev.maq = 4 ∧ t.dev.arm.maquette = none ∧ t.dev.g Reg.ARM_STATUS_DONE = 1 ∧
      t.dev.g Reg.ARM_ERROR_CODE = code ∧ t.dev.g Reg.ARM_EPOCH_STAGED_EPOCH = 0 ∧ kept t
    let refused := fun (t : State) => t.dev.g Reg.ARM_STATUS_CMD_REFUSED = 1 ∧ t.dev.maq = s.dev.maq ∧ t.dev.arm = s.dev.arm ∧ s.memKept t
    (s.dev.steward = true → may →
      (legal → internal = false ∨ s.dev.inHostArea s.dev.armSrc len = true →
        Runs (.armLoad req internal) s fun t =>
          t.dev.maq = 1 ∧ t.dev.arm.maquette = none ∧ t.dev.g Reg.ARM_EPOCH_STAGED_EPOCH = 0 ∧ kept t) ∧
      (legal → internal = true → s.dev.inHostArea s.dev.armSrc len = false → Runs (.armLoad req internal) s (rejected 0x0109)) ∧
      (¬ legal → Runs (.armLoad req internal) s (rejected 0x0104))) ∧
    (s.dev.steward = false ∨ ¬ may → Runs (.armLoad req internal) s refused) ∧
    (s.dev.steward = true → 1 ≤ s.dev.maq → s.dev.maq ≤ 4 →
      Runs (.armDiscard req internal) s fun t =>
        t.dev.maq = 0 ∧ t.dev.arm.maquette = none ∧ t.dev.g Reg.ARM_STATUS_DONE = s.dev.g Reg.ARM_STATUS_DONE ∧ kept t) ∧
    (s.dev.steward = false ∨ s.dev.maq = 0 ∨ 5 ≤ s.dev.maq → Runs (.armDiscard req internal) s refused)

/-- The end of an image copy stages the maquette or rejects it. For every state in which a LOAD copies, with the bytes of host memory that the
row brings, or those of buffer memory at an internal source (where an uncorrectable line makes the copy fail): a copy that ends in error, or
brings another number of bytes than ARM_SRC_LEN, ends REJECTED with DONE and code 0x0109; an image whose first failed check is e ends
REJECTED with DONE and e's code, qualifier, section and offset in ARM_ERROR and ARM_ERROR_OFFSET; a valid image becomes the maquette: STAGED
with DONE and its epoch in ARM_EPOCH where it adds no namespace and no key generation for a maquette waits, and VALIDATING with a key
generation asked for each where it adds namespaces. The active armature stays. With no LOAD copying, nothing changes. Basis: derived,
03_armature.md. -/
def Obligations.ArmCopyEndValidates : Prop :=
  ∀ (s : State) (ok : Bool) (img : List Byte),
    let c := s.dev.loadImage (Memory.read s.mem) ok img
    let len := s.dev.g Reg.ARM_SRC_LEN_LEN
    let rejected := fun (e : ArmErr) (t : State) =>
      t.dev.maq = 4 ∧ t.dev.g Reg.ARM_STATUS_DONE = 1 ∧ t.dev.g Reg.ARM_ERROR_CODE = e.code % 2 ^ 16 ∧
      t.dev.g Reg.ARM_ERROR_QUALIFIER = e.qual % 2 ^ 8 ∧ t.dev.g Reg.ARM_ERROR_SECTION = e.sect % 2 ^ 8 ∧
      t.dev.g Reg.ARM_ERROR_OFFSET_OFFSET = e.offset % 2 ^ 27 ∧ t.dev.arm.maquette = none ∧ t.dev.arm.active = s.dev.arm.active
    (s.dev.maq ≠ 1 → Runs (.armLoadCopyDone ok img) s s.silent) ∧
    (s.dev.maq = 1 →
      (c.1 = false ∨ c.2.length ≠ len → Runs (.armLoadCopyDone ok img) s (rejected ⟨0x0109, 0, 0, 0xFF⟩)) ∧
      (c.1 = true → c.2.length = len →
        (∀ e, validateImage (s.dev.valCtx len) c.2 = .error e → Runs (.armLoadCopyDone ok img) s (rejected e)) ∧
        (∀ a, validateImage (s.dev.valCtx len) c.2 = .ok a →
          (s.dev.addedNs a = [] → s.dev.maqKeysWait = false →
            Runs (.armLoadCopyDone ok img) s fun t =>
              t.dev.maq = 3 ∧ t.dev.g Reg.ARM_STATUS_DONE = 1 ∧ t.dev.g Reg.ARM_EPOCH_STAGED_EPOCH = a.epoch % 2 ^ 32 ∧
              t.dev.arm.maquette = some a ∧ t.dev.arm.active = s.dev.arm.active) ∧
          (s.dev.addedNs a ≠ [] → Runs (.armLoadCopyDone ok img) s fun t =>
            t.dev.maq = 2 ∧ t.dev.arm.maquette = some a ∧ t.dev.arm.active = s.dev.arm.active ∧
            t.dev.keys.wantGen = s.dev.keys.wantGen ++ (s.dev.addedNs a).map fun n => (n, true)))))

/-- A commit whose plinth write reaches fewer than two copies ends with 0x0C01. For every state in which a commit waits for its plinth write:
fewer than two acknowledgements end it with code 0x0C01, MAQ_STATE STAGED, DONE set, and the active epoch and the maquette as they were; two
or more with the vault's acceptance go on to the commit record, still COMMITTING; two or more where the vault fails end it with code 0x0C02
in the same way. Basis: stated, R136. -/
def Obligations.ArmPlinthWriteEnds : Prop :=
  ∀ (s : State) (a : Armature) (acks : Nat) (vaultOk : Bool),
    s.dev.arm.maquette = some a → s.dev.maq = 5 → s.dev.arm.commitStage = 2 →
    let back := fun (code : Nat) (t : State) =>
      t.dev.g Reg.ARM_ERROR_CODE = code ∧ t.dev.maq = 3 ∧ t.dev.g Reg.ARM_STATUS_DONE = 1 ∧ t.dev.arm = { s.dev.arm with commitStage := 0 } ∧
      t.dev.g Reg.ARM_EPOCH_ACTIVE_EPOCH = s.dev.g Reg.ARM_EPOCH_ACTIVE_EPOCH
    (acks < 2 → Runs (.armPlinthWritten acks vaultOk) s (back 0x0C01)) ∧
    (2 ≤ acks → vaultOk = false → Runs (.armPlinthWritten acks vaultOk) s (back 0x0C02)) ∧
    (2 ≤ acks → vaultOk = true → Runs (.armPlinthWritten acks vaultOk) s fun t =>
      t.dev.maq = 5 ∧ t.dev.arm = { s.dev.arm with commitStage := 3 } ∧ t.dev.emitted = [.vault "armature" a.epoch])

/-- COMMIT, the commit point, and the end of the drain. For every state: a COMMIT that may start (a STAGED maquette that passes the state-
dependent checks, no epoch draining, no erasure, the steward, not mirroring, an active armature) leaves MAQ_STATE COMMITTING and sends the
image to its slot on every plinth copy. When the commit record is durable, no write of a resolved row is on its way and no group changes its
bifurcation mode, the maquette becomes the active armature, the old one drains, and there is no maquette; while a write of its rows waits
for a snoop's answer, the commit waits, still COMMITTING. When nothing holds the draining epoch and no erasure waits, the old epoch's rows
are written invalid; with no region powered the drain ends at once: no epoch drains, DRAINING is clear and DONE is set; with one powered it
ends when those writes are globally visible. Basis: derived, 03_armature.md, 08_codec_fabric.md. -/
def Obligations.ArmCommitSwitchesEpoch : Prop :=
  ∀ (s : State) (a : Armature),
    (∀ (req : Requester) (internal : Bool), s.dev.commands req → s.dev.arm.maquette = some a → s.dev.maq = 3 → s.dev.on Reg.ARM_STATUS_DRAINING = false →
      s.dev.steward = true → s.dev.nvm.erases = [] → s.dev.mirroring = false → s.dev.arm.active.isSome = true →
      commitErr (s.dev.valCtx a.image.length) a = none →
      Runs (.armCommit req internal) s fun t =>
        t.dev.maq = 5 ∧ t.dev.arm = { s.dev.arm with commitStage := 2 } ∧
        t.dev.emitted = [.plinth "armature" a.epoch (s.dev.armWrites (s.dev.arm.plinth.dir.slotFor a.epoch) a)]) ∧
    (s.dev.arm.maquette = some a → s.dev.maq = 5 → s.dev.arm.commitStage = 3 →
      (s.dev.fab.rowWrites = [] → s.dev.sameModes a → Runs .armCommitPoint s fun t =>
        t.dev.arm.active = some a ∧ t.dev.arm.draining = s.dev.arm.active ∧ t.dev.arm.maquette = none ∧ t.dev.maq = 0 ∧
        t.dev.g Reg.ARM_EPOCH_ACTIVE_EPOCH = a.epoch % 2 ^ 32) ∧
      (s.dev.rowsPending a.epoch = true → (∀ w ∈ s.dev.fab.rowWrites, w.left ≠ []) → Runs .armCommitPoint s fun t =>
        t.dev.maq = 5 ∧ t.dev.arm.commitStage = 4 ∧ t.dev.arm.active = s.dev.arm.active ∧ t.dev.arm.maquette = some a)) ∧
    (∀ o, s.dev.arm.draining = some o → s.dev.drainCount = 0 → s.dev.nvm.erases = [] → s.dev.fab.rowWrites = [] → s.dev.arm.commitStage ≠ 4 →
      ((∀ r < 8, s.dev.powered r = false) ∨ o.lines = [] → Runs .armDrainEnd s fun t =>
        t.dev.arm.draining = none ∧ t.dev.g Reg.ARM_STATUS_DRAINING = 0 ∧ t.dev.g Reg.ARM_STATUS_DONE = 1 ∧
        t.dev.g Reg.ARM_EPOCH_DRAINING_EPOCH = 0 ∧ t.dev.arm.active = s.dev.arm.active) ∧
      ((∃ r < 8, s.dev.powered r = true) → o.lines ≠ [] → Runs .armDrainEnd s fun t =>
        t.dev.arm = s.dev.arm ∧ t.dev.regs = s.dev.regs ∧
        t.dev.fab.rowWrites = [⟨o.lines.flatMap fun k => ((List.range 8).filter s.dev.powered).map fun r => (k, r), .drained⟩]))

/-- Each checkpoint trigger starts the exception checkpoint. For every state in which the journal runs with an active armature that has a plinth
pool, on the steward, once a plinth directory has been written: with no checkpoint being written, the interval's expiry, a write of CKPT_NOW
by a requester whose command acts, and unretired metadata above 1/16 of the header slots each start the exception checkpoint, which captures
the head and the exception entries and writes them to the older area, and then the directory that names that area, one sequence further, to
the block that does not hold the newest one; no register changes. While a checkpoint is being written, each only notes that another trigger
has come. Basis: derived, 03_armature.md, 05_write_path.md. -/
def Obligations.CheckpointTriggersStart : Prop :=
  ∀ (s : State) (a : Armature) (p : Nat) (c : PoolCfg), s.dev.arm.active = some a → a.plinthCfg = some (p, c) →
    let dir := s.dev.arm.plinth.dir
    let n := s.dev.jnl.eckpt.number + 1
    let area : PArea := ⟨n, s.dev.head, s.dev.arm.excs.length, crc32c (excBytes s.dev.arm.excs)⟩
    let starts := fun (i : Instr) => Runs i s fun t =>
      t.dev.jnl = { s.dev.jnl with ckpt := some ⟨s.dev.head, s.dev.arm.excs, false, [], [], 0, dir, false⟩ } ∧
      t.dev.arm = { s.dev.arm with plinth := { s.dev.arm.plinth with
        dir := { dir.withArea dir.olderArea area with seq := dir.seq + 1 }, block := 1 - s.dev.arm.plinth.block } } ∧
      (∃ ws, t.dev.emitted = [.plinth "exception checkpoint" n
        (s.dev.plinthWrites (plinthExcAt c a.excCapacity dir.olderArea) 0 (blocksOf (excBytes s.dev.arm.excs))), .plinth "directory" (dir.seq + 1) ws]) ∧
      t.dev.regs = s.dev.regs ∧ s.memKept t
    let notes := fun (i : Instr) (x : CkptRun) =>
      exec i s = .next (s.withDev [] fun d => { d with jnl := { d.jnl with ckpt := some { x with again := true } } })
    (s.dev.running = true → s.dev.steward = true → dir.seq ≠ 0 → s.dev.jnl.ckpt = none →
      starts .ckptIntervalExpiry ∧ (∀ req, s.dev.commands req → starts (.ckptNow req)) ∧
      (s.dev.g Reg.JNL_HDR_SLOTS_COUNT < 16 * s.dev.metaRecs.length → starts .ckptMetadataTrigger)) ∧
    (∀ x, s.dev.jnl.ckpt = some x → notes .ckptIntervalExpiry x ∧ (∀ req, s.dev.commands req → notes (.ckptNow req) x) ∧
      (s.dev.g Reg.JNL_HDR_SLOTS_COUNT < 16 * s.dev.metaRecs.length → notes .ckptMetadataTrigger x))

/-- A checkpoint retires the records it covers once two plinth copies hold it. For every state in which a checkpoint is being written and no two
records of a journal share a sequence number (R186): when fewer than two copies acknowledge the exception checkpoint, CKPT_FAIL is set, no
record changes, the directory names again the areas that it named before, and the journal checkpoint of the trigger starts with the head,
the member states and the lost ranges; with two or more its entries are the durable ones and every exception record up to the sequence it
covers is retired. When fewer than two acknowledge the journal checkpoint, CKPT_FAIL is set, no record changes and, where no other trigger
has come meanwhile, no checkpoint runs; with two or more its image is the durable one, in the other area, and every MEMBER_STATE and LOST
record that it covers is retired. With no such checkpoint under way nothing changes. Basis: derived, 03_armature.md, 05_write_path.md. -/
def Obligations.CheckpointDurableRetires : Prop :=
  (∀ (s : State) (acks : Nat),
    ((∀ x, s.dev.jnl.ckpt = some x → x.excDone = true) → Runs (.excCheckpointDurable acks) s s.silent) ∧
    ((∀ x, s.dev.jnl.ckpt = some x → x.excDone = false) → Runs (.journalCheckpointDurable acks) s s.silent)) ∧
  (∀ (s : State) (x : CkptRun) (acks : Nat), s.dev.jnl.ckpt = some x → s.dev.seqsDistinct →
    let y := { x with covered := s.dev.head, excDone := true, members := s.dev.memberEntries, lost := s.dev.jnl.lost, peerSeq := s.dev.acd.applied }
    (x.excDone = false →
      (acks < 2 → Runs (.excCheckpointDurable acks) s fun t =>
        t.dev.g Reg.JNL_STATUS_CKPT_FAIL = 1 ∧ t.dev.jnl = { s.dev.jnl with ckpt := some y } ∧
        t.dev.arm.plinth.dir = { s.dev.arm.plinth.dir with exc0 := x.oldDir.exc0, exc1 := x.oldDir.exc1 } ∧
        s.dev.regsKept t.dev [Reg.JNL_STATUS_CKPT_FAIL.base]) ∧
      (2 ≤ acks → Runs (.excCheckpointDurable acks) s fun t =>
        t.dev.jnl.eckpt = ECkpt.mk (s.dev.jnl.eckpt.number + 1) x.covered x.excs ∧
        ∀ r ∈ t.dev.jnl.recs, (r.typ = .excInsert ∨ r.typ = .excDelete) → r.seq ≤ x.covered → r.retired = true)) ∧
    (x.excDone = true → x.again = false →
      (acks < 2 → Runs (.journalCheckpointDurable acks) s fun t =>
        t.dev.g Reg.JNL_STATUS_CKPT_FAIL = 1 ∧ t.dev.jnl = { s.dev.jnl with ckpt := none } ∧
        s.dev.regsKept t.dev [Reg.JNL_STATUS_CKPT_FAIL.base]) ∧
      (2 ≤ acks → Runs (.journalCheckpointDurable acks) s fun t =>
        t.dev.jnl.ckpt = none ∧ t.dev.jnl.jckpt = JCkpt.mk (s.dev.jnl.jckpt.number + 1) x.covered x.members x.lost ∧
        t.dev.arm.plinth.jckArea = 1 - s.dev.arm.plinth.jckArea ∧
        ∀ r ∈ t.dev.jnl.recs, (r.typ = .memberState ∨ r.typ = .lost) → r.seq ≤ x.covered → r.retired = true)))

/-! ### Buffer memory -/

/-- Initialisation zeroes the host area, and CLR_COUNTS clears the line counters. For every state of a COLD exit that waits for the buffer with
the options loaded: BUF_INIT_DONE zeroes every byte of the host area, forgets its bad lines, sets INIT_DONE and passes to the next step of
the exit; with no dump chosen it leaves the journal and every other register but VLT_STATUS, whose SOURCE is 0. In any other state
BUF_INIT_DONE changes nothing. For every state and requester whose command acts, CLR_COUNTS sets the corrected and uncorrectable line
counters to 0, and nothing else changes. Basis: derived, 04_buffer_memory.md, 16_reset_and_options.md. -/
def Obligations.BufferInitAndClear : Prop :=
  (∀ s : State, s.dev.rst.reach = 5 → s.dev.rst.step = 2 → s.dev.on Reg.RST_STATUS_OPT_VALID = true →
    Runs .bufInitDone s fun t =>
      (∀ a, Memory.read t.mem a = 0) ∧ t.dev.g Reg.BUF_STATUS_INIT_DONE = 1 ∧ t.dev.badHost = [] ∧ t.dev.rst.step = 3 ∧ t.pending = s.pending ∧
      (s.dev.vlt.chosen = none → t.dev.jnl = s.dev.jnl ∧ t.dev.g Reg.VLT_STATUS_SOURCE = 0 ∧
        s.dev.regsKept t.dev [Reg.BUF_STATUS_INIT_DONE.base, Reg.VLT_STATUS_SOURCE.base])) ∧
  (∀ s : State, s.dev.rst.reach ≠ 5 ∨ s.dev.rst.step ≠ 2 ∨ s.dev.on Reg.RST_STATUS_OPT_VALID = false → Runs .bufInitDone s s.silent) ∧
  (∀ (s : State) (req : Requester), s.dev.commands req →
    exec (.bufClrCounts req) s = .next (s.withDev [] fun d => ((d.setReg 0x280010 0).setReg 0x280014 0).setReg 0x280018 0))

/-- A line is corrected and written back, or is recorded and counted as uncorrectable. For every state and address in the host area whose line
is not known bad, with any errors in its 72 bytes: where the outer code decodes them to another codeword, BUF_UNCORRECTABLE_LINE counts a
correction for the line's stack and writes the codeword's 64 bytes back, and no other byte changes; where it cannot decode them, the class
BULK, the source and the line are recorded in BUF_LAST_UE, counted, UE_SEEN is set and the line becomes one that reads poisoned; where they
are a codeword, only a correction that the stack reports is counted. An address above the HBM changes nothing. JOURNAL_LINE_REPAIR of a
record whose lines arrived only takes it off the list of records to be mended; one that the partner cannot give is lost; one not on the list
changes nothing. PATROL_SCRUB of a line without outer errors, while the scrub runs, counts what the stack reports and goes on to the next
line, after the last line to the first with one pass more; while the scrub is paused it changes nothing. Basis: derived,
04_buffer_memory.md. -/
def Obligations.LineErrorsAreRecorded : Prop :=
  (∀ (s : State) (addr source : Nat) (err : List Byte) (use : LineUse) (how : LineRebuild), s.dev.area addr = .host → addr < s.dev.hbmTop →
    s.dev.badHost.contains (addr / 64) = false →
    let w := (List.range 72).map fun i => (s.mem.line72 (addr / 64)).getD i 0 ^^^ err.getD i 0
    let inner := if stackOf addr then Reg.BUF_CE_COUNT1_INNER else Reg.BUF_CE_COUNT0_INNER
    let outer := if stackOf addr then Reg.BUF_CE_COUNT1_OUTER else Reg.BUF_CE_COUNT0_OUTER
    (∀ c, s.mem.wf → rsDecode w = some c → c ≠ w → Runs (.bufUncorrectableLine addr source false err use how) s fun t =>
      t.dev.g outer = min (s.dev.g outer + 1) (fldMax outer) ∧ s.dev.regsKept t.dev [outer.base] ∧ t.dev.badHost = s.dev.badHost ∧
      (∀ i < 64, Memory.read t.mem (addr / 64 * 64 + i) = c.getD i 0) ∧
      ∀ x, x < 2 ^ 48 → x / 64 ≠ addr / 64 → Memory.read t.mem x = Memory.read s.mem x) ∧
    (rsDecode w = none → Runs (.bufUncorrectableLine addr source false err use how) s fun t =>
      t.dev.g Reg.BUF_LAST_UE_CLASS = 2 ∧ t.dev.g Reg.BUF_LAST_UE_SOURCE = source % 4 ∧ t.dev.g Reg.BUF_LAST_UE_LINE = addr / 64 ∧
      t.dev.g Reg.BUF_STATUS_UE_SEEN = 1 ∧ t.dev.g Reg.BUF_UE_COUNT_BULK = min (s.dev.g Reg.BUF_UE_COUNT_BULK + 1) 1023 ∧
      addr / 64 ∈ t.dev.badHost ∧ t.dev.jnl = s.dev.jnl ∧ s.memKept t) ∧
    (rsDecode w = some w → Runs (.bufUncorrectableLine addr source true err use how) s (fun t =>
        t.dev.g inner = min (s.dev.g inner + 1) (fldMax inner) ∧ s.onlyRegs t [inner.base]) ∧
      Runs (.bufUncorrectableLine addr source false err use how) s s.silent)) ∧
  (∀ (s : State) (addr source : Nat) (inner : Bool) (err : List Byte) (use : LineUse) (how : LineRebuild), s.dev.hbmTop ≤ addr →
    Runs (.bufUncorrectableLine addr source inner err use how) s s.silent) ∧
  (∀ (s : State) (seq : Nat),
    (s.dev.jnl.fixing.contains seq = false → ∀ ok, Runs (.journalLineRepair seq ok) s s.silent) ∧
    (seq ∈ s.dev.jnl.fixing →
      exec (.journalLineRepair seq true) s = .next (s.withDev [] fun d => { d with jnl := { d.jnl with fixing := d.jnl.fixing.filter (· ≠ seq) } }) ∧
      ∀ r, s.dev.jnl.recs.find? (·.seq = seq) = some r → r.retired = false → s.dev.recRanges r = [] →
        Runs (.journalLineRepair seq false) s fun t => seq ∉ t.dev.jnl.fixing ∧ ∀ x ∈ t.dev.jnl.recs, x.seq = seq → x.lost = true)) ∧
  (∀ (s : State) (inner : Bool) (err : List Byte) (use : LineUse) (how : LineRebuild),
    let w := (List.range 72).map fun i => (s.mem.line72 s.dev.scrubLine).getD i 0 ^^^ err.getD i 0
    let f := if stackOf (64 * s.dev.scrubLine) then Reg.BUF_CE_COUNT1_INNER else Reg.BUF_CE_COUNT0_INNER
    let counted := fun (t : State) => t.dev.g f = (if inner then min (s.dev.g f + 1) (fldMax f) else s.dev.g f)
    (s.dev.on Reg.BUF_STATUS_SCRUB_PAUSED = true ∨ s.dev.on Reg.BUF_STATUS_INIT_DONE = false ∨ s.dev.rst.reach ≠ 0 ∧ s.dev.rst.step = 0 →
      Runs (.patrolScrub inner err use how) s s.silent) ∧
    (s.dev.on Reg.BUF_STATUS_SCRUB_PAUSED = false → s.dev.on Reg.BUF_STATUS_INIT_DONE = true → s.dev.rst.reach = 0 ∨ s.dev.rst.step ≠ 0 →
      s.dev.badHost.contains s.dev.scrubLine = false → rsDecode w = some w → 64 * s.dev.scrubLine < s.dev.hbmTop →
      (64 * (s.dev.scrubLine + 1) < s.dev.hbmTop → Runs (.patrolScrub inner err use how) s fun t =>
        t.dev.scrubLine = s.dev.scrubLine + 1 ∧ counted t ∧ t.dev.badHost = s.dev.badHost ∧ s.dev.regsKept t.dev [f.base] ∧ s.memKept t) ∧
      (s.dev.hbmTop ≤ 64 * (s.dev.scrubLine + 1) → Runs (.patrolScrub inner err use how) s fun t =>
        t.dev.scrubLine = 0 ∧ t.dev.g Reg.BUF_SCRUB_PASSES = min (s.dev.g Reg.BUF_SCRUB_PASSES + 1) (fldMax Reg.BUF_SCRUB_PASSES) ∧
        counted t ∧ s.dev.regsKept t.dev [f.base, Reg.BUF_SCRUB_PASSES.base] ∧ s.memKept t)))

/-! ### The write path -/

/-- A host Write, Write Zeroes or Deallocate becomes journal records, one for each stripe, in groups of 512 blocks. For every state in which no
erasure, pool transfer or firmware commit waits, and every command whose namespace is not held for a key switch and whose queue may be
fetched, with a range (for Dataset Management up to 256 ranges) inside the namespace, no group waiting, the journal in RUN and room for it:
the records that join the journal are those of the range cut into groups of 512 blocks and each group cut at stripe boundaries, with
consecutive sequence numbers above the head, the namespace, the pool, the active epoch, the command's FUA and, for WRITE, each block
encrypted under the namespace's key and its LBA (none for WRITE_ZEROES and a Deallocate); each group is unpublished and belongs to the
command; the head rises by their number, the tail stays, no completion is sent and memory stays. WRITE comes to that where its data is
whole, no block fails its protection information check and no engine copy disagrees; where one disagrees it completes with Data Transfer
Error, and where the range fails its check with that status, the journal kept. Dataset Management without Deallocate completes with success,
the journal kept. A command that may not be fetched, or whose namespace is held, changes nothing. Basis: derived, 05_write_path.md,
07_integrity_and_encryption.md, 11_host_nvme.md. -/
def Obligations.HostWritesAdmitRecords : Prop :=
  ∀ (s : State) (h : HostIo) (data : List Block) (md : List (List Byte)) (ranges : List (Nat × Nat)), s.dev.calm →
    (s.dev.nsHeld h.nsid = true ∨ s.dev.fetchable h.portB h.sq = false → Runs (.write h data md) s s.silent ∧
      Runs (.writeZeroes h) s s.silent ∧ ∀ de, Runs (.datasetManagement h de ranges) s s.silent) ∧
    (s.dev.nsHeld h.nsid = false → s.dev.fetchable h.portB h.sq = true →
      let ends := fun (st : NvStatus) (t : State) => t.dev.jnl = s.dev.jnl ∧ t.answers h.portB h.sq h.cid st 0 ∧ s.memKept t
      (h.cid < tunnelCid → s.dev.canPost h.portB h.sq →
        (∀ st, s.dev.rangeError h.nsid h.slba h.nlb = some st →
          Runs (.write h data md) s (ends st) ∧ Runs (.writeZeroes h) s (ends st)) ∧
        (∀ st, s.dev.nsError h.nsid = some st → ∀ de, Runs (.datasetManagement h de ranges) s (ends st)) ∧
        (s.dev.nsError h.nsid = none → Runs (.datasetManagement h false ranges) s (ends .success)) ∧
        (∀ i < h.nlb, i ∈ h.xtsFaults → s.dev.rangeError h.nsid h.slba h.nlb = none → data.length = h.nlb →
          (∀ k b, data[k]? = some b → s.dev.writePiError h k b (md.getD k []) = none) →
          Runs (.write h data md) s (ends .dataTransferError))) ∧
      ∀ (n : ArmNs) (c : PoolCfg), s.dev.nsPool h.nsid = some (n, c) → 0 < c.stripeBlocks → s.dev.jnl.waiting = [] → s.dev.running = true →
        (∀ x ∈ s.dev.cmds, x.id ≠ s.dev.nextId) →
        let parts := fun (rs : List (Nat × Nat)) => (rs.flatMap fun r => groupRuns (r.2 / 512 + 1) r.1 r.2).map fun g => stripeRuns n c (g.2 + 1) g.1 g.2
        let fits := fun (rs : List (Nat × Nat)) => (parts rs).flatten.length ≤ s.dev.freeSlots ∧ s.dev.head + (parts rs).flatten.length < 2 ^ 64
        let admitted := fun (typ : RecType) (rs : List (Nat × Nat)) (blocks : List Block) (t : State) =>
          t.dev.head = s.dev.head + (parts rs).flatten.length ∧ t.dev.tail = s.dev.tail ∧ s.memKept t ∧
          (∀ b q k st x w, Emit.cpl b q k st x w ∉ t.dev.emitted) ∧
          (∃ gs, t.dev.jnl.groups = s.dev.jnl.groups ++ gs ∧ gs.map (·.count) = (parts rs).map (·.length) ∧
            ∃ x, t.dev.cmds = s.dev.cmds ++ [x] ∧ x.cid = h.cid ∧ x.sq = h.sq ∧
              ∀ g ∈ gs, g.use = .host x.id ∧ g.published = false ∧ g.committed = false) ∧
          ∃ new, t.dev.jnl.recs = s.dev.jnl.recs ++ new ∧
            new.map (fun r => (r.stripe, r.pos, r.len)) = (parts rs).flatten ∧
            new.map (·.seq) = (List.range new.length).map (s.dev.head + 1 + ·) ∧
            ∀ r ∈ new, r.typ = typ ∧ r.nsid = n.nsid ∧ r.pool = n.pool ∧ r.epoch = s.dev.epoch ∧ r.fua = h.fua ∧
              r.blocks = (blocks.drop (r.pos - h.slba)).take (if typ = .zero then 0 else r.len)
        (0 < h.nlb → s.dev.rangeError h.nsid h.slba h.nlb = none → fits [(h.slba, h.nlb)] →
          (data.length = h.nlb → h.nlb ≤ s.dev.freePay → (∀ i < h.nlb, i ∉ h.xtsFaults) →
            (∀ k b, data[k]? = some b → s.dev.writePiError h k b (md.getD k []) = none) →
            Runs (.write h data md) s (admitted .write [(h.slba, h.nlb)]
              (data.zipIdx.map fun bi => xts (s.dev.nsKey h.nsid) (h.slba + bi.2) bi.1))) ∧
          Runs (.writeZeroes h) s (admitted .zero [(h.slba, h.nlb)] [])) ∧
        (s.dev.nsError h.nsid = none → ranges.length ≤ 256 → (∀ r ∈ ranges, r.1 + r.2 ≤ s.dev.nsCapacity h.nsid) →
          (∃ r ∈ ranges, r.2 ≠ 0) → fits (ranges.filter (·.2 ≠ 0)) →
          Runs (.datasetManagement h true ranges) s (admitted .zero (ranges.filter (·.2 ≠ 0)) [])))

/-- Groups are admitted in order, published whole, and complete their host command when their copies are in place. For every state in which no
erasure, transfer or firmware commit waits: GROUP_ADMIT, with no destage waiting for an admission, admits the first waiting group with
consecutive sequence numbers and its records' contents where it fits and the journal runs, and else changes nothing. LOCAL_COPY_IN_PLACE of
a group that is not published publishes exactly that group and marks its records in place; where its mirror copy is still awaited, nothing
else changes; where none is, every other published group is committed and it belongs to a host command, it is committed: as the command's
last group without FUA it posts the command's success, with FUA the command waits on while a record of it is unretired, and where other
groups remain the command waits for them. It changes nothing for a group that is published or unknown. MIRROR_ACK from a live partner, which
covers the group's last sequence, raises the acknowledged sequence and does the same for a published group while mirroring. Head, tail and
the number of records stay at a publication and a commitment; groups are told apart by their first sequence (R186). Basis: derived,
05_write_path.md, 11_host_nvme.md, 14_accord.md. -/
def Obligations.GroupsAdmitPublishCommit : Prop :=
  (∀ s : State, s.dev.calm → (∀ o ∈ s.dev.ops, o.phase ≠ .gather) →
    (s.dev.jnl.waiting = [] → Runs .groupAdmit s s.silent) ∧
    ∀ (w : WaitGroup) (rest : List WaitGroup), s.dev.jnl.waiting = w :: rest →
      (s.dev.fits w.recs = false ∨ s.dev.running = false → Runs .groupAdmit s s.silent) ∧
      (s.dev.fits w.recs = true → s.dev.running = true → s.dev.head + w.recs.length < 2 ^ 64 →
        Runs .groupAdmit s fun t =>
          t.dev.head = s.dev.head + w.recs.length ∧ t.dev.tail = s.dev.tail ∧ t.dev.jnl.waiting = rest ∧
          t.dev.jnl.groups = s.dev.jnl.groups ++ [JGroup.mk (s.dev.head + 1) w.recs.length w.use false false] ∧
          ∃ new, t.dev.jnl.recs = s.dev.jnl.recs ++ new ∧ new.map (·.seq) = (List.range w.recs.length).map (s.dev.head + 1 + ·) ∧
            new.map (fun r => (r.typ, r.nsid, r.pos, r.len, r.pool, r.stripe, r.blocks, r.entries)) =
              w.recs.map fun r => (r.typ, r.nsid, r.pos, r.len, r.pool, r.stripe, r.blocks, r.entries))) ∧
  (∀ (s : State) (g : JGroup), s.dev.calm → g ∈ s.dev.jnl.groups → g.committed = false → (s.dev.jnl.groups.map (·.first)).Nodup →
    (∀ x ∈ s.dev.jnl.groups, x ≠ g → x.published = true → x.committed = true) →
    let groups := fun (c : Bool) => s.dev.jnl.groups.map fun x => if x.first = g.first then { x with published := true, committed := c } else x
    let placed := fun (t : State) => t.dev.jnl.recs = s.dev.jnl.recs.map fun r => if r.first = g.first then { r with inPlace := true } else r
    let same := fun (t : State) => t.dev.head = s.dev.head ∧ t.dev.tail = s.dev.tail ∧ s.memKept t
    let commits := fun (i : Instr) (recs : State → Prop) => ∀ c : HostCmd, g.use = .host c.id → s.dev.cmds.filter (·.id = c.id) = [c] →
      (c.groupsLeft = 1 → c.fua = false → c.detached = false → c.cid < tunnelCid → s.dev.canPost c.portB c.sq →
        Runs i s fun t => t.dev.jnl.groups = groups true ∧ recs t ∧ same t ∧ (∀ x ∈ t.dev.cmds, x.id ≠ c.id) ∧
          t.answers c.portB c.sq c.cid .success 0) ∧
      (c.groupsLeft = 1 → c.fua = true → (∃ r ∈ s.dev.jnl.recs, r.first = g.first ∧ r.retired = false) →
        Runs i s fun t => t.dev.jnl.groups = groups true ∧ recs t ∧ same t ∧ ∃ x ∈ t.dev.cmds, x.id = c.id ∧ x.groupsLeft = 0) ∧
      (1 < c.groupsLeft → Runs i s fun t => t.dev.jnl.groups = groups true ∧ recs t ∧ same t ∧ t.dev.emitted = [] ∧
        ∃ x ∈ t.dev.cmds, x.id = c.id ∧ x.groupsLeft = c.groupsLeft - 1)
    (g.published = false →
      (s.dev.mirrored g = false → Runs (.localCopyInPlace g.first) s fun t =>
        t.dev.jnl.groups = groups false ∧ placed t ∧ same t ∧ t.dev.cmds = s.dev.cmds ∧ t.dev.emitted = []) ∧
      (s.dev.mirrored g = true → commits (.localCopyInPlace g.first) placed)) ∧
    (g.published = true → s.dev.mirroring = true → s.dev.peerLive = true → ∀ seq, g.first + g.count - 1 ≤ seq → seq < 2 ^ 64 →
      commits (.mirrorAck seq) fun t => t.dev.jnl.recs = s.dev.jnl.recs ∧ t.dev.g Reg.ACD_ACKED_SEQ = max seq (s.dev.g Reg.ACD_ACKED_SEQ))) ∧
  (∀ (s : State) (first seq : Nat), s.dev.calm →
    ((∀ g ∈ s.dev.jnl.groups, g.first = first → g.published = true) → Runs (.localCopyInPlace first) s s.silent) ∧
    (s.dev.peerLive = false → Runs (.mirrorAck seq) s s.silent))

/-- Drydown: the idle trigger, settling, the choice of a stripe, the lock grant, and the barrier. For every state: DRYDOWN_IDLE_EXPIRY with
IDLE_US set raises the idle trigger and shows DRYING exactly where the journal runs outside power states that pause background work, and
with IDLE_US 0 changes nothing. DESTAGE_SETTLE_EXPIRY makes exactly the named stripe eligible where it holds records and is not eligible
yet, and else changes nothing. JNL_BARRIER by a requester whose command acts sets JNL_BARRIER_SEQ to the head and is pending, or done where
nothing is unretired. In a state where no erasure, transfer or firmware commit waits: DESTAGE_START, where drydown runs or a decode of the
chosen stripe is held, below MAX_INFLIGHT starts one destage of the next stripe, which asks for EXCLUSIVE on it; with no eligible stripe, at
the limit, or with neither reason it changes nothing. STRIPE_LOCK_GRANT gives the first request of a stripe's queue the lock where its
holders allow it: a degraded read keeps its epoch and waits for a channel, a destage takes the active epoch, its stripe's published records
in order and their newest generation, and waits for a channel; both take the head at the grant. Where no request can be granted nothing
changes. Basis: derived, 05_write_path.md. -/
def Obligations.DrydownAndLocks : Prop :=
  (∀ s : State,
    (s.dev.g Reg.JNL_DRY_CFG_IDLE_US = 0 → Runs .drydownIdleExpiry s s.silent) ∧
    (s.dev.g Reg.JNL_DRY_CFG_IDLE_US ≠ 0 →
      Runs .drydownIdleExpiry s fun t =>
        t.dev.jnl = { s.dev.jnl with idle := true } ∧
        (s.dev.running = true → s.dev.nonOperational = false ∨ s.dev.noppme = true → t.dev.g Reg.JNL_STATUS_DRYING = 1) ∧
        (s.dev.running = false ∨ s.dev.nonOperational = true ∧ s.dev.noppme = false → t.dev.g Reg.JNL_STATUS_DRYING = 0) ∧
        t.dev.g Reg.JNL_STATUS_STATE = s.dev.g Reg.JNL_STATUS_STATE ∧
        s.dev.regsKept t.dev [Reg.JNL_STATUS_DRYING.base, Reg.JNL_OCCUPANCY_PEAK.base, Reg.JNL_LOST_COUNT_RANGES.base] ∧ s.memKept t) ∧
    (∀ pool st, let settled := s.withDev [] fun d => { d with jnl := { d.jnl with settled := d.jnl.settled ++ [(pool, st)] } }
      (s.dev.hasRecords pool st = true → s.dev.jnl.settled.contains (pool, st) = false → exec (.destageSettleExpiry pool st) s = .next settled) ∧
      (s.dev.hasRecords pool st = false ∨ s.dev.jnl.settled.contains (pool, st) = true → Runs (.destageSettleExpiry pool st) s s.silent)) ∧
    (∀ req, s.dev.commands req →
      Runs (.jnlBarrier req) s fun t =>
        t.dev.g Reg.JNL_BARRIER_SEQ_SEQ = s.dev.head ∧ t.dev.jnl = s.dev.jnl ∧ s.memKept t ∧
        (s.dev.tail ≤ s.dev.head → t.dev.g Reg.JNL_STATUS_BARRIER_PENDING = 1) ∧
        (s.dev.head < s.dev.tail → t.dev.g Reg.JNL_STATUS_BARRIER_PENDING = 0 ∧ t.dev.g Reg.JNL_STATUS_BARRIER_DONE = 1) ∧
        s.dev.regsKept t.dev [Reg.JNL_BARRIER_SEQ_SEQ.base, Reg.JNL_STATUS_DRYING.base, Reg.JNL_OCCUPANCY_PEAK.base, Reg.JNL_LOST_COUNT_RANGES.base])) ∧
  (∀ s : State, s.dev.calm →
    let held := fun (pool st : Nat) => s.dev.running && s.dev.ops.any fun o => o.phase == .held && o.pool == pool && o.stripe == st
    let room := (s.dev.ops.filter (·.kind == .destage)).length < min 4096 (max 1 (s.dev.g Reg.JNL_DRY_LIMITS_MAX_INFLIGHT))
    (s.dev.nextStripe = none ∨ ¬ room → Runs .destageStart s s.silent) ∧
    ∀ pool st, s.dev.nextStripe = some (pool, st) →
      (s.dev.drydown = false → held pool st = false → Runs .destageStart s s.silent) ∧
      (s.dev.drydown = true ∨ held pool st = true → room →
        Runs .destageStart s fun t =>
          (∃ o, t.dev.ops = s.dev.ops ++ [o] ∧ o.id = s.dev.nextId ∧ o.kind = .destage ∧ o.pool = pool ∧ o.stripe = st ∧ o.phase = .waitLock) ∧
          ((∃ l ∈ t.dev.locks, l.pool = pool ∧ l.stripe = st ∧ (s.dev.nextId, true) ∈ l.queue) ∨
            (∃ w ∈ t.dev.setWait, w.op = s.dev.nextId ∧ w.pool = pool ∧ w.stripe = st ∧ w.excl = true)) ∧
          t.dev.jnl = s.dev.jnl)) ∧
  (∀ (s : State) (pool st : Nat), s.dev.calm →
    let here := fun (x : Lock) => x.pool == pool && x.stripe == st
    (s.dev.locks.find? here = none → Runs (.stripeLockGrant pool st) s s.silent) ∧
    ∀ l, s.dev.locks.find? here = some l →
      (l.grantable = false → Runs (.stripeLockGrant pool st) s s.silent) ∧
      ∀ (o : Op) (op : Nat) (excl : Bool) (rest : List (Nat × Bool)), l.queue = (op, excl) :: rest → l.grantable = true → s.dev.op op = some o →
        let granted := fun (epoch : Nat) (t : State) =>
          t.dev.locks = s.dev.locks.map (fun x => if here x then { x with excl := excl, holders := x.holders ++ [op], queue := rest } else x) ∧
          t.dev.jnl = s.dev.jnl ∧
          ∃ o', t.dev.op op = some o' ∧ o'.epoch = epoch ∧ o'.headAtGrant = s.dev.head ∧ o'.phase = .waitChannel
        (∀ cmd, o.kind = .degraded cmd → (s.dev.opPool o).isSome = true →
          Runs (.stripeLockGrant pool st) s (granted o.epoch)) ∧
        (o.kind = .destage → o.pass2 = false → o.recs = [] → o.arecs = [] → (s.dev.opPool { o with epoch := s.dev.epoch }).isSome = true →
          let mine := fun (r : JRec) => !r.retired && !r.lost && !r.typ.isMeta && r.pool == o.pool && r.stripe == o.stripe
          let recs := s.dev.jnl.recs.filter fun r => mine r && s.dev.published r
          let adopted := s.dev.acd.adopted.filter mine
          recs ++ adopted ≠ [] →
          Runs (.stripeLockGrant pool st) s fun t => granted s.dev.epoch t ∧
            ∃ o', t.dev.op op = some o' ∧ o'.recs = recs.map (·.seq) ∧ o'.arecs = adopted.map (·.seq) ∧
              o'.gen = (((recs ++ adopted).map (·.seq)).foldl max 0) % 2 ^ 32))

/-- Reads that the journal serves, the races and waits of degraded reads, and replay. For every state in which no erasure, transfer or firmware
commit waits: a READ or VERIFY that may be fetched and is not held, with its range in the namespace, every block of which the journal
answers, ends at once and changes neither journal nor member commands: where a block is lost with Unrecovered Read Error, else, with no
engine mismatch, with the status of the first block that fails its protection information check, and else with success, READ returning each
block decrypted under its LBA (zeros for a ZERO record) and VERIFY none. One that is held or may not be fetched changes nothing.
SUSPECT_READ_SLOW of an outstanding host read on a SUSPECT member starts one degraded read of its blocks, unless one runs already.
DECODE_STAGING_GRANT, where the next row of an operation waits to decode and no disagreement holds it, reserves the row's staging and asks
for the fragments it still needs where they fit; where they do not the row waits on, and with no waiting row nothing changes. REPLAY outside
the replay state, or with plinth copies that do not suffice, changes nothing; else, with no stripe operation under way, it ends in RUN:
without a valid control block the journal holds no host data and its tail is 1 or the covered sequence of the checkpoint that the copies
hold + 2^32; with one, every record of host data in it is one of those before, in place, valid, up to the seal, of a group that is whole
above the tail. Basis: derived, 05_write_path.md, 06_read_and_rebuild.md, 07_integrity_and_encryption.md, 11_host_nvme.md. -/
def Obligations.ReadsAndReplay : Prop :=
  (∀ (s : State) (h : HostIo), s.dev.calm →
    let may := s.dev.fetchable h.portB h.sq = true ∧ s.dev.nsHeld h.nsid = false ∧ s.dev.readHeld h = false
    (¬ may → Runs (.read h) s s.silent ∧ Runs (.verify h) s s.silent) ∧
    ∀ (n : ArmNs) (c : PoolCfg) (res : Nat → BlkRes), may → s.dev.rangeError h.nsid h.slba h.nlb = none →
      s.dev.nsPool h.nsid = some (n, c) → h.cid < tunnelCid → s.dev.canPost h.portB h.sq → (∀ x ∈ s.dev.cmds, x.id ≠ s.dev.nextId) →
      (∀ i < h.nlb, s.dev.journalBlock h.nsid (h.slba + i) = some (res i)) →
      let ends := fun (st : NvStatus) (t : State) => t.answers h.portB h.sq h.cid st 0 ∧ t.dev.jnl = s.dev.jnl ∧
        t.dev.mcmds = s.dev.mcmds ∧ t.dev.cmds = s.dev.cmds ∧ s.memKept t
      let pi := fun (k : HKind) (i : Nat) => s.dev.hostPiError (h.toCmd s.dev.nextId k false 0) i
      ((∃ i < h.nlb, res i = .lost) → Runs (.read h) s (ends .unrecoveredReadError) ∧ Runs (.verify h) s (ends .unrecoveredReadError)) ∧
      ((∀ i < h.nlb, res i ≠ .lost) → (∀ i < h.nlb, i ∈ h.xtsFaults → res i = .zero) →
        (∀ i st, i < h.nlb → (∀ j < i, pi .read j = none) → pi .read i = some st → Runs (.read h) s (ends st)) ∧
        (∀ i st, i < h.nlb → (∀ j < i, pi .verify j = none) → pi .verify i = some st → Runs (.verify h) s (ends st)) ∧
        ((∀ i < h.nlb, pi .read i = none) → Runs (.read h) s fun t => ends .success t ∧
          ∀ i < h.nlb, Emit.hostData h.portB (s.dev.relaxed h.portB 0) h.sq h.cid (h.slba + i)
            (match res i with | .cipher b => (xts (s.dev.nsKey h.nsid) (h.slba + i)).symm b | _ => 0) ∈ t.dev.emitted) ∧
        ((∀ i < h.nlb, pi .verify i = none) → Runs (.verify h) s fun t => ends .success t ∧
          ∀ ro lba b, Emit.hostData h.portB ro h.sq h.cid lba b ∉ t.dev.emitted))) ∧
  (∀ (s : State) (m : MCmd) (h : HostCmd), s.dev.calm → s.dev.mcmd m.id = some m → m.kind = .read → m.phase = .outstanding →
    m.user = .host h.id → s.dev.cmd h.id = some h →
    ((s.dev.mbr m.member).st = .suspect → h.raced.contains m.id = false →
      Runs (.suspectReadSlow m.id) s fun t =>
        (∃ o, t.dev.ops = s.dev.ops ++ [o] ∧ o.kind = .degraded h.id ∧ o.pool = m.pool ∧ o.stripe = m.stripe ∧ o.phase = .waitLock ∧
          ∀ b ∈ m.refs, ∃ r ∈ o.rows, r.row = b.row ∧ b.frag ∈ r.want) ∧
        (t.dev.cmd h.id).map (·.raced) = some (m.id :: h.raced) ∧ t.dev.mcmds = s.dev.mcmds) ∧
    ((s.dev.mbr m.member).st ≠ .suspect ∨ h.raced.contains m.id = true → Runs (.suspectReadSlow m.id) s s.silent)) ∧
  (∀ (s : State) (o : Op), s.dev.calm → s.dev.op o.id = some o →
    ((∀ r ∈ o.rows, r.waits = false) → Runs (.decodeStagingGrant o.id) s s.silent) ∧
    ∀ (r : RowWork) (c : PoolCfg) (needs : List Nat), o.phase = .reading → o.kind.rowByRow = true → s.dev.opPool o = some c →
      (o.rows.find? fun x => !x.ready) = some r → o.row r.row = some r → r.waits = true → r.method = .decode → r.asked = [] →
      (s.dev.heldRows o.pool o.stripe).contains r.row = false → s.dev.rowNeeds c o r = some needs →
      let need := s.dev.decodeNeed c o r
      let missing := needs.filter fun f => !r.got.any (·.frag = f)
      let fits := (s.dev.cluster o.cluster).staged - r.staged + need ≤ stagingBlocks ∨ (s.dev.cluster o.cluster).staged = r.staged
      let row := fun (t : State) => ((t.dev.op o.id).bind (·.row r.row)).map fun x => (x.staged, x.waits, x.asked)
      (fits → missing ≠ [] → (∀ f ∈ missing, (s.dev.readLoc c o f).isSome = true) →
        Runs (.decodeStagingGrant o.id) s fun t => row t = some (need, false, missing) ∧ t.dev.jnl = s.dev.jnl) ∧
      (¬ fits → Runs (.decodeStagingGrant o.id) s fun t => row t = some (0, true, []) ∧ t.dev.jnl = s.dev.jnl ∧ t.dev.mcmds = s.dev.mcmds)) ∧
  (∀ (s : State) (copies : List PlinthRead) (bad : List Nat), s.dev.calm →
    let d := s.dev.plinthRestore (s.dev.plinthCopies copies)
    let rs := d.plinthCopies copies
    (s.dev.g Reg.JNL_STATUS_STATE ≠ 1 ∨ d.replayReady rs = false → Runs (.replay copies bad) s s.silent) ∧
    (s.dev.g Reg.JNL_STATUS_STATE = 1 → d.replayReady rs = true → s.dev.ops = [] →
      let ck := (d.readPlinth rs).jnl.jckpt
      (s.dev.jnl.cbValid = false → ck.covered + 2 ^ 32 < 2 ^ 64 →
        Runs (.replay copies bad) s fun t =>
          t.dev.g Reg.JNL_STATUS_STATE = 2 ∧ (∀ r ∈ t.dev.jnl.recs, r.typ.isMeta = true) ∧
          t.dev.tail = if ck.number = 0 then 1 else ck.covered + 2 ^ 32) ∧
      (s.dev.jnl.cbValid = true →
        Runs (.replay copies bad) s fun t =>
          t.dev.g Reg.JNL_STATUS_STATE = 2 ∧
          ∀ r ∈ t.dev.jnl.recs, r.typ.isMeta = false → ∃ q ∈ s.dev.jnl.recs, r.seq = q.seq ∧ r.blocks = q.blocks ∧ r.inPlace = true ∧
            q.lost = false ∧ q.seq ∉ bad ∧ (s.dev.jnl.sealed = true → q.seq ≤ s.dev.jnl.sealSeq) ∧
            ∀ i < q.count, q.first + i < s.dev.jnl.cbTail ∨ ∃ x ∈ s.dev.jnl.recs, x.seq = q.first + i ∧ x.seq ∉ bad)))

/-- Member completions serve the host and finish destages. For every state in which no erasure, transfer or firmware commit waits: the
completion of the outstanding read of the one block of a host Read, whose further tag block has arrived if one was needed and whose tag is
good, returns the block decrypted and completes the Read with success, or with the status of its protection information check where that
fails, and releases the command where it answered in time. The acknowledgement in time of an operation's write, or of its tag block update,
releases it and takes it off the operation's list; with others left the operation waits on; a data write in tag-sector mode is followed by
the updates of its tag blocks, which the operation then waits for. The acknowledgement of a destage's last write, with no LOST entry of it
waiting and no member skipped, ends the destage, releases its lock and leaves none of its host data records unretired as it was. A
completion of a command that the device does not know, or that still waits to be issued, changes nothing. Identifiers in use are below the
next one. Basis: derived, 05_write_path.md, 06_read_and_rebuild.md, 07_integrity_and_encryption.md, 13_member_ports.md. -/
def Obligations.MemberCompletions : Prop :=
  (∀ (s : State) (m : MCmd) (h : HostCmd) (b : BlkRef) (p : PoolCfg) (data : Block) (tags : List (BitVec 128)) (tagBlocks : List (Nat × Block))
    (gen : Nat), s.dev.calm → s.dev.mcmd m.id = some m → m.kind = .read → m.phase = .outstanding → m.user = .host h.id → m.refs = [b] →
    m.pair = none → s.dev.poolOf h.epoch m.pool = some p →
    (s.dev.checkBlock m p [data] tags (m.tagb ++ tagBlocks) 0 b).res = .good gen false →
    s.dev.blockOwner h.epoch p m.pool m.stripe b.frag b.row = some (h.nsid, h.slba) →
    s.dev.cmds.filter (·.id = h.id) = [h] → h.kind = .read → h.nlb = 1 → h.got = [] → 0 ∉ h.xtsFaults → h.detached = false →
    h.cid < tunnelCid → s.dev.canPost h.portB h.sq →
    Runs (.memberReadCompletion m.id true [data] tags tagBlocks) s fun t =>
      (s.dev.isSlow m = false → t.dev.mcmd m.id = none) ∧ (∀ x ∈ t.dev.cmds, x.id ≠ h.id) ∧ s.memKept t ∧
      (∀ st, s.dev.hostPiError h 0 = some st → t.answers h.portB h.sq h.cid st 0) ∧
      (s.dev.hostPiError h 0 = none → t.answers h.portB h.sq h.cid .success 0 ∧
        Emit.hostData h.portB (s.dev.relaxed h.portB 0) h.sq h.cid h.slba ((xts (s.dev.nsKey h.nsid) h.slba).symm data) ∈ t.dev.emitted)) ∧
  (∀ (s : State) (m : MCmd) (o : Op) (tagBlocks : List (Nat × Block)), s.dev.calm → s.dev.mcmd m.id = some m → m.user = .op →
    m.phase = .outstanding → s.dev.isSlow m = false → m.refs ≠ [] → (∀ b ∈ m.refs, b.op = o.id) → s.dev.ops.filter (·.id = o.id) = [o] →
    o.phase = .writing → m.id < s.dev.nextId → o.id < s.dev.nextId → (∀ x ∈ s.dev.mcmds, x.id < s.dev.nextId) →
    let left := o.writes.filter (· ≠ m.id)
    (m.kind = .tagWrite ∨ m.kind = .write ∧ s.dev.tagSect m.member = false →
      (left ≠ [] →
        Runs (.memberWriteCompletion m.id true tagBlocks) s fun t =>
          t.dev.mcmd m.id = none ∧ t.dev.op o.id = some { o with writes := left } ∧ t.dev.jnl = s.dev.jnl ∧ s.memKept t) ∧
      (left = [] → o.kind = .destage → o.skipped = [] → s.dev.lostPending o.id = false → s.dev.noneHeld →
        Runs (.memberWriteCompletion m.id true tagBlocks) s fun t =>
          t.dev.mcmd m.id = none ∧ t.dev.op o.id = none ∧ (∀ l ∈ t.dev.locks, o.id ∉ l.holders) ∧
          ∀ r ∈ s.dev.jnl.recs, r.seq ∈ o.recs → r.retired = false → r.typ.isMeta = false → r ∉ t.dev.jnl.recs)) ∧
    (m.kind = .write → s.dev.tagSect m.member = true → 0 < m.count →
      Runs (.memberWriteCompletion m.id true tagBlocks) s fun t =>
        t.dev.mcmd m.id = none ∧ t.dev.jnl = s.dev.jnl ∧ s.memKept t ∧
        ∃ o' x, t.dev.op o.id = some o' ∧ m.id ∉ o'.writes ∧ x ∈ t.dev.mcmds ∧ x.kind = .tagWrite ∧ x.member = m.member ∧
          x.block = m.block / 255 ∧ x.id ∈ o'.writes)) ∧
  (∀ (s : State) (id : Nat) (ok : Bool) (blocks : List Block) (tags : List (BitVec 128)) (tagBlocks : List (Nat × Block)), s.dev.calm →
    (s.dev.mcmd id = none ∨ ∃ m, s.dev.mcmd id = some m ∧ m.phase = .waiting) →
    Runs (.memberReadCompletion id ok blocks tags tagBlocks) s s.silent ∧ Runs (.memberWriteCompletion id ok tagBlocks) s s.silent)

/-! ### Members and sillage -/

/-- The member state machine: commands, quiet, absence and late identification. For every state in which no erasure, transfer or firmware commit
waits, and every member of the table. While the journal runs on the steward, a requester whose command acts: FAIL makes a member that is
neither FAILED nor RETIRED FAILED with cause HOST and a departure mark; READMIT makes a FAILED member REBUILDING where a discovered
namespace matches it and ABSENT otherwise, its mark kept; RETIRE makes an ABSENT or FAILED member RETIRED with no mark and no dirty-region
log; CLEAR makes a SUSPECT member ONLINE with an empty window and empties the window of another active one, no record admitted. A command
before replay has finished, on a package that is not the steward, for a member not in the table or in a state that table 6-3 does not list,
sets CMD_REFUSED and changes no member. On the steward a SUSPECT member that stays quiet returns ONLINE with an empty window, and an ABSENT
one becomes FAILED with cause ABSENT_TIMEOUT where ABSENT_FAIL_S is not 0; a restored member not identified in time becomes ABSENT with a
mark, one that was REBUILDING with the mark it has. Each of these timers changes nothing elsewhere. Basis: derived, 06_read_and_rebuild.md. -/
def Obligations.MemberTransitions : Prop :=
  ∀ (s : State) (m : Nat), s.dev.calm →
    let x := s.dev.mbr m
    let there := m < s.dev.mbrs.length ∧ m < s.dev.memberTable.length
    (∀ req, s.dev.commands req →
      let refused := fun (t : State) => t.dev.g Reg.SIL_STATUS_CMD_REFUSED = 1 ∧ t.dev.mbrs = s.dev.mbrs ∧
        s.dev.regsKept t.dev [Reg.SIL_STATUS_CMD_REFUSED.base] ∧ t.dev.jnl = s.dev.jnl
      let turned := s.dev.running = false ∨ s.dev.steward = false ∨ s.dev.memberTable.length ≤ m
      (there → s.dev.running = true → s.dev.steward = true →
        (x.st ≠ .failed → x.st ≠ .retired → Runs (.memberFail req m) s fun t =>
          (t.dev.mbr m).st = .failed ∧ (t.dev.mbr m).cause = .host ∧ (t.dev.mbr m).mark.isSome = true) ∧
        (x.st = .failed → Runs (.memberReadmit req m) s fun t =>
          (t.dev.mbr m).st = (if x.matched.isSome then .rebuilding else .absent) ∧ (t.dev.mbr m).mark = x.mark) ∧
        (x.st = .absent ∨ x.st = .failed → Runs (.memberRetire req m) s fun t =>
          (t.dev.mbr m).st = .retired ∧ (t.dev.mbr m).mark = none ∧ (t.dev.mbr m).drl = none) ∧
        (x.st = .suspect → Runs (.memberClear req m) s fun t => (t.dev.mbr m).st = .online ∧ (t.dev.mbr m).window = []) ∧
        (x.st = .online ∨ x.st = .rebuilding → Runs (.memberClear req m) s fun t =>
          t.dev.mbr m = { x with window := [] } ∧ t.dev.regs = s.dev.regs ∧ t.dev.jnl = s.dev.jnl)) ∧
      (turned ∨ x.st = .failed ∨ x.st = .retired → Runs (.memberFail req m) s refused) ∧
      (turned ∨ x.st ≠ .failed → Runs (.memberReadmit req m) s refused) ∧
      (turned ∨ x.st ≠ .absent ∧ x.st ≠ .failed → Runs (.memberRetire req m) s refused) ∧
      (turned ∨ x.st.active = false → Runs (.memberClear req m) s refused)) ∧
    (s.dev.steward = true → there →
      (x.st = .suspect → Runs (.memberQuiet m) s fun t => (t.dev.mbr m).st = .online ∧ (t.dev.mbr m).window = []) ∧
      (x.st = .absent → s.dev.g Reg.SIL_RETURN_ABSENT_FAIL_S ≠ 0 → Runs (.memberAbsentTimeout m) s fun t =>
        (t.dev.mbr m).st = .failed ∧ (t.dev.mbr m).cause = .absentTimeout ∧ (t.dev.mbr m).mark = x.mark) ∧
      (x.awaitId = true → x.st.active = true → Runs (.discoverTimeout m) s fun t =>
        (t.dev.mbr m).st = .absent ∧ (t.dev.mbr m).awaitId = false ∧
        (x.st ≠ .rebuilding → (t.dev.mbr m).mark.isSome = true) ∧ (x.st = .rebuilding → (t.dev.mbr m).mark = x.mark))) ∧
    (s.dev.steward = false ∨ x.st ≠ .suspect → Runs (.memberQuiet m) s s.silent) ∧
    (s.dev.steward = false ∨ x.st ≠ .absent ∨ s.dev.g Reg.SIL_RETURN_ABSENT_FAIL_S = 0 → Runs (.memberAbsentTimeout m) s s.silent) ∧
    (x.awaitId = false → Runs (.discoverTimeout m) s s.silent)

/-- Sillage: allowances, the start of work, the gathered exceptions, and scrub passes. For every state: SILLAGE_INTERVAL marks exactly the
members whose use in the interval exceeds their allowance, the use of a rotational member being the time that a sillage command was
outstanding as a share of the 100 ms and that of another the mean number of such commands as a share of its command limit, and begins the
next interval; nothing else changes. SILLAGE_START, with the journal running and no erasure, transfer or firmware commit waiting: the first
CRITICAL unit, or with none while work may run the first DEGRADED unit, starts where all its members are within their allowances and waits
for its stripe lock, and where one is not, nothing starts; with the journal not running nothing changes. EXC_BATCH_EXPIRY with the journal
running, no group waiting and room for the records admits the gathered entries, all of them and no others, in EXC_INSERT records of at most
1,024, each a group of its own, and empties the gathering. A scrub pass begins at the first stripe of the first pool that sillage may work
on, at the period's expiry where PERIOD_DAYS is not 0 and at SCRUB_NOW by a requester whose command acts; where one runs, there is no such
pool or PERIOD_DAYS is 0, nothing changes. Basis: derived, 06_read_and_rebuild.md. -/
def Obligations.SillageWork : Prop :=
  (∀ s : State,
    let use := fun (m : Nat) =>
      let x := s.dev.mbr m
      let dt := s.dev.now - x.silSinceUs
      let out := s.dev.silOut m
      (x.silBusyUs + (if out = 0 then 0 else dt), x.silSumUs + out * dt)
    let over_ := fun (m : Nat) => if s.dev.rot m then s.dev.allowance m * 100000 < 100 * (use m).1
      else s.dev.allowance m * (100000 * s.dev.qdLimit m) < 100 * (use m).2
    Runs .sillageInterval s fun t =>
      (∀ m, m ∈ t.dev.sil.overUse ↔ m < s.dev.mbrs.length ∧ over_ m) ∧
      t = s.withDev [] fun d => { d with sil := { d.sil with overUse := t.dev.sil.overUse },
                                         mbrs := d.mbrs.map fun x => { x with silSinceUs := d.now, silBusyUs := 0, silSumUs := 0 } }) ∧
  (∀ s : State, s.dev.calm →
    (s.dev.running = false → Runs .sillageStart s s.silent) ∧
    ∀ u : SilUnit, s.dev.running = true →
      (s.dev.firstUnit s.dev.criticalUnits = some u ∨
        s.dev.firstUnit s.dev.criticalUnits = none ∧ s.dev.silRuns = true ∧ s.dev.firstUnit s.dev.degradedUnits = some u) →
      (s.dev.unitFits u = true → Runs .sillageStart s fun t =>
        (∃ o, t.dev.ops = s.dev.ops ++ [o] ∧ o.kind = u.kind ∧ o.pool = u.pool ∧ o.stripe = u.stripe ∧ o.phase = .waitLock) ∧
        t.dev.jnl = s.dev.jnl ∧ t.dev.mcmds = s.dev.mcmds) ∧
      (s.dev.unitFits u = false → Runs .sillageStart s s.silent)) ∧
  (∀ s : State, s.dev.calm →
    (s.dev.sil.gather = [] → Runs .excBatchExpiry s s.silent) ∧
    let runs := gatherRuns s.dev.sil.gather
    (s.dev.jnl.waiting = [] → s.dev.running = true → (∀ b ∈ runs, b.length ≤ 1024) → runs.length ≤ s.dev.freeSlots →
      (runs.map fun b => ceilDiv (b.length * 16) 4096).sum ≤ s.dev.freePay → s.dev.head + runs.length < 2 ^ 64 →
      Runs .excBatchExpiry s fun t =>
        t.dev.sil.gather = [] ∧ t.dev.head = s.dev.head + runs.length ∧ t.dev.tail = s.dev.tail ∧
        (∃ gs, t.dev.jnl.groups = s.dev.jnl.groups ++ gs ∧ gs.length = runs.length ∧ ∀ g ∈ gs, g.count = 1 ∧ ∃ ops, g.use = .excInsert ops) ∧
        ∃ new, t.dev.jnl.recs = s.dev.jnl.recs ++ new ∧ (∀ r ∈ new, r.typ = .excInsert ∧ r.entries.length ≤ 1024) ∧
          new.map (·.seq) = (List.range runs.length).map (s.dev.head + 1 + ·) ∧
          (new.flatMap (·.entries)).Perm (s.dev.sil.gather.map fun x => .exc x.2))) ∧
  (∀ s : State,
    (∀ pc rest, s.dev.sil.scrubAt = none → s.dev.silPools = pc :: rest →
      let t := s.withDev [] fun d => { d with sil := { d.sil with scrubAt := some (pc.1, 0), scrubStartUs := d.now } }
      (s.dev.g Reg.SIL_SCRUB_PERIOD_DAYS ≠ 0 → exec .scrubPeriodExpiry s = .next t) ∧
      ∀ req, s.dev.commands req → exec (.scrubNow req) s = .next t) ∧
    (s.dev.g Reg.SIL_SCRUB_PERIOD_DAYS = 0 → Runs .scrubPeriodExpiry s s.silent) ∧
    (s.dev.sil.scrubAt.isSome = true ∨ s.dev.silPools = [] →
      Runs .scrubPeriodExpiry s s.silent ∧ ∀ req, s.dev.commands req → Runs (.scrubNow req) s s.silent))

/-! ### Integrity, keys and the codec fabric -/

/-- Key slots are filled, switched and emptied, and CLR_COUNTS clears the integrity counters. For every state with distinct slot numbers:
KEY_GENERATION draws a key for the first waiting namespace that has no slot under way, where a slot is free and the package is SOLO,
MIRRORING or ALONE: a key with equal halves is dropped, and the next draw is another; any other fills the lowest free slot with the key and
its wrapped form, durable in the vault, READY at once without a partner and not yet READY while mirroring; every other slot stays. With no
such namespace, no free slot or in another state nothing changes. KEY_SWITCH of a waiting namespace with no command between fetch and
completion makes its READY slot ACTIVE and counts the binding, so that the namespace's key is that slot's, and makes every slot of it that
was ACTIVE DESTROYING with its key gone; the slots of other namespaces stay; of any other namespace nothing changes. KEY_SLOT_ERASED of a
DESTROYING slot, with no erasure waiting, empties it where its partner copy is done and else notes the erasure and drops the wrapped key.
ITG_CLR_COUNTS by a requester whose command acts sets the tag, protection information and scrub finding counters to 0 and changes no other
register. The number generator is open (an opaque constant of Config). Basis: derived, 07_integrity_and_encryption.md, 14_accord.md. -/
def Obligations.KeySlotsMove : Prop :=
  ∀ s : State, (s.dev.keys.slots.map (·.slot)).Nodup →
    let next := s.dev.keys.wantGen.find? fun w => !(s.dev.keys.slots.any fun k => k.nsid == w.1 && k.st != .active)
    let draws := s.dev.mirroring = true ∨ s.dev.keysOwn = true
    (next = none ∨ s.dev.freeKeySlot = none ∨ ¬ draws → Runs .keyGeneration s s.silent) ∧
    (∀ (w : Nat × Bool) (n : Nat), next = some w → s.dev.freeKeySlot = some n → draws →
      let key := Config.drbg s.dev.keys.nextKey
      (halvesEqual key = true →
        exec .keyGeneration s = .next (s.withDev [] fun d => { d with keys := { d.keys with nextKey := d.keys.nextKey + 1 } })) ∧
      (halvesEqual key = false → Runs .keyGeneration s fun t =>
        t.dev.keys.slots = s.dev.keys.slots ++
          [KeySlot.mk n (if s.dev.mirroring then .empty else .ready) w.1 key (wrapKey kek key) false false none false] ∧
        t.dev.keys.nextKey = s.dev.keys.nextKey + 1 ∧ t.dev.keys.wantGen = s.dev.keys.wantGen.erase w ∧
        Emit.vault "key area" n ∈ t.dev.emitted ∧ t.dev.keys.binds = s.dev.keys.binds ∧
        (s.dev.mirroring = false → s.dev.hasNs w.1 = true → w.1 ∈ t.dev.keys.switching))) ∧
    (∀ nsid, (nsid ∉ s.dev.keys.switching ∨ s.dev.nsBusy nsid = true → Runs (.keySwitch nsid) s s.silent) ∧
      ∀ k, nsid ∈ s.dev.keys.switching → s.dev.nsBusy nsid = false →
        (s.dev.keys.slots.find? fun k => k.nsid == nsid && k.st == .ready) = some k →
        Runs (.keySwitch nsid) s fun t =>
          t.dev.nsKey nsid = k.key ∧ nsid ∉ t.dev.keys.switching ∧ { k with st := .active } ∈ t.dev.keys.slots ∧
          AMap.get t.dev.keys.binds k.slot = some (min ((AMap.get s.dev.keys.binds k.slot).getD 0 + 1) 0xFFFF) ∧
          (∀ o ∈ s.dev.keys.slots, o.nsid = nsid → o.st = .active →
            { o with st := .destroying, key := 0, erased := false, partnerDone := s.dev.keysOwn } ∈ t.dev.keys.slots) ∧
          ∀ o ∈ s.dev.keys.slots, o.nsid ≠ nsid → o ∈ t.dev.keys.slots) ∧
    (∀ k ∈ s.dev.keys.slots, k.st = .destroying → s.dev.nvm.erases = [] →
      (∀ o ∈ s.dev.keys.slots, o ≠ k → o.st = .destroying → o.erased = false ∨ o.partnerDone = false) →
      Runs (.keySlotErased k.slot) s fun t =>
        t.dev.keys.slots = (if k.partnerDone then s.dev.keys.slots.filter (· ≠ k)
          else s.dev.keys.slots.map fun o => if o = k then { k with erased := true, wrapped := [] } else o)) ∧
    (∀ req, s.dev.commands req → Runs (.itgClrCounts req) s fun t =>
      (∀ f ∈ [Reg.ITG_TAG_ERRS_CRC, Reg.ITG_TAG_ERRS_IDENTITY, Reg.ITG_TAG_ERRS_ROLE, Reg.ITG_PI_ERRS_GUARD, Reg.ITG_PI_ERRS_APP,
        Reg.ITG_PI_ERRS_REF, Reg.ITG_SCRUB_FIND_TAG_REPAIRED, Reg.ITG_SCRUB_FIND_PARITY_REPAIRED, Reg.ITG_SCRUB_FIND_ANCHOR,
        Reg.ITG_SCRUB_FIND_UNRECOV], t.dev.g f = 0) ∧
      s.onlyRegs t [Reg.ITG_TAG_ERRS_CRC.base, Reg.ITG_PI_ERRS_GUARD.base, Reg.ITG_PI_ERRS_REF.base,
        Reg.ITG_SCRUB_FIND_TAG_REPAIRED.base, Reg.ITG_SCRUB_FIND_ANCHOR.base, Reg.ITG_TAG_ERRS_IDENTITY.base, Reg.ITG_TAG_ERRS_ROLE.base,
        Reg.ITG_PI_ERRS_APP.base, Reg.ITG_SCRUB_FIND_PARITY_REPAIRED.base, Reg.ITG_SCRUB_FIND_UNRECOV.base])

/-- Dispatch, unit faults, ELB fills and snoops. For every state in which no erasure, transfer or firmware commit waits. ITEM_DISPATCH of the
next item of a cluster in service whose region is powered, with an idle internal channel and a line of its resolved row that the ELB does
not hold, takes that channel, shows it busy and internal, gives a degraded read the active epoch, and waits for the fill. UNIT_FAULT and the
RETIRE command by a requester whose command acts take a unit out of service, set its bit and UNIT_RETIRED_SEEN, and EXHAUSTED_SEEN with the
cluster's last; one already retired stays so. With no resolved-row write under way and no commit that waits for one: ELB_FILL_DATA of a
poisoned fill clears the poison and installs nothing; of a fill that is not poisoned it installs the key with its record where the data is
good, and where it is not, or there is no record, it records a PLACEMENT line, and the fill is held while the line is rewritten; without
such a fill no region changes. SNOOP of a powered region, with no operation waiting for a rebuilt line, drops exactly the line's entries,
poisons its pending fills that no rebuild holds and acknowledges, and a write that also waits for others goes on waiting for those; an
unpowered region gives no answer and none of them changes. Basis: derived, 08_codec_fabric.md, 04_buffer_memory.md. -/
def Obligations.FabricItemsAndElb : Prop :=
  (∀ (s : State) (o : Op) (ch : Nat) (errs : List RowKey), s.dev.calm → s.dev.fab.regions.length = 8 → o.cluster < 32 →
    s.dev.op o.id = some o → o.phase = .waitChannel → s.dev.inService o.cluster = true → s.dev.powered (regionOf o.cluster) = true →
    s.dev.nextItem o = true → s.dev.freeInternal o.cluster = some ch →
    let o' := { o with epoch := if o.epoch = 0 then s.dev.epoch else o.epoch }
    (∃ k ∈ s.dev.opKeys o', ∀ x ∈ (s.dev.region (regionOf o.cluster)).elb, x.2.key ≠ k) →
    Runs (.itemDispatch o.id errs) s fun t =>
      t.dev.op o.id = some { o' with phase := .waitElb, channel := ch } ∧
      t.dev.gi Reg.CHN_STATUS_STATE ch = 1 ∧ t.dev.gi Reg.CHN_STATUS_INTERNAL ch = 1 ∧
      (t.dev.region (regionOf o.cluster)).awaits o.id = true ∧ t.dev.jnl = s.dev.jnl) ∧
  (∀ (s : State) (u : Nat), s.dev.calm →
    let out := fun (t : State) => t.dev.fab.retired = u :: s.dev.fab.retired ∧ t.dev.g Reg.FAB_STATUS_UNIT_RETIRED_SEEN = 1 ∧
      (t.dev.gi Reg.FAB_RETIRED_UNITS (u / 32)).testBit (u % 32) = true ∧
      ((∀ v, v / 8 = u / 8 → v ≠ u → v ∈ s.dev.fab.retired) → t.dev.g Reg.FAB_STATUS_EXHAUSTED_SEEN = 1)
    let stays := fun (t : State) => t.dev.fab.retired = s.dev.fab.retired
    (u < 256 → u ∉ s.dev.fab.retired →
      (∀ mismatch, Runs (.unitFault u mismatch) s out) ∧ ∀ req, s.dev.commands req → Runs (.unitRetire req u) s out) ∧
    (256 ≤ u ∨ u ∈ s.dev.fab.retired →
      (∀ mismatch, Runs (.unitFault u mismatch) s stays) ∧ ∀ req, s.dev.commands req → Runs (.unitRetire req u) s stays)) ∧
  (∀ (s : State) (r : Nat) (k : RowKey), r < s.dev.fab.regions.length → s.dev.calm → s.dev.arm.commitStage ≠ 4 →
    let x := s.dev.region r
    (s.dev.fab.rowWrites = [] → ∀ (good : Bool) (how : LineRebuild),
      ((x.fills.find? (·.key = k)) = none → Runs (.elbFillData r k good how) s fun t => t.dev.fab.regions = s.dev.fab.regions) ∧
      ∀ f, (x.fills.find? (·.key = k)) = some f →
        (f.poisoned = true → Runs (.elbFillData r k good how) s fun t =>
          (t.dev.region r).elb = x.elb ∧ t.dev.ops = s.dev.ops ∧ ∀ g ∈ (t.dev.region r).fills, g.key = k → g.poisoned = false) ∧
        (f.poisoned = false → ∀ record, s.dev.rowRecord k = some record → Runs (.elbFillData r k true how) s fun t =>
          (∃ e, AMap.get (t.dev.region r).elb e = some ⟨k, s.dev.rowLineAddr k, record⟩) ∧ ∀ g ∈ (t.dev.region r).fills, g.key ≠ k) ∧
        (f.poisoned = false → good = false ∨ s.dev.rowRecord k = none → (∃ q < 8, s.dev.powered q = true) →
          Runs (.elbFillData r k good .rewritten) s fun t =>
            (t.dev.region r).elb = x.elb ∧ t.dev.g Reg.BUF_LAST_UE_CLASS = 1 ∧ t.dev.rowRebuilding k = true ∧
            ∃ g ∈ (t.dev.region r).fills, g.key = k ∧ g.held = true)) ∧
    (s.dev.powered r = false → s.dev.fab.rowWrites = [] → Runs (.snoop r k) s fun t =>
      (∀ q, Emit.snoopAck q ∉ t.dev.emitted) ∧ t.dev.fab.regions = s.dev.fab.regions) ∧
    (s.dev.powered r = true → (∀ o ∈ s.dev.ops, o.phase = .waitElb → (s.dev.region (regionOf o.cluster)).awaits o.id = true) →
      (∀ w ∈ s.dev.fab.rowWrites, (k, r) ∈ w.left ∧ 2 ≤ w.left.length ∧ s.dev.fab.rowWrites = [w]) →
      Runs (.snoop r k) s fun t =>
        Emit.snoopAck r ∈ t.dev.emitted ∧ (∀ y, y ∈ (t.dev.region r).elb ↔ y ∈ x.elb ∧ y.2.key ≠ k) ∧
        (∀ f ∈ (t.dev.region r).fills, f.key = k → f.poisoned = true ∨ f.held = true) ∧ t.dev.ops = s.dev.ops ∧
        t.dev.fab.rowWrites = s.dev.fab.rowWrites.map fun w => { w with left := w.left.erase (k, r) }))

/-- Clusters, regions and dies sleep and wake. For every state with its eight regions in which no erasure, transfer or firmware commit waits. A
cluster none of whose host channels runs a program is clock-gated at its hold's expiry unless NO_SLEEP is set; else nothing changes. With no
resolved-row write under way and no commit that waits for one: a quiescent region that NO_SLEEP does not hold awake powers off at its hold's
expiry and loses its ELB, or waits to while a block reset covers it, and other regions stay; a region that is powering up on a running die
clock is on at REGION_POWER_UP_DONE with an empty ELB, an empty tree and one wake more. In any other state these two change no region.
DIE_PLL_LOCK starts a stopped die clock that was asked for, and else changes nothing. By a requester whose command acts, FAB_WATCH_WRITE
writes the mask's eight bits and wakes every watch region that may be powered; NO_SLEEP_WRITE sets NO_SLEEP, ungates every cluster and wakes
every region that the limit allows; FAB_CLR_COUNTS clears the statistics of every region and no register. UCIE_DELIVERY_FAILURE of a die and
ELB_TAG_PARITY_ERROR of a region with no package reset and no other block reset ask the blocks of their fused level to go idle; in a block
reset that covers them they are noted with it, and in a package reset with that; no register changes. Basis: derived, 08_codec_fabric.md,
16_reset_and_options.md, 01_architecture.md. -/
def Obligations.FabricSleepsAndWakes : Prop :=
  ∀ s : State, s.dev.calm → s.dev.fab.regions.length = 8 →
    (∀ c, (s.dev.noSleep = true ∨ s.dev.clusterBusy c = true → Runs (.clusterHoldExpiry c) s s.silent) ∧
      (s.dev.noSleep = false → s.dev.clusterBusy c = false → c < s.dev.fab.clusters.length →
        Runs (.clusterHoldExpiry c) s fun t => (t.dev.cluster c).gated = true ∧ t.dev.regs = s.dev.regs ∧ t.dev.fab.regions = s.dev.fab.regions)) ∧
    (∀ r < 8, s.dev.fab.rowWrites = [] → s.dev.arm.commitStage ≠ 4 →
      let awake := s.dev.noSleep = true ∧ r ∈ s.dev.keptRegions
      let others := fun (t : State) => ∀ q, q ≠ r → t.dev.region q = s.dev.region q
      (s.dev.quiescent r = true → ¬ awake →
        (s.dev.regionInReset r = false → Runs (.regionHoldExpiry r) s fun t =>
          (t.dev.region r).power = .off ∧ (t.dev.region r).elb = [] ∧ others t) ∧
        (s.dev.regionInReset r = true → Runs (.regionHoldExpiry r) s fun t =>
          r ∈ t.dev.fab.offWaits ∧ t.dev.fab.regions = s.dev.fab.regions)) ∧
      (s.dev.quiescent r = false ∨ awake → Runs (.regionHoldExpiry r) s fun t => t.dev.fab.regions = s.dev.fab.regions) ∧
      let ready := (s.dev.region r).power = .up ∧ s.dev.fab.pll.getD (dieOf r) false = true
      (ready → Runs (.regionPowerUpDone r) s fun t =>
        (t.dev.region r).power = .on ∧ (t.dev.region r).elb = [] ∧ (t.dev.region r).tree = [] ∧ others t ∧
        (t.dev.region r).wakes = min ((s.dev.region r).wakes + 1) 0xFFFF) ∧
      (¬ ready → Runs (.regionPowerUpDone r) s fun t => t.dev.fab.regions = s.dev.fab.regions)) ∧
    (∀ die, (die ∉ s.dev.fab.pllLocking → Runs (.diePllLock die) s s.silent) ∧
      (die ∈ s.dev.fab.pllLocking → die < s.dev.fab.pll.length →
        Runs (.diePllLock die) s fun t => t.dev.fab.pll.getD die false = true ∧ die ∉ t.dev.fab.pllLocking ∧ t.dev.regs = s.dev.regs)) ∧
    (∀ req, s.dev.commands req →
      (∀ mask, Runs (.fabWatchWrite req mask) s fun t =>
        t.dev.g Reg.FAB_WATCH_MASK = mask % 256 ∧ s.dev.regsKept t.dev [Reg.FAB_WATCH_MASK.base] ∧ t.dev.jnl = s.dev.jnl ∧
        ∀ r < 8, (s.dev.p Reg.FAB_WATCH_MASK mask).watchMay r = true → (t.dev.region r).power ≠ .off) ∧
      (Runs (.noSleepWrite req) s fun t =>
        t.dev.g Reg.FAB_SLEEP_NO_SLEEP = 1 ∧ (∀ c ∈ t.dev.fab.clusters, c.gated = false) ∧ s.dev.regsKept t.dev [Reg.FAB_SLEEP_NO_SLEEP.base] ∧
        ∀ r < 8, s.dev.regionAllowed r = true → s.dev.regionLimit ≠ 0 → (t.dev.region r).power ≠ .off) ∧
      (Runs (.fabClrCounts req) s fun t =>
        t.dev.regs = s.dev.regs ∧ t.dev.fab.regions.length = 8 ∧
        ∀ x ∈ t.dev.fab.regions, x.wakes = 0 ∧ x.readWakes = 0 ∧ x.hits = 0 ∧ x.misses = 0 ∧ x.poisoned = 0 ∧ x.dataErrs = 0)) ∧
    (∀ (i : Instr) (source target : Nat),
      (i = .ucieDeliveryFailure target ∧ source = 20 ∧ target < 2 ∨ i = .elbTagParityError target ∧ source = 22 ∧ target < 8) →
      s.dev.reachOf source < 4 →
      let level := s.dev.reachOf source
      let wide := widerTarget (homeLevel source) target level
      (s.dev.rst.reach = 0 → s.dev.rst.blocks = [] → Runs i s fun t =>
        t.dev.rst.blocks = [⟨source, level, wide, false, false, []⟩] ∧ (∀ c, c ∈ t.dev.fab.inReset ↔ c ∈ blockClusters level wide) ∧
        t.dev.regs = s.dev.regs) ∧
      (∀ b, s.dev.rst.reach = 0 → s.dev.rst.blocks = [b] → level ≤ b.level → b.target = widerTarget level wide b.level →
        Runs i s fun t => t.dev.rst.blocks = [{ b with also := (b.also ++ [source]).eraseDups }] ∧ t.dev.regs = s.dev.regs) ∧
      (s.dev.rst.reach ≠ 0 → Runs i s fun t => source ∈ t.dev.rst.seen ∧ t.dev.rst.blocks = s.dev.rst.blocks ∧ t.dev.regs = s.dev.regs))

/-! ### Channel programs -/

/-- Decoding a channel instruction's encoding gives the instruction back. For every channel instruction whose fields lie in the ranges of tables
9-4 to 9-9, decoding its 32-byte encoding gives exactly it, with every field at every value its encoding admits. Basis: derived,
09_channel_programs.md. -/
def Obligations.ChannelDecodeEncode : Prop :=
  ∀ i : ChInstr, i.wf = true → decodeIns (encodeIns i) = .ok i

/-- Channel instruction words written out from the encoding tables decode to what they stand for. The words of a NOP, an END with user value
0x1122334455667788, a LOOP BEGIN of level 2 with count 5 and skip 3, a LOOP NEXT of level 2, a WAIT SEM, a SIGNAL IRQ and a MOVE of 4096
bytes from HBM to host memory, written byte by byte, decode to these; a word whose opcode is 0 fails at offset 0, a NOP with a byte set
fails at that byte, and a MOVE of length 0 fails at offset 4. Basis: derived, 09_channel_programs.md. -/
def Obligations.ChannelWords : Prop :=
  decodeIns 0x06#256 = .ok .nop ∧
  decodeIns 0x11223344556677880000000000000007#256 = .ok (.end_ 0x1122334455667788) ∧
  decodeIns 0x03_00000005_00020003#256 = .ok (.loopBegin 2 5 3) ∧
  decodeIns 0x20103#256 = .ok (.loopNext 2) ∧
  decodeIns 0x64_00000007_00410004#256 = .ok (.wait 0 0x41 7 0x64) ∧
  decodeIns 0x0105#256 = .ok (.signal 1 0 0 0) ∧
  decodeIns 0x0000000000002000_0000000000001000_00001000_00010001#256 =
    .ok (.move false 0 0 false false 0 0 0 1 0 4096 0x1000 0x2000 0 0) ∧
  decodeIns 0#256 = .error 0 ∧ decodeIns 0x01000006#256 = .error 3 ∧ decodeIns 0x00000000_00010001#256 = .error 4

/-- NOP, LOOP, WAIT TIMER and EVENT, SIGNAL IRQ and COMPLETE move a program as their rules say. For every state and channel whose fetch delivers
the instruction while it can run: NOP advances the PC by 32 bytes and changes no register but the PC and the status. LOOP BEGIN of a level
that is not active with every lower level active sets COUNT, clears INDEX, marks the level and advances; with count 0 it skips its body.
LOOP NEXT of the innermost active level increments INDEX and branches to the body's start, or ends the level and advances. WAIT TIMER of a
time above 0 and WAIT EVENT leave the channel WAITING at its PC, WAIT TIMER of 0 advances; a timer's expiry advances a channel that waits
for one and changes nothing of another. SIGNAL IRQ sets the USER event, and SIGNAL COMPLETE of a program that has not completed sets
COMPLETED_EARLY and the user value; both advance (each channel has one entry). Basis: derived, 09_channel_programs.md. -/
def Obligations.ChannelFlow : Prop :=
  ∀ (s : State) (ch : Nat) (w : BitVec 256), ch < 512 →
    let pc := s.dev.gi Reg.CHN_PC_PC ch
    let at_ := fun (t : State) (p : Nat) => t.dev.gi Reg.CHN_PC_PC ch = p % 2 ^ 64 ∧ t.dev.chState ch = 1
    let loops := s.dev.gi Reg.CHN_STATUS_LOOPS ch
    let waits := fun (x : ChWait) (t : State) => t.dev.chState ch = 2 ∧ t.dev.gi Reg.CHN_PC_PC ch = pc ∧ (t.dev.chan ch).wait = some x
    (s.delivers ch w .nop → Runs (.nop ch w) s fun t =>
      at_ t (pc + 32) ∧ s.dev.regsKept t.dev [0x80004 + 0x100 * ch, 0x80038 + 0x100 * ch] ∧ s.memKept t) ∧
    (∀ v count skip, s.delivers ch w (.loopBegin v count skip) → s.dev.loopOn ch v = false → (∀ i, 1 ≤ i → i < v → s.dev.loopOn ch i = true) →
      (count = 0 → Runs (.loopBegin ch w) s fun t => at_ t (pc + 32 * (skip + 1)) ∧ t.dev.gi Reg.CHN_STATUS_LOOPS ch = loops) ∧
      (0 < count → Runs (.loopBegin ch w) s fun t =>
        at_ t (pc + 32) ∧ t.dev.gi (loopCount v) ch = count ∧ t.dev.gi (loopIndex v) ch = 0 ∧ t.dev.loopOn ch v = true ∧
        (∀ i, 1 ≤ i → i ≤ 4 → i ≠ v → t.dev.loopOn ch i = s.dev.loopOn ch i))) ∧
    (∀ v, s.delivers ch w (.loopNext v) → s.dev.loopOn ch v = true → (∀ i, v < i → i ≤ 4 → s.dev.loopOn ch i = false) →
      (s.dev.gi (loopIndex v) ch + 1 < s.dev.gi (loopCount v) ch → Runs (.loopNext ch w) s fun t =>
        at_ t ((s.dev.chan ch).starts.getD (v - 1) 0) ∧ t.dev.gi (loopIndex v) ch = s.dev.gi (loopIndex v) ch + 1 ∧
        t.dev.gi Reg.CHN_STATUS_LOOPS ch = loops) ∧
      (s.dev.gi (loopCount v) ch ≤ s.dev.gi (loopIndex v) ch + 1 → Runs (.loopNext ch w) s fun t =>
        at_ t (pc + 32) ∧ t.dev.loopOn ch v = false)) ∧
    (∀ value timeout, s.delivers ch w (.wait 2 0 value timeout) →
      (0 < value → Runs (.waitTimer ch w) s (waits ⟨2, 0, value, timeout⟩)) ∧
      (value = 0 → Runs (.waitTimer ch w) s fun t => at_ t (pc + 32) ∧ (t.dev.chan ch).wait = none)) ∧
    (∀ value timeout, s.delivers ch w (.wait 3 0 value timeout) → Runs (.waitEvent ch w) s (waits ⟨3, 0, value, timeout⟩)) ∧
    (∀ x, (s.dev.chan ch).wait = some x →
      (x.kind = 2 → Runs (.waitTimerExpiry ch) s fun t => at_ t (pc + 32) ∧ (t.dev.chan ch).wait = none) ∧
      (x.kind ≠ 2 → Runs (.waitTimerExpiry ch) s s.silent)) ∧
    ((s.dev.chan ch).wait = none → Runs (.waitTimerExpiry ch) s s.silent) ∧
    (s.delivers ch w (.signal 1 0 0 0) → Runs (.signalIrq ch w) s fun t =>
      at_ t (pc + 32) ∧ t.dev.gi Reg.CHN_EVENTS_USER ch = 1) ∧
    (∀ user, s.delivers ch w (.signal 2 0 0 user) → (s.dev.cwq.chans.map (·.1)).Nodup → s.dev.gi Reg.CHN_STATUS_COMPLETED_EARLY ch = 0 →
      Runs (.signalComplete ch w) s fun t =>
        at_ t (pc + 32) ∧ t.dev.gi Reg.CHN_STATUS_COMPLETED_EARLY ch = 1 ∧ t.dev.gi Reg.CHN_USER_VALUE ch = user)

/-- Semaphores and level counters: waits, signals and writes. For every state and channel whose fetch delivers the instruction while it can run,
with no other wait on the counter: WAIT SEM on a host channel's semaphore and WAIT LEVEL subtract the value and advance where the counter
holds it, and otherwise leave the counter and wait at the PC; SIGNAL SEM adds to the semaphore of the named host channel, saturating at
0xFFFFFFFF, and advances. Where the WAIT of one other channel is the only wait there and the sum holds its value, SIGNAL SEM subtracts that
value again, ends the wait and advances that channel. For every requester whose command acts, a write of a host channel's semaphore without
a wait on it sets it, and CLR_LEVEL clears the level counter, with no other register changed; of an internal channel neither changes a
counter. Basis: derived, 09_channel_programs.md. -/
def Obligations.ChannelCounters : Prop :=
  ∀ (s : State) (ch : Nat), ch < 512 →
    let pc := s.dev.gi Reg.CHN_PC_PC ch
    let free := fun (t : Nat) (sem : Option Nat) => ∀ x ∈ s.dev.cwq.waiters, ¬(x.target = t ∧ x.sem = sem)
    let waits := fun (f : Fld) (tg value : Nat) (t : State) =>
      if value ≤ s.dev.gi f tg then
        t.dev.gi f tg = s.dev.gi f tg - value ∧ t.dev.gi Reg.CHN_PC_PC ch = (pc + 32) % 2 ^ 64 ∧ t.dev.chState ch = 1 ∧ (t.dev.chan ch).wait = none
      else
        t.dev.gi f tg = s.dev.gi f tg ∧ t.dev.gi Reg.CHN_PC_PC ch = pc ∧ t.dev.chState ch = 2 ∧
        ∃ x ∈ t.dev.cwq.waiters, x.target = tg ∧ x.ch = ch ∧ x.amount = value
    (∀ (w : BitVec 256) (target value timeout : Nat), s.delivers ch w (.wait 0 target value timeout) →
      s.dev.chInternal (localChan ch target) = false → free (localChan ch target) (some (target / 64)) →
      Runs (.waitSem ch w) s (waits (semReg (target / 64)) (localChan ch target) value)) ∧
    (∀ (w : BitVec 256) (target value timeout : Nat), s.delivers ch w (.wait 1 target value timeout) →
      free (localChan ch target) none →
      Runs (.waitLevel ch w) s (waits Reg.CHN_LEVEL_VALUE (localChan ch target) value)) ∧
    (∀ (w : BitVec 256) (target value : Nat), s.delivers ch w (.signal 0 target value 0) → s.dev.chInternal (localChan ch target) = false →
      let to_ := localChan ch target
      let f := semReg (target / 64)
      let sum := min (s.dev.gi f to_ + value) 0xFFFFFFFF
      (free to_ (some (target / 64)) → Runs (.signalSem ch w) s fun t =>
        t.dev.gi f to_ = sum ∧ t.dev.gi Reg.CHN_PC_PC ch = (pc + 32) % 2 ^ 64) ∧
      (∀ x, s.dev.cwq.waiters = [x] → x.target = to_ → x.sem = some (target / 64) → x.unit = none → x.ch ≠ ch → x.ch < 512 → x.amount ≤ sum →
        Runs (.signalSem ch w) s fun t =>
          t.dev.gi f to_ = sum - x.amount ∧ t.dev.gi Reg.CHN_PC_PC ch = (pc + 32) % 2 ^ 64 ∧ t.dev.cwq.waiters = [] ∧
          (t.dev.chan x.ch).wait = none ∧ t.dev.chState x.ch = 1 ∧ t.dev.gi Reg.CHN_PC_PC x.ch = (s.dev.gi Reg.CHN_PC_PC x.ch + 32) % 2 ^ 64)) ∧
    (∀ req, s.dev.commands req →
      (s.dev.chInternal ch = false →
        (∀ (sem : Nat) (v : Word), free ch (some (sem % 4)) → Runs (.chnSemWrite req ch sem v) s fun t =>
          t.dev.gi (semReg (sem % 4)) ch = v.toNat ∧ s.onlyRegs t [(semReg (sem % 4)).base + 0x100 * ch]) ∧
        Runs (.chnClrLevel req ch) s fun t => t.dev.gi Reg.CHN_LEVEL_VALUE ch = 0 ∧ s.onlyRegs t [0x8002C + 0x100 * ch]) ∧
      (s.dev.chInternal ch = true →
        (∀ (sem : Nat) (v : Word), Runs (.chnSemWrite req ch sem v) s fun t => s.onlyRegs t [0x10008, 0x10010]) ∧
        Runs (.chnClrLevel req ch) s fun t => s.onlyRegs t [0x10008, 0x10010]))

/-- Direct programs start, fail and end. For every state, channel and requester whose command acts: START of an idle host channel with DIRECT
set runs it from its program address with no loop active and nothing completed early; of a busy or internal channel, or with DIRECT clear,
it sets START_REFUSED alone. A direct program with no MOVE or MAC under way whose status record lies in HBM ends at once: with OK and its
user value at END, with ABORTED at ABORT, with WATCHDOG and the state as detail at the watchdog's expiry, with WAIT_TIMEOUT at the timeout
of a WAIT that has one, with BAD_INSTRUCTION (0x03) and the first failing byte at a word that does not decode, delivered for a row of its
opcode, with detail 2 at a LOOP out of order, and with 0x07 at a fetch that meets an uncorrectable line (log entry 132); the channel is then
IDLE with no loop active, LAST and the detail hold what it ended with, and END or FAULT is raised. Where the record lies in host memory, an
ABORT sends it there and the channel is ENDING. With a MOVE or MAC under way, ABORT and the watchdog let the units whose data is there
complete first. A channel that cannot run, or a row of another instruction, does nothing; a timeout without a WAIT that has one does
nothing. Basis: derived, 09_channel_programs.md, 04_buffer_memory.md, log entry 132. -/
def Obligations.DirectPrograms : Prop :=
  ∀ (s : State) (ch : Nat), ch < 512 →
    let ended := fun (status detail : Nat) (t : State) =>
      t.dev.chState ch = 0 ∧ t.dev.gi Reg.CHN_STATUS_LAST ch = status ∧ t.dev.gi Reg.CHN_STATUS_LOOPS ch = 0 ∧
      t.dev.gi (if status = 0 then Reg.CHN_EVENTS_END else Reg.CHN_EVENTS_FAULT) ch = 1 ∧ t.dev.gi Reg.CHN_RESIDUE_VALUE ch = 0 ∧
      t.dev.gi Reg.CHN_DETAIL_VALUE ch = detail ∧ t.dev.chan ch = Chan.idle
    let rows := fun (w : BitVec 256) (tbl : List Byte) => ([(.move ch w, 0x01, fun _ => true), (.mac ch w tbl, 0x02, fun _ => true),
      (.loopBegin ch w, 0x03, fun b => b % 2 == 0), (.loopNext ch w, 0x03, fun b => b % 2 == 1), (.waitSem ch w, 0x04, fun b => b % 4 == 0),
      (.waitLevel ch w, 0x04, fun b => b % 4 == 1), (.waitTimer ch w, 0x04, fun b => b % 4 == 2), (.waitEvent ch w, 0x04, fun b => b % 4 == 3),
      (.signalSem ch w, 0x05, fun b => b % 4 == 0), (.signalIrq ch w, 0x05, fun b => b % 4 == 1),
      (.signalComplete ch w, 0x05, fun b => decide (2 ≤ b % 4)), (.nop ch w, 0x06, fun _ => true),
      (.end_ ch w, 0x07, fun _ => true)] : List (Instr × Nat × (Nat → Bool)))
    let word := fun (w : BitVec 256) => s.dev.insWord (Memory.read s.mem) ch w
    (∀ req, s.dev.commands req →
      (s.dev.chInternal ch = false → s.dev.chState ch = 0 → s.dev.gi Reg.CHN_CTRL_DIRECT ch = 1 → Runs (.chnStart req ch) s fun t =>
        t.dev.chState ch = 1 ∧ t.dev.gi Reg.CHN_PC_PC ch = s.dev.gi Reg.CHN_PROG_ADDR_ADDR ch * 32 ∧
        t.dev.gi Reg.CHN_STATUS_LOOPS ch = 0 ∧ t.dev.gi Reg.CHN_STATUS_COMPLETED_EARLY ch = 0 ∧ (t.dev.chan ch).run = none) ∧
      (s.dev.chInternal ch = true ∨ s.dev.chState ch ≠ 0 ∨ s.dev.gi Reg.CHN_CTRL_DIRECT ch = 0 → Runs (.chnStart req ch) s fun t =>
        t.dev.gi Reg.CHN_STATUS_START_REFUSED ch = 1 ∧ t.dev.chState ch = s.dev.chState ch ∧ s.onlyRegs t [0x80004 + 0x100 * ch])) ∧
    (s.dev.chInternal ch = false → (s.dev.chan ch).run = none → (s.dev.chan ch).work = none → (s.dev.chan ch).ending = none →
      s.dev.chState ch ≠ 0 →
      (s.dev.gi Reg.CHN_CTRL_REC_HBM ch = 1 →
        (∀ w user, s.delivers ch w (.end_ user) → Runs (.end_ ch w) s fun t =>
          ended 0 0 t ∧ t.dev.gi Reg.CHN_USER_VALUE ch = user ∧ s.memKept t) ∧
        (∀ req, s.dev.commands req → Runs (.chnAbort req ch) s (ended 0x01 0)) ∧
        Runs (.channelWatchdog ch) s (ended 0x02 (s.dev.chState ch)) ∧
        (∀ x, (s.dev.chan ch).wait = some x → x.timeout ≠ 0 → Runs (.waitTimeout ch) s (ended 0x0B 0)) ∧
        (∀ w tbl, s.dev.canRun ch = true → ∀ r ∈ rows w tbl,
          (s.dev.fetchBad ch (word w) = true → Runs r.1 s (ended 0x07 0)) ∧
          (s.dev.fetchBad ch (word w) = false → isRow (word w) r.2.1 r.2.2 = true →
            ∀ o, decodeIns (word w) = .error o → Runs r.1 s (ended 0x03 o))) ∧
        (∀ w v count skip, s.delivers ch w (.loopBegin v count skip) →
          s.dev.loopOn ch v = true ∨ (∃ i, 1 ≤ i ∧ i < v ∧ s.dev.loopOn ch i = false) → Runs (.loopBegin ch w) s (ended 0x03 2)) ∧
        (∀ w v, s.delivers ch w (.loopNext v) →
          s.dev.loopOn ch v = false ∨ (∃ i, v < i ∧ i ≤ 4 ∧ s.dev.loopOn ch i = true) → Runs (.loopNext ch w) s (ended 0x03 2))) ∧
      (s.dev.gi Reg.CHN_CTRL_REC_HBM ch = 0 → s.dev.canSend s.dev.primaryB 1 = true → ∀ req, s.dev.commands req →
        Runs (.chnAbort req ch) s fun t => t.dev.chState ch = 4 ∧ t.dev.gi Reg.CHN_STATUS_LAST ch = s.dev.gi Reg.CHN_STATUS_LAST ch ∧
          ∃ bs, bs.length = 64 ∧ Emit.dma s.dev.primaryB false (s.dev.recAddr ch) bs ∈ t.dev.emitted)) ∧
    (∀ k, s.dev.chInternal ch = false → (s.dev.chan ch).work = some k → (s.dev.chan ch).ending = none → s.dev.chState ch ≠ 0 → k.stop = none →
      k.units.takeWhile TUnit.ready ≠ [] →
      let stops := fun (status detail : Nat) (t : State) =>
        (t.dev.chan ch).work = some { k with units := k.units.takeWhile TUnit.ready, stop := some (status, detail) }
      (∀ req, s.dev.commands req → Runs (.chnAbort req ch) s (stops 0x01 0)) ∧ Runs (.channelWatchdog ch) s (stops 0x02 (s.dev.chState ch))) ∧
    (∀ w tbl, ∀ r ∈ rows w tbl, s.dev.canRun ch = false ∨ s.dev.fetchBad ch (word w) = false ∧ isRow (word w) r.2.1 r.2.2 = false →
      Runs r.1 s s.silent) ∧
    ((∀ x, (s.dev.chan ch).wait = some x → x.timeout = 0) → Runs (.waitTimeout ch) s s.silent)

/-- MOVE and MAC begin their transfer units, and a unit's end stores what it computed and nothing else. For every state and channel whose fetch
delivers the instruction while it can run, with its loop level active, no reserved space, its staging accesses inside the window, its pacing
channel a host one, for MAC a good table of at most 256 ends outside staging and a unit in service, and enough free transit pages: MOVE and
MAC begin with at least one transfer unit in flight, with their length, sources and destinations, the addresses moved by the loop stride,
and for MAC its coefficient rows. The end of the oldest unit of a plain MOVE within the host area, without an uncorrectable line there, when
it is the channel's turn, stores the unit's source bytes, swapped as the MOVE says, at the unit's destination; every other byte of the
internal address space reads as before; after the last unit with no read-back awaited the PC advances, and before it the MOVE goes on with
one unit more done. A channel with no unit, or whose turn it is not, is not served. Basis: derived, 09_channel_programs.md,
04_buffer_memory.md. -/
def Obligations.ChannelTransfers : Prop :=
  (∀ (s : State) (ch : Nat) (w : BitVec 256) (paced : Bool) (level flush : Nat) (full half : Bool)
    (pi swap dsp ssp pacer len src dst ss ds : Nat),
    s.delivers ch w (.move paced level flush full half pi swap dsp ssp pacer len src dst ss ds) →
    (level ≠ 0 → s.dev.loopOn ch level = true) → ssp ≠ 2 → dsp ≠ 2 → (paced = true → s.dev.chInternal (localChan ch pacer) = false) →
    let idx := s.dev.loopAt ch level
    s.dev.stageBad ch ssp (strided src idx ss) len = false → s.dev.stageBad ch dsp (strided dst idx ds) len = false →
    ([ssp, dsp].filter (· ≠ 3)).length ≤ s.dev.freePages (chCluster ch) →
    Runs (.move ch w) s fun t => ∃ k, (t.dev.chan ch).work = some k ∧ k.mac = false ∧ k.len = len ∧ k.pi = pi ∧ k.done = 0 ∧ k.units ≠ [] ∧
      k.srcs = [⟨ssp, strided src idx ss, swap, false, false⟩] ∧ k.dsts = [⟨dsp, strided dst idx ds, 0, flush ≠ 2, false⟩]) ∧
  (∀ (s : State) (ch : Nat) (w : BitVec 256) (tbl : List Byte) (paced : Bool) (level : Nat) (gf16 full half : Bool)
    (n pacer k len tab ss ds : Nat) (srcs dsts : List MacDesc) (rows : List (List Nat)),
    s.delivers ch w (.mac paced level gf16 full half n pacer k len tab ss ds) →
    (level ≠ 0 → s.dev.loopOn ch level = true) → (paced = true → s.dev.chInternal (localChan ch pacer) = false) →
    let table := s.dev.macTable (Memory.read s.mem) ch (s.dev.insWord (Memory.read s.mem) ch w) tbl
    table.length = macTableLen n k gf16 → readMacTable n k gf16 table = .ok (srcs, dsts, rows) →
    let idx := s.dev.loopAt ch level
    let a := srcs.map fun x => End.mk x.space (strided x.addr idx ss) x.swap false false
    let b := dsts.map fun x => End.mk x.space (strided x.addr idx ds) x.swap (x.flush ≠ 2) x.xorInto
    (∀ e ∈ a ++ b, e.space ≠ 2 ∧ s.dev.stageBad ch e.space e.addr len = false) →
    ((a ++ b).filter (·.space ≠ 3)).length ≤ 256 → ((a ++ b).filter (·.space ≠ 3)).length ≤ s.dev.freePages (chCluster ch) →
    s.dev.unitsIn (chCluster ch) ≠ [] →
    Runs (.mac ch w tbl) s fun t => ∃ x, (t.dev.chan ch).work = some x ∧ x.mac = true ∧ x.gf16 = gf16 ∧ x.len = len ∧ x.rows = rows ∧
      x.done = 0 ∧ x.units ≠ [] ∧ x.srcs = a ∧ x.dsts = b) ∧
  (∀ (s : State) (ch : Nat) (k : Work) (u : TUnit) (us : List TUnit) (a b swap : Nat) (fl : Bool), s.mem.wf → ch < 512 →
    (s.dev.chan ch).work = some k → k.mac = false → k.pi = 0 → 0 < k.len → k.units = u :: us → s.dev.turn (chCluster ch) = some ch →
    k.backs = 0 → k.after = [] → k.stop = none → k.srcs = [⟨1, a, swap, false, false⟩] → k.dsts = [⟨1, b, 0, fl, false⟩] →
    s.dev.badHost = [] → (∀ x ∈ s.dev.cwq.waiters, x.ch ≠ ch) →
    let n := k.bytes u.n
    let from_ := a + 4096 * u.n
    let at_ := b + 4096 * u.n
    s.dev.inHostArea from_ n = true → s.dev.inHostArea at_ n = true →
    Runs (.transferUnitDone ch) s fun t =>
      (∀ i < n, Memory.read t.mem (at_ + i) = (swapBytes swap ((List.range n).map fun j => Memory.read s.mem (from_ + j))).getD i 0) ∧
      (∀ x < 2 ^ 48, x < at_ ∨ at_ + n ≤ x → Memory.read t.mem x = Memory.read s.mem x) ∧
      (k.done + 1 = k.total → (t.dev.chan ch).work = none ∧ t.dev.gi Reg.CHN_PC_PC ch = (s.dev.gi Reg.CHN_PC_PC ch + 32) % 2 ^ 64) ∧
      (k.done + 1 ≠ k.total → ∃ x, (t.dev.chan ch).work = some x ∧ x.done = k.done + 1)) ∧
  (∀ (s : State) (ch : Nat), (∀ k, (s.dev.chan ch).work = some k → k.units = [] ∨ s.dev.turn (chCluster ch) ≠ some ch) →
    Runs (.transferUnitDone ch) s s.silent)

/-! ### Codec work queues -/

/-- Doorbells, fetched entries and the head writeback of codec work queues. For every state: a submission doorbell of the queue's owner or the
management core with an index below 2^17 at a position inside the ring and between the current tail and the ring's size becomes the tail;
every other index but 0 changes no index and counts an ignored write, and 0, which is what a doorbell reads as, does nothing. A completion
doorbell within what is posted becomes the head, and is treated in the same two ways otherwise. An entry that arrives with no read
outstanding changes nothing, and on a queue that is not RUNNING leaves its entries. On a RUNNING queue it joins the fetched ones in ring
order, the held abort lapsing only where it matches; the match is removed with result 5. A failed fetch gives the queue the cause, clears
ENABLE, discards the unstarted entries and leaves the queue DRAINING, or QUIESCED where nothing started is left. The writeback timer of a
queue whose head moved writes head and state at the writeback address where the port may send, keeps it due where it may not, and does
nothing for a queue whose head did not move. Basis: derived, 10_codec_work_queues.md, 00_scope.md. -/
def Obligations.CwqDoorbellsAndFetch : Prop :=
  (∀ (s : State) (req : Requester) (q : Nat) (v : Word), s.dev.ownsQueue req false q →
    let h := s.dev.gi Reg.CWQ_SQ_HEAD_INDEX q
    let n := s.dev.sqSize q
    let fits := v.toNat < 2 ^ 17 ∧ posOf v.toNat < n ∧ ringUsed h (s.dev.gi Reg.CWQ_SQ_TAIL_INDEX q) n ≤ ringUsed h v.toNat n ∧
      ringUsed h v.toNat n ≤ n
    (fits → Runs (.sqDoorbell req q v) s fun t => t.dev.gi Reg.CWQ_SQ_TAIL_INDEX q = v.toNat ∧ t.dev.gi Reg.CWQ_SQ_HEAD_INDEX q = h ∧
      s.dev.regsKept t.dev [0xA0020 + 0x40 * q] ∧ t.dev.jnl = s.dev.jnl ∧ s.memKept t) ∧
    (¬ fits → v ≠ 0 → Runs (.sqDoorbell req q v) s fun t =>
      t.dev.g Reg.GCS_IGNORED_WRITES_COUNT = min (s.dev.g Reg.GCS_IGNORED_WRITES_COUNT + 1) (2 ^ 32 - 1) ∧ s.onlyRegs t [0x10008, 0x10010]) ∧
    (¬ fits → v = 0 → Runs (.sqDoorbell req q v) s s.silent)) ∧
  (∀ (s : State) (req : Requester) (q : Nat) (v : Word), s.dev.ownsQueue req true q →
    let h := s.dev.gi Reg.CWQ_CQ_HEAD_INDEX q
    let n := s.dev.cqSize q
    let fits := v.toNat < 2 ^ 17 ∧ posOf v.toNat < n ∧ 0 ≤ ringUsed h v.toNat n ∧
      ringUsed h v.toNat n ≤ ringUsed h (s.dev.gi Reg.CWQ_CQ_TAIL_INDEX q) n
    (fits → Runs (.cqDoorbell req q v) s fun t => t.dev.gi Reg.CWQ_CQ_HEAD_INDEX q = v.toNat ∧
      ((s.dev.cq q).waiting = [] → s.onlyRegs t [0xB0018 + 0x40 * q, 0xB0004 + 0x40 * q])) ∧
    (¬ fits → v ≠ 0 → Runs (.cqDoorbell req q v) s fun t =>
      t.dev.g Reg.GCS_IGNORED_WRITES_COUNT = min (s.dev.g Reg.GCS_IGNORED_WRITES_COUNT + 1) (2 ^ 32 - 1) ∧ s.onlyRegs t [0x10008, 0x10010]) ∧
    (¬ fits → v = 0 → Runs (.cqDoorbell req q v) s s.silent)) ∧
  (∀ (s : State) (q : Nat) (res : Option (List Byte)) (cause : Nat),
    (s.dev.findTag (.sqFetch q) = none → Runs (.sqEntryFetched q res cause) s s.silent) ∧
    (∀ x, s.dev.findTag (.sqFetch q) = some x →
      (s.dev.sqState q ≠ 1 → Runs (.sqEntryFetched q res cause) s fun t => t.dev.cwq = s.dev.cwq ∧ t.dev.regs = s.dev.regs ∧ s.memKept t) ∧
      (s.dev.sqState q = 1 →
        (∀ bytes, res = some bytes → bytes.length = 64 →
          let hit := match (s.dev.sq q).held with
            | some (cid, stop) => cid = leAt bytes 2 2 ∧ ringBetween (s.dev.gi Reg.CWQ_SQ_HEAD_INDEX q) stop (s.dev.sq q).arrive (s.dev.sqSize q) = true
            | none => False
          (¬ hit → Runs (.sqEntryFetched q res cause) s fun t =>
            (t.dev.sq q).fetched = (s.dev.sq q).fetched ++ [⟨(s.dev.sq q).arrive, bytes, false⟩] ∧ (t.dev.sq q).held = (s.dev.sq q).held ∧
            (t.dev.sq q).arrive = ringNext (s.dev.sqSize q) (s.dev.sq q).arrive ∧ (t.dev.sq q).started = (s.dev.sq q).started ∧
            t.dev.regs = s.dev.regs ∧ s.memKept t) ∧
          (hit → Runs (.sqEntryFetched q res cause) s fun t =>
            t.dev.gi Reg.CWQ_SQ_ABORT_RES_RESULT q = 5 ∧ t.dev.gi Reg.CWQ_SQ_ABORT_RES_CMD_ID q = leAt bytes 2 2 ∧ (t.dev.sq q).held = none)) ∧
        (res = none → Runs (.sqEntryFetched q res cause) s fun t =>
          t.dev.gi Reg.CWQ_SQ_STATUS_ERR q = 0x10 + cause % 4 ∧ t.dev.gi Reg.CWQ_SQ_CTRL_ENABLE q = 0 ∧ (t.dev.sq q).fetched = [] ∧
          t.dev.sqState q = if (s.dev.sq q).started.isEmpty then 3 else 2)))) ∧
  (∀ (s : State) (q : Nat),
    ((s.dev.sq q).dirty = false → Runs (.headWritebackTimer q) s s.silent) ∧
    ((s.dev.sq q).dirty = true → s.dev.canSend (s.dev.queueOwnerB false q) 1 = true →
      Runs (.headWritebackTimer q) s fun t =>
        t.dev.emitted = [.dma (s.dev.queueOwnerB false q) false (s.dev.gi Reg.CWQ_SQ_WB_ADDR q * 8)
          (leBytes 4 (s.dev.gi Reg.CWQ_SQ_HEAD_INDEX q) ++ leBytes 1 (s.dev.sqState q) ++ leBytes 3 0)] ∧
        (t.dev.sq q).dirty = false ∧ t.dev.regs = s.dev.regs ∧ s.memKept t) ∧
    ((s.dev.sq q).dirty = true → s.dev.canSend (s.dev.queueOwnerB false q) 1 = false →
      Runs (.headWritebackTimer q) s fun t => t.dev.emitted = [] ∧ (t.dev.sq q).dirty = true ∧ t.dev.regs = s.dev.regs ∧ s.memKept t))

/-- Entries start, complete and abort. For every state: with no queue to serve the arbiter changes no register and no queue's entries. The valid
entry that it serves starts on the channel chosen for it at its program address, counts as started, leaves its successors fetched, and the
published head passes it; an invalid one starts on none, the head passes it, and where its completion queue is enabled, not full and has
nothing waiting a completion is posted at once. END of an entry's program leaves the channel IDLE with LAST OK and its user value; the
entry's completion moves such a queue's tail and sequence by one, and one that COMPLETE posted before is posted no second time. An abort
with another held reports 7; of a command that runs, 1; of one fetched and not started, 2; of one that started and no longer runs, 4; of any
other, 3 with the abort held where unfetched entries remain, and 4 otherwise. Basis: derived, 10_codec_work_queues.md,
09_channel_programs.md. -/
def Obligations.CwqEntriesRun : Prop :=
  (∀ s : State, s.dev.arbitrate.1 = none → Runs .entryStart s fun t =>
    t.dev.regs = s.dev.regs ∧ t.dev.emitted = [] ∧ s.memKept t ∧ (∀ q, (t.dev.sq q).fetched = (s.dev.sq q).fetched)) ∧
  (∀ (s : State) (q ch : Nat) (e : SqEntry) (rest : List SqEntry), s.dev.arbitrate.1 = some q → s.dev.arbitrate.2.dispatchable q = some (e, ch) →
    q < 1024 → ch < 512 → (s.dev.sq q).fetched = e :: rest → (∀ x ∈ rest, x.idx ≠ e.idx ∧ x.removed = false) →
    (entryError e.bytes = none → Runs .entryStart s fun t =>
      t.dev.chState ch = 1 ∧ t.dev.gi Reg.CHN_PC_PC ch = leAt e.bytes 8 8 ∧
      (∃ r, (t.dev.chan ch).run = some r ∧ r.sq = q ∧ r.idx = e.idx ∧ r.cid = leAt e.bytes 2 2) ∧
      (leAt e.bytes 2 2, ch) ∈ (t.dev.sq q).started ∧ (t.dev.sq q).fetched = rest ∧
      t.dev.gi Reg.CWQ_SQ_HEAD_INDEX q = ringNext (s.dev.sqSize q) e.idx % 2 ^ 17) ∧
    (∀ o, entryError e.bytes = some o →
      let c := s.dev.gi Reg.CWQ_SQ_CTRL_CQ q
      s.dev.canSend (s.dev.queueOwnerB true c) 1 = true → s.dev.gi Reg.CWQ_CQ_CTRL_ENABLE c = 1 → s.dev.cqFull c = false → (s.dev.cq c).waiting = [] →
      Runs .entryStart s fun t =>
        (t.dev.sq q).fetched = rest ∧ t.dev.gi Reg.CWQ_SQ_HEAD_INDEX q = ringNext (s.dev.sqSize q) e.idx % 2 ^ 17 ∧
        t.dev.gi Reg.CWQ_CQ_TAIL_INDEX c = ringNext (s.dev.cqSize c) (s.dev.gi Reg.CWQ_CQ_TAIL_INDEX c) % 2 ^ 17 ∧
        t.dev.gi Reg.CWQ_CQ_SEQ_SEQ c = (s.dev.gi Reg.CWQ_CQ_SEQ_SEQ c + 1) % 2 ^ 32)) ∧
  (∀ (s : State) (ch : Nat) (w : BitVec 256) (user : Nat), s.delivers ch w (.end_ user) →
    ((s.dev.chan ch).run = none → Runs (.end_ ch w) s fun t =>
      t.dev.chState ch = 0 ∧ t.dev.gi Reg.CHN_STATUS_LAST ch = 0 ∧ t.dev.gi Reg.CHN_USER_VALUE ch = user ∧ s.memKept t) ∧
    (∀ r, (s.dev.chan ch).run = some r → s.dev.gi Reg.CHN_STATUS_COMPLETED_EARLY ch ≠ 0 → Runs (.end_ ch w) s fun t =>
      t.dev.chState ch = 0 ∧ t.dev.gi Reg.CHN_STATUS_LAST ch = 0 ∧
      t.dev.gi Reg.CWQ_CQ_TAIL_INDEX (s.dev.gi Reg.CWQ_SQ_CTRL_CQ r.sq) = s.dev.gi Reg.CWQ_CQ_TAIL_INDEX (s.dev.gi Reg.CWQ_SQ_CTRL_CQ r.sq) ∧
      s.memKept t) ∧
    (∀ r, (s.dev.chan ch).run = some r → s.dev.gi Reg.CHN_STATUS_COMPLETED_EARLY ch = 0 → r.sq < 1024 →
      let q := s.dev.gi Reg.CWQ_SQ_CTRL_CQ r.sq
      s.dev.canSend (s.dev.queueOwnerB true q) 1 = true → s.dev.gi Reg.CWQ_CQ_CTRL_ENABLE q = 1 → s.dev.cqFull q = false → (s.dev.cq q).waiting = [] →
      Runs (.end_ ch w) s fun t =>
        t.dev.chState ch = 0 ∧ t.dev.gi Reg.CHN_STATUS_LAST ch = 0 ∧ t.dev.gi Reg.CHN_USER_VALUE ch = user ∧
        t.dev.gi Reg.CWQ_CQ_TAIL_INDEX q = ringNext (s.dev.cqSize q) (s.dev.gi Reg.CWQ_CQ_TAIL_INDEX q) % 2 ^ 17 ∧
        t.dev.gi Reg.CWQ_CQ_SEQ_SEQ q = (s.dev.gi Reg.CWQ_CQ_SEQ_SEQ q + 1) % 2 ^ 32 ∧ s.memKept t)) ∧
  (∀ (s : State) (req : Requester) (q cid : Nat), s.dev.ownsQueue req false q → cid < 2 ^ 16 →
    let res := fun (t : State) (r : Nat) => t.dev.gi Reg.CWQ_SQ_ABORT_RES_RESULT q = r ∧ t.dev.gi Reg.CWQ_SQ_ABORT_RES_CMD_ID q = cid
    let runs := s.dev.cwq.chans.find? fun x => x.2.ending.isNone && (match x.2.run with | some r => r.sq == q && r.cid == cid | none => false)
    let got := (s.dev.sq q).fetched.find? fun e => !e.removed && leAt e.bytes 2 2 == cid
    ((s.dev.sq q).held ≠ none → Runs (.sqAbort req q cid) s fun t => res t 7 ∧ s.onlyRegs t [0xA0028 + 0x40 * q]) ∧
    ((s.dev.sq q).held = none →
      (runs.isSome = true → Runs (.sqAbort req q cid) s fun t => res t 1) ∧
      (runs = none → got.isSome = true → Runs (.sqAbort req q cid) s fun t => res t 2) ∧
      (runs = none → got = none →
        ((∃ x ∈ (s.dev.sq q).started, x.1 = cid) → Runs (.sqAbort req q cid) s fun t => res t 4 ∧ s.onlyRegs t [0xA0028 + 0x40 * q]) ∧
        ((∀ x ∈ (s.dev.sq q).started, x.1 ≠ cid) →
          (s.dev.sqState q = 1 → (s.dev.sq q).arrive ≠ s.dev.gi Reg.CWQ_SQ_TAIL_INDEX q → Runs (.sqAbort req q cid) s fun t =>
            res t 3 ∧ (t.dev.sq q).held = some (cid, s.dev.gi Reg.CWQ_SQ_TAIL_INDEX q)) ∧
          (s.dev.sqState q ≠ 1 ∨ (s.dev.sq q).arrive = s.dev.gi Reg.CWQ_SQ_TAIL_INDEX q → Runs (.sqAbort req q cid) s fun t =>
            res t 4 ∧ s.onlyRegs t [0xA0028 + 0x40 * q])))))

/-- Queues are enabled, disabled and reset, and the moderation timer sends its vector. For every state and requester that owns the queue or is
the management core: enabling a submission queue that is not RUNNING runs the checks of table 10-6; with none failing it is RUNNING with
tail at head and nothing fetched, and otherwise ENABLE is 0 and ERR names the first failing check; enabling a RUNNING one does nothing.
Disabling a RUNNING one discards its fetched entries and leaves it DRAINING, or QUIESCED with nothing started; disabling another clears
ENABLE alone. RESET_IDX zeroes the head of a DISABLED or QUIESCED queue and counts an ignored write on another. Enabling a completion queue
zeroes its head and tail, a completion held for it being posted at once where its port may send; enabling an enabled one does nothing.
Disabling one that no RUNNING or DRAINING queue names clears ENABLE alone, and is an ignored write otherwise. The moderation timer of a
queue with completions pending restarts the count and sends the vector of a queue with interrupts enabled, and does nothing for another
queue. The other host port's writes of these registers are ignored and counted where they would change what is read. Basis: derived,
10_codec_work_queues.md, 00_scope.md. -/
def Obligations.CwqEnableDisable : Prop :=
  (∀ (s : State) (req : Requester) (q : Nat), s.dev.ownsQueue req false q →
    (s.dev.sqState q = 1 → Runs (.sqEnable req q) s s.silent) ∧
    (s.dev.sqState q ≠ 1 →
      (s.dev.sqEnableError q = none → Runs (.sqEnable req q) s fun t =>
        t.dev.sqState q = 1 ∧ t.dev.gi Reg.CWQ_SQ_CTRL_ENABLE q = 1 ∧ t.dev.gi Reg.CWQ_SQ_STATUS_ERR q = 0 ∧
        t.dev.gi Reg.CWQ_SQ_TAIL_INDEX q = s.dev.gi Reg.CWQ_SQ_HEAD_INDEX q ∧ (t.dev.sq q).fetched = [] ∧ (t.dev.sq q).credit = s.dev.sqWeight q) ∧
      (∀ c, s.dev.sqEnableError q = some c → Runs (.sqEnable req q) s fun t =>
        t.dev.sqState q = s.dev.sqState q ∧ t.dev.gi Reg.CWQ_SQ_CTRL_ENABLE q = 0 ∧ t.dev.gi Reg.CWQ_SQ_STATUS_ERR q = c ∧
        s.onlyRegs t [0xA0000 + 0x40 * q, 0xA0004 + 0x40 * q]) ∧
      Runs (.sqDisable req q) s fun t => t.dev.gi Reg.CWQ_SQ_CTRL_ENABLE q = 0 ∧ s.onlyRegs t [0xA0000 + 0x40 * q]) ∧
    (s.dev.sqState q = 1 → Runs (.sqDisable req q) s fun t =>
      t.dev.gi Reg.CWQ_SQ_CTRL_ENABLE q = 0 ∧ (t.dev.sq q).fetched = [] ∧ (t.dev.sqState q = if (s.dev.sq q).started.isEmpty then 3 else 2)) ∧
    (s.dev.sqState q = 0 ∨ s.dev.sqState q = 3 → Runs (.resetIdx req q) s fun t =>
      t.dev.gi Reg.CWQ_SQ_HEAD_INDEX q = 0 ∧ s.onlyRegs t [0xA001C + 0x40 * q]) ∧
    (s.dev.sqState q = 1 ∨ s.dev.sqState q = 2 → Runs (.resetIdx req q) s fun t =>
      t.dev.g Reg.GCS_IGNORED_WRITES_COUNT = min (s.dev.g Reg.GCS_IGNORED_WRITES_COUNT + 1) (2 ^ 32 - 1) ∧ s.onlyRegs t [0x10008, 0x10010])) ∧
  (∀ (s : State) (req : Requester) (q : Nat), s.dev.ownsQueue req true q →
    let b := s.dev.queueOwnerB true q
    (s.dev.gi Reg.CWQ_CQ_CTRL_ENABLE q ≠ 0 → Runs (.cqEnable req q) s s.silent) ∧
    (s.dev.gi Reg.CWQ_CQ_CTRL_ENABLE q = 0 →
      (s.dev.canSend b 1 = false ∨ (s.dev.store b = [] ∧ s.dev.outside b = [] ∧ (∀ x ∈ s.dev.cwq.cqs, (s.dev.cq x.1).waiting = [])) →
        Runs (.cqEnable req q) s fun t =>
          t.dev.gi Reg.CWQ_CQ_CTRL_ENABLE q = 1 ∧ t.dev.gi Reg.CWQ_CQ_TAIL_INDEX q = 0 ∧ t.dev.gi Reg.CWQ_CQ_HEAD_INDEX q = 0 ∧
          s.onlyRegs t [0xB0000 + 0x40 * q, 0xB0004 + 0x40 * q, 0xB0014 + 0x40 * q, 0xB0018 + 0x40 * q]) ∧
      (∀ c, s.dev.canSend b 1 = true → s.dev.store b = [c] → c.cq = q → c.chan = none → s.dev.outside b = [] → (∀ x ∈ s.dev.cwq.cqs, (s.dev.cq x.1).waiting = []) →
        Runs (.cqEnable req q) s fun t =>
          t.dev.gi Reg.CWQ_CQ_CTRL_ENABLE q = 1 ∧ t.dev.gi Reg.CWQ_CQ_TAIL_INDEX q = 1 ∧ t.dev.gi Reg.CWQ_CQ_HEAD_INDEX q = 0 ∧ t.dev.store b = [])) ∧
    (s.dev.cqInUse q = false → Runs (.cqDisable req q) s fun t =>
      t.dev.gi Reg.CWQ_CQ_CTRL_ENABLE q = 0 ∧ s.onlyRegs t [0xB0000 + 0x40 * q]) ∧
    (s.dev.cqInUse q = true → Runs (.cqDisable req q) s fun t =>
      t.dev.gi Reg.CWQ_CQ_CTRL_ENABLE q = s.dev.gi Reg.CWQ_CQ_CTRL_ENABLE q ∧ s.onlyRegs t [0x10008, 0x10010])) ∧
  (∀ (s : State) (q : Nat),
    ((s.dev.cq q).pending = 0 → Runs (.cqModTimer q) s s.silent) ∧
    ((s.dev.cq q).pending ≠ 0 → Runs (.cqModTimer q) s fun t => (t.dev.cq q).pending = 0 ∧ t.dev.regs = s.dev.regs ∧ s.memKept t ∧
      (let b := s.dev.queueOwnerB true q
       let v := s.dev.gi Reg.CWQ_CQ_CTRL_VECTOR q
       let fn := (s.dev.port b).pf1
       s.dev.gi Reg.CWQ_CQ_CTRL_IEN q ≠ 0 → fn.msixEn = true → fn.msixMask = false → ((AMap.get fn.table v).getD ⟨0, 0, true⟩).masked = false →
       s.dev.canSend b 1 = true → t.dev.emitted = [.irq b 1 v]))) ∧
  (∀ (s : State) (req : Requester) (q : Nat) (i : Instr), s.dev.reaches req = true → req ≠ .mgmt →
    ((∃ v : Word, v ≠ 0 ∧ i = .sqDoorbell req q v) ∨ (∃ cid, cid ≠ 0 ∧ i = .sqAbort req q cid) ∨
      (s.dev.gi Reg.CWQ_SQ_CTRL_ENABLE q = 0 ∧ i = .sqEnable req q) ∨ (s.dev.gi Reg.CWQ_SQ_CTRL_ENABLE q ≠ 0 ∧ i = .sqDisable req q) ∨
      i = .resetIdx req q) ∧ q < 1024 ∧ ¬ s.dev.ownsQueue req false q ∨
    ((∃ v : Word, v ≠ 0 ∧ i = .cqDoorbell req q v) ∨ (s.dev.gi Reg.CWQ_CQ_CTRL_ENABLE q = 0 ∧ i = .cqEnable req q) ∨
      (s.dev.gi Reg.CWQ_CQ_CTRL_ENABLE q ≠ 0 ∧ i = .cqDisable req q)) ∧ q < 256 ∧ ¬ s.dev.ownsQueue req true q →
    Runs i s fun t =>
      t.dev.g Reg.GCS_IGNORED_WRITES_COUNT = min (s.dev.g Reg.GCS_IGNORED_WRITES_COUNT + 1) (2 ^ 32 - 1) ∧ s.onlyRegs t [0x10008, 0x10010])

/-! ### The NVMe front end -/

/-- I/O queues are created and deleted. For every state in which the controller's admin queue may be fetched and its completion posted: Create
I/O Completion Queue and Create I/O Submission Queue with an unused identifier 1 to 1,023, a size of 2 to 65,536 and a vector below 1,024
(an existing completion queue) add exactly the empty queue and complete with success; a bad identifier, size, vector or completion queue
completes with the status that names it and adds none. Delete I/O Completion Queue removes a queue that no submission queue names, is
refused for one that is named, and reports an absent one. Delete I/O Submission Queue reports an absent queue or one being deleted; with no
command of the queue outstanding it removes the queue and completes; with one that can be caught and that no degraded read serves, that
command completes as aborted first; with a command past its point it waits, the queue's unfetched commands discarded. Creation and refusal
change nothing but the controllers and, where the controller was in a non-operational state, what its return from it powers. A command that
may not be fetched stays in its queue: nothing changes. Basis: derived, 11_host_nvme.md. -/
def Obligations.IoQueuesComeAndGo : Prop :=
  ∀ (s : State) (b : Bool) (cid qid : Nat), cid < tunnelCid →
    (s.dev.fetchable b 0 = false → ∀ size x ien cqid,
      Runs (.createIoCq b cid qid size x ien) s s.silent ∧ Runs (.createIoSq b cid qid size cqid x) s s.silent ∧
      Runs (.deleteIoCq b cid qid) s s.silent ∧ (s.dev.calm → Runs (.deleteIoSq b cid qid) s s.silent)) ∧
    (s.dev.adminTakes b →
      let c := s.dev.ctl b
      let keeps := fun (t : State) => s.ctlOnly t ∧ (c.pstate < 3 → t.dev.fab = s.dev.fab)
      let same := fun (t : State) (st : NvStatus) => t.answers b 0 cid st 0 ∧ keeps t ∧
        (t.dev.ctl b).cqs.map (·.id) = c.cqs.map (·.id) ∧ (t.dev.ctl b).sqs.map (·.id) = c.sqs.map (·.id)
      let free := fun (ids : List Nat) => 1 ≤ qid ∧ qid ≤ 1023 ∧ qid ∉ ids
      (∀ size vec ien,
        (free (c.cqs.map (·.id)) → 2 ≤ size → size ≤ 65536 → vec < 1024 → Runs (.createIoCq b cid qid size vec ien) s fun t =>
          t.answers b 0 cid .success 0 ∧ keeps t ∧ NCq.mk qid size 0 0 vec ien [] ∈ (t.dev.ctl b).cqs ∧
          (t.dev.ctl b).cqs.map (·.id) = c.cqs.map (·.id) ++ [qid]) ∧
        (¬ free (c.cqs.map (·.id)) → Runs (.createIoCq b cid qid size vec ien) s fun t => same t .invalidQueueIdentifier) ∧
        (free (c.cqs.map (·.id)) → size < 2 ∨ 65536 < size → Runs (.createIoCq b cid qid size vec ien) s fun t => same t .invalidQueueSize) ∧
        (free (c.cqs.map (·.id)) → 2 ≤ size → size ≤ 65536 → 1024 ≤ vec →
          Runs (.createIoCq b cid qid size vec ien) s fun t => same t .invalidInterruptVector)) ∧
      (∀ size cqid prio,
        (free (c.sqs.map (·.id)) → 2 ≤ size → size ≤ 65536 → 1 ≤ cqid → cqid ≤ 1023 → cqid ∈ c.cqs.map (·.id) →
          Runs (.createIoSq b cid qid size cqid prio) s fun t =>
            t.answers b 0 cid .success 0 ∧ keeps t ∧ NSq.mk qid cqid size 0 0 prio ∈ (t.dev.ctl b).sqs ∧
            (t.dev.ctl b).sqs.map (·.id) = c.sqs.map (·.id) ++ [qid]) ∧
        (¬ free (c.sqs.map (·.id)) → Runs (.createIoSq b cid qid size cqid prio) s fun t => same t .invalidQueueIdentifier) ∧
        (free (c.sqs.map (·.id)) → size < 2 ∨ 65536 < size → Runs (.createIoSq b cid qid size cqid prio) s fun t => same t .invalidQueueSize) ∧
        (free (c.sqs.map (·.id)) → 2 ≤ size → size ≤ 65536 → cqid = 0 ∨ 1023 < cqid →
          Runs (.createIoSq b cid qid size cqid prio) s fun t => same t .invalidQueueIdentifier) ∧
        (free (c.sqs.map (·.id)) → 2 ≤ size → size ≤ 65536 → 1 ≤ cqid → cqid ≤ 1023 → cqid ∉ c.cqs.map (·.id) →
          Runs (.createIoSq b cid qid size cqid prio) s fun t => same t .completionQueueInvalid)) ∧
      (qid ≠ 0 → qid ∈ c.cqs.map (·.id) →
        (qid ∉ c.sqs.map (·.cq) → Runs (.deleteIoCq b cid qid) s fun t =>
          t.answers b 0 cid .success 0 ∧ keeps t ∧ qid ∉ (t.dev.ctl b).cqs.map (·.id)) ∧
        (qid ∈ c.sqs.map (·.cq) → Runs (.deleteIoCq b cid qid) s fun t => same t .invalidQueueDeletion)) ∧
      (qid = 0 ∨ qid ∉ c.cqs.map (·.id) → Runs (.deleteIoCq b cid qid) s fun t => same t .invalidQueueIdentifier) ∧
      (s.dev.calm →
        (qid = 0 ∨ qid ∉ c.sqs.map (·.id) ∨ qid ∈ c.deleting.map (·.1) →
          Runs (.deleteIoSq b cid qid) s fun t => same t .invalidQueueIdentifier) ∧
        (qid ≠ 0 → qid ∈ c.sqs.map (·.id) → qid ∉ c.deleting.map (·.1) →
          let mine := s.dev.cmds.filter fun x => x.portB == b && x.sq == qid && !x.detached
          (mine = [] → Runs (.deleteIoSq b cid qid) s fun t =>
            t.answers b 0 cid .success 0 ∧ keeps t ∧ qid ∉ (t.dev.ctl b).sqs.map (·.id)) ∧
          (∀ x, mine = [x] → x.catchable = true → x.cid < tunnelCid → s.dev.cmds.filter (·.id = x.id) = [x] →
            (∀ o ∈ s.dev.ops, o.kind ≠ .degraded x.id) → s.dev.canPost b qid →
            (∀ q r, c.sqs.find? (·.id = qid) = some q → c.sqs.find? (·.id = 0) = some r → q.cq ≠ r.cq) →
            Runs (.deleteIoSq b cid qid) s fun t =>
              t.answers b qid x.cid .abortedSqDeletion 0 ∧ t.answers b 0 cid .success 0 ∧ qid ∉ (t.dev.ctl b).sqs.map (·.id) ∧
              ∀ y ∈ t.dev.cmds, y.id ≠ x.id) ∧
          (mine ≠ [] → (∀ x ∈ mine, x.catchable = false) → Runs (.deleteIoSq b cid qid) s fun t =>
            t.dev.emitted = [] ∧ keeps t ∧ (qid, cid) ∈ (t.dev.ctl b).deleting ∧ ∀ q ∈ (t.dev.ctl b).sqs, q.id = qid → q.head = q.tail))))

/-- Log pages, Identify, features, Keep Alive and unsupported opcodes. For every state in which the admin queue may be fetched and its
completion posted: Get Log Page answers the vendor pages as bytes, the error log's entries, the changed namespace list (cleared unless
events are retained) and the standard pages of R528, and an unknown page with Invalid Log Page; Identify answers the controller structure,
the active namespaces and the other structures of R500, and an unknown CNS with Invalid Field; Get Features answers the current value, the
default or the capabilities of a supported feature, and an unknown one with Invalid Field. These three, tunnelled from the management
endpoint, answer without a fetch. Set Features of a plain value sets it, and in the vault where it is saved; of Power Management enters the
state; of Volatile Write Cache sets WCE where the cache is present; of the others as table 11-11 says; a save of an unsaveable feature, a
bad value and an unknown feature are refused. Keep Alive succeeds. Namespace Management, Namespace Attachment and any unsupported opcode
complete with Invalid Command Opcode and one more error. But for saved values and tags they change only the controllers and, on leaving a
non-operational state, what is powered. A command that may not be fetched stays in its queue. Basis: derived, 11_host_nvme.md,
18_management_subsystem.md. -/
def Obligations.AdminQueriesAnswer : Prop :=
  (∀ (s : State) (b : Bool) (cid : Nat), tunnelCid ≤ cid ∨ s.dev.adminTakes b →
    let d := if tunnelCid ≤ cid then s.start else s.start.fetch b 0
    let done := fun (t : State) (st : NvStatus) (v : Nat) => t.answers b 0 cid st v ∧ s.ctlOnly t ∧
      ((s.dev.ctl b).pstate < 3 ∨ tunnelCid ≤ cid → t.dev.fab = s.dev.fab) ∧ (tunnelCid ≤ cid → (t.dev.ctl b).sqs = (s.dev.ctl b).sqs)
    (∀ nsid off len rae,
      (Runs (.getLogPage b cid 0xC0 nsid off len rae) s fun t => done t .success 0 ∧ Emit.page b cid 0xC0 (pageRead d.arrayHealth off len) ∈ t.dev.emitted) ∧
      (Runs (.getLogPage b cid 0xC1 nsid off len rae) s fun t => done t .success 0 ∧ Emit.page b cid 0xC1 (pageRead d.memberStatePage off len) ∈ t.dev.emitted) ∧
      (s.dev.hasNs nsid = true ∨ nsid = 0xFFFFFFFF → Runs (.getLogPage b cid 0xC2 nsid off len rae) s fun t =>
        done t .success 0 ∧ Emit.page b cid 0xC2 (pageRead (d.lostPage nsid) off len) ∈ t.dev.emitted) ∧
      (s.dev.hasNs nsid = false → nsid ≠ 0xFFFFFFFF → Runs (.getLogPage b cid 0xC2 nsid off len rae) s fun t => done t .invalidNamespaceOrFormat 0) ∧
      (Runs (.getLogPage b cid 0x01 nsid off len rae) s fun t => done t .success 0 ∧ Emit.errLog b cid (s.dev.ctl b).errLog ∈ t.dev.emitted) ∧
      (Runs (.getLogPage b cid 0x04 nsid off len rae) s fun t => done t .success 0 ∧
        Emit.info b cid "Changed Namespace List" (named "NSID" (s.dev.ctl b).changedNs) ∈ t.dev.emitted ∧
        (t.dev.ctl b).changedNs = if rae then (s.dev.ctl b).changedNs else []) ∧
      (∀ lid ∈ [0x02, 0x03, 0x05, 0x0C, 0x0D, 0x81], Runs (.getLogPage b cid lid nsid off len rae) s fun t =>
        done t .success 0 ∧ ∃ what xs, Emit.info b cid what xs ∈ t.dev.emitted) ∧
      (∀ lid, lid ∉ [0x01, 0x02, 0x03, 0x04, 0x05, 0x0C, 0x0D, 0x81, 0xC0, 0xC1, 0xC2] →
        Runs (.getLogPage b cid lid nsid off len rae) s fun t => done t .invalidLogPage 0)) ∧
    (∀ nsid cntid,
      (Runs (.identify b cid 1 nsid cntid) s fun t => done t .success 0 ∧ Emit.info b cid "Identify" (("CNS", 1) :: d.identifyCtrl b) ∈ t.dev.emitted) ∧
      (∀ cns ∈ [0x02, 0x07, 0x10], Runs (.identify b cid cns nsid cntid) s fun t => done t .success 0 ∧
        Emit.info b cid "Identify" (("CNS", cns) :: named "NSID" (s.dev.nsidsAbove nsid)) ∈ t.dev.emitted) ∧
      (∀ cns ∈ [0x00, 0x11], 1 ≤ nsid → nsid ≤ 512 → Runs (.identify b cid cns nsid cntid) s fun t => done t .success 0 ∧
        Emit.info b cid "Identify" (("CNS", cns) :: d.identifyNs nsid) ∈ t.dev.emitted) ∧
      (∀ cns ∈ [0x00, 0x11], nsid = 0 ∨ 512 < nsid → Runs (.identify b cid cns nsid cntid) s fun t => done t .invalidNamespaceOrFormat 0) ∧
      (∀ cns, cns ∉ [0x00, 0x01, 0x02, 0x03, 0x05, 0x06, 0x07, 0x08, 0x10, 0x11, 0x12, 0x13, 0x1C] →
        Runs (.identify b cid cns nsid cntid) s fun t => done t .invalidField 0)) ∧
    (∀ fid nsid v sel,
      (featSaveable fid = none → Runs (.getFeatures b cid fid nsid v sel) s fun t => done t .invalidField 0) ∧
      (fid ∈ [0x01, 0x04, 0x08, 0x0A, 0x0B, 0x11, 0xC1] →
        Runs (.getFeatures b cid fid nsid v 0) s fun t => done t .success ((s.dev.ctl b).feat (featKey fid v)).toNat) ∧
      (s.dev.cachePresent = true → Runs (.getFeatures b cid 0x06 nsid v 0) s fun t => done t .success (if (s.dev.ctl b).wce then 1 else 0)) ∧
      (fid ∈ [0x01, 0x02, 0x04, 0x07, 0x08, 0x09, 0x0A, 0x0B, 0x0C, 0x11, 0xC1] →
        (Runs (.getFeatures b cid fid nsid v 1) s fun t => done t .success (if fid = 0x07 then 1022 + 1022 * 65536 else 0)) ∧
        (Runs (.getFeatures b cid fid nsid v 3) s fun t => done t .success (if fid ∈ [0x07, 0x09, 0x0A] then 4 else 5))))) ∧
  (∀ (s : State) (b : Bool) (cid : Nat), s.dev.adminTakes b → cid < tunnelCid →
    let ok := fun (t : State) => t.answers b 0 cid .success 0 ∧ s.ctlOnly t
    let no := fun (t : State) (st : NvStatus) => t.answers b 0 cid st 0 ∧ s.ctlOnly t
    (s.dev.calm → ∀ fid nsid v save table,
      (fid ∈ [0x01, 0x04, 0x08, 0x0A, 0x0B] → Runs (.setFeatures b cid fid nsid v false table) s fun t =>
        ok t ∧ (t.dev.ctl b).feat (featKey fid v) = BitVec.ofNat 64 v) ∧
      (fid ∈ [0x01, 0x04, 0x08, 0x0B] → Runs (.setFeatures b cid fid nsid v true table) s fun t =>
        t.answers b 0 cid .success 0 ∧ (t.dev.ctl b).feat (featKey fid v) = BitVec.ofNat 64 v ∧
        (b, featKey fid v, BitVec.ofNat 64 v) ∈ t.dev.nvm.saved ∧ Emit.vault "saved features" fid ∈ t.dev.emitted) ∧
      (bitsOf v 4 0 ≤ 3 ∨ (bitsOf v 4 0 = 4 ∧ s.dev.solo = true) → s.dev.activating = false →
        Runs (.setFeatures b cid 0x02 nsid v false table) s fun t => ok t ∧ (t.dev.ctl b).pstate = bitsOf v 4 0) ∧
      (s.dev.cachePresent = true → Runs (.setFeatures b cid 0x06 nsid v false table) s fun t => ok t ∧ (t.dev.ctl b).wce = v.testBit 0) ∧
      (s.dev.cachePresent = false → Runs (.setFeatures b cid 0x06 nsid v save table) s fun t => no t .invalidField) ∧
      (Runs (.setFeatures b cid 0x11 nsid v false table) s fun t => ok t ∧ (t.dev.ctl b).feat 0x11 = BitVec.ofNat 64 (v % 2)) ∧
      (Runs (.setFeatures b cid 0xC1 nsid v false table) s fun t => ok t ∧ (t.dev.ctl b).feat 0xC1 = BitVec.ofNat 64 (v % 16)) ∧
      (s.dev.hasNs nsid = true → Runs (.setFeatures b cid 0xC0 nsid v save table) s fun t =>
        t.answers b 0 cid .success 0 ∧ AMap.get t.dev.nvm.appTags nsid = some (v % 65536)) ∧
      (s.dev.hasNs nsid = false → Runs (.setFeatures b cid 0xC0 nsid v save table) s fun t => no t .invalidNamespaceOrFormat) ∧
      (1024 ≤ bitsOf v 15 0 → Runs (.setFeatures b cid 0x09 nsid v false table) s fun t => no t .invalidField) ∧
      ((∃ q ∈ (s.dev.ctl b).cqs, q.id ≠ 0) → Runs (.setFeatures b cid 0x07 nsid v false table) s fun t => no t .commandSequenceError) ∧
      (fid ∈ [0x07, 0x09, 0x0A] → Runs (.setFeatures b cid fid nsid v true table) s fun t => no t .featureNotSaveable) ∧
      (featSaveable fid = none → Runs (.setFeatures b cid fid nsid v save table) s fun t => no t .invalidField)) ∧
    (Runs (.keepAlive b cid) s ok) ∧
    let bad := fun (t : State) => (t.dev.ctl b).errCount = (s.dev.ctl b).errCount + 1 ∧ s.ctlOnly t
    (Runs (.namespaceManagement b cid) s fun t => t.answers b 0 cid .invalidOpcode 0 ∧ bad t) ∧
    (Runs (.namespaceAttachment b cid) s fun t => t.answers b 0 cid .invalidOpcode 0 ∧ bad t)) ∧
  (∀ (s : State) (b : Bool) (cid sq : Nat), cid < tunnelCid →
    (s.dev.fetchable b sq = true → s.dev.canPost b sq → Runs (.invalidOpcode b sq cid) s fun t =>
      t.answers b sq cid .invalidOpcode 0 ∧ (t.dev.ctl b).errCount = (s.dev.ctl b).errCount + 1 ∧ s.ctlOnly t) ∧
    (s.dev.fetchable b sq = false → Runs (.invalidOpcode b sq cid) s s.silent) ∧
    (s.dev.fetchable b 0 = false → ∀ x nsid y z w rae save table,
      Runs (.getLogPage b cid x nsid y z rae) s s.silent ∧ Runs (.identify b cid x nsid y) s s.silent ∧ Runs (.getFeatures b cid x nsid y w) s s.silent ∧
      (s.dev.calm → Runs (.setFeatures b cid x nsid y save table) s s.silent) ∧ Runs (.keepAlive b cid) s s.silent))

/-- Abort, Asynchronous Event Request, Flush and the NVMe doorbells. For every state in which the queue may be fetched and its completion
posted: Abort of a command that is not outstanding, or past its point, completes with result 1 and touches nothing but the controllers; of a
caught command that no degraded read serves, the target completes as aborted on its own queue, the Abort completes with result 0, and the
target is gone; of a waiting Asynchronous Event Request, both complete where there is room for two. An Asynchronous Event Request waits
where no notice is kept, takes the oldest kept notice otherwise, and is refused beyond 16. Flush of a namespace under a key switch stays in
its queue; one that fails its checks completes with that status; one that passes them completes at once where the write cache is reported
absent or nothing is unretired, and otherwise waits for the head. A submission doorbell with a valid tail gives a queue that is not being
deleted that tail; a completion doorbell gives the queue its head, and a completion that waited alone for the room is posted where the port
may send and stays held where it may not; neither acts while PF0 takes no memory write. A command that may not be fetched stays in its
queue. Basis: derived, 11_host_nvme.md, 07_integrity_and_encryption.md. -/
def Obligations.AbortEventsFlushDoorbells : Prop :=
  ∀ (s : State) (b : Bool) (cid : Nat), cid < tunnelCid →
    (s.dev.fetchable b 0 = false → Runs (.asyncEventRequest b cid) s s.silent ∧
      (s.dev.calm → ∀ sq target, Runs (.abort b cid sq target) s s.silent)) ∧
    (s.dev.adminTakes b →
      (∀ sq target, s.dev.calm → target < tunnelCid →
        (sq = 0 → target ∈ (s.dev.ctl b).aers →
          (∀ x q, (s.dev.ctl b).sqs.find? (·.id = 0) = some x → (s.dev.ctl b).cqs.find? (·.id = x.cq) = some q →
            ((q.tail + 1) % q.size + 1) % q.size ≠ q.head) →
          Runs (.abort b cid sq target) s fun t => t.answers b 0 target .commandAbortRequested 0 ∧ t.answers b 0 cid .success 0 ∧
            (t.dev.ctl b).aers = (s.dev.ctl b).aers.filter (· ≠ target) ∧ s.ctlOnly t) ∧
        (sq ≠ 0 ∨ target ∉ (s.dev.ctl b).aers →
          let caught := s.dev.cmds.find? fun x => x.portB == b && x.sq == sq && x.cid == target && !x.detached && x.catchable
          (caught = none → Runs (.abort b cid sq target) s fun t => t.answers b 0 cid .success 1 ∧ s.ctlOnly t) ∧
          (∀ x, caught = some x → s.dev.cmds.filter (·.id = x.id) = [x] → (∀ o ∈ s.dev.ops, o.kind ≠ .degraded x.id) →
            (s.dev.ctl b).deleting = [] → s.dev.canPost b sq →
            (∀ q r, (s.dev.ctl b).sqs.find? (·.id = sq) = some q → (s.dev.ctl b).sqs.find? (·.id = 0) = some r → q.cq ≠ r.cq) →
            Runs (.abort b cid sq target) s fun t =>
              t.answers b sq target .commandAbortRequested 0 ∧ t.answers b 0 cid .success 0 ∧ (∀ y ∈ t.dev.cmds, y.id ≠ x.id) ∧
              (∀ w ∈ t.dev.jnl.waiting, w.use ≠ .host x.id) ∧ t.dev.jnl.recs = s.dev.jnl.recs ∧ s.memKept t))) ∧
      ((s.dev.ctl b).aers.length < 16 →
        ((s.dev.ctl b).notices = [] → Runs (.asyncEventRequest b cid) s fun t =>
          t.dev.emitted = [] ∧ (t.dev.ctl b).aers = (s.dev.ctl b).aers ++ [cid] ∧ s.ctlOnly t) ∧
        (∀ typ info page rest, (s.dev.ctl b).notices = (typ, info, page) :: rest → Runs (.asyncEventRequest b cid) s fun t =>
          Emit.aen b typ info page ∈ t.dev.emitted ∧ t.answers b 0 cid .success (typ + info * 256 + page * 65536) ∧
          (t.dev.ctl b).notices = rest ∧ (t.dev.ctl b).aers = (s.dev.ctl b).aers ∧ s.ctlOnly t)) ∧
      (16 ≤ (s.dev.ctl b).aers.length → Runs (.asyncEventRequest b cid) s fun t => t.answers b 0 cid .aerLimitExceeded 0 ∧ s.ctlOnly t)) ∧
    (∀ h : HostIo, h.portB = b → h.cid = cid → s.dev.calm →
      (s.dev.nsHeld h.nsid = true ∨ s.dev.fetchable b h.sq = false → Runs (.flush h) s s.silent) ∧
      (s.dev.nsHeld h.nsid = false → s.dev.fetchable b h.sq = true →
        (∀ st, h.nsid ≠ 0xFFFFFFFF → s.dev.nsError h.nsid = some st → s.dev.canPost b h.sq → Runs (.flush h) s fun t =>
          t.answers b h.sq cid st 0 ∧ s.ctlOnly t) ∧
        (h.nsid = 0xFFFFFFFF ∨ s.dev.nsError h.nsid = none → (∀ x ∈ s.dev.cmds, x.id ≠ s.dev.nextId) →
          (s.dev.cachePresent = false ∨ s.dev.head < s.dev.tail → s.dev.canPost b h.sq → Runs (.flush h) s fun t =>
            t.answers b h.sq cid .success 0 ∧ t.dev.cmds = s.dev.cmds ∧ t.dev.jnl = s.dev.jnl) ∧
          (s.dev.cachePresent = true → s.dev.tail ≤ s.dev.head → Runs (.flush h) s fun t =>
            t.dev.emitted = [] ∧ t.dev.jnl.flushes = s.dev.jnl.flushes ++ [(s.dev.nextId, s.dev.head)] ∧ t.dev.jnl.recs = s.dev.jnl.recs ∧
            t.dev.g Reg.JNL_BARRIER_SEQ_SEQ = s.dev.head % 2 ^ 64 ∧ ∃ x, t.dev.cmds = s.dev.cmds ++ [x] ∧ x.cid = cid ∧ x.sq = h.sq)))) ∧
    (s.dev.takesBar0 b = false → (∀ sq tail, Runs (.nvmeSqDoorbell b sq tail) s s.silent) ∧ ∀ cq head, Runs (.nvmeCqDoorbell b cq head) s s.silent) ∧
    (s.dev.takesBar0 b = true →
      (∀ sq tail,
        (sq ∈ (s.dev.ctl b).deleting.map (·.1) → Runs (.nvmeSqDoorbell b sq tail) s s.silent) ∧
        (sq ∉ (s.dev.ctl b).deleting.map (·.1) → Runs (.nvmeSqDoorbell b sq tail) s fun t =>
          (∀ q ∈ (s.dev.ctl b).sqs, (q.id = sq → tail < q.size → { q with tail := tail } ∈ (t.dev.ctl b).sqs) ∧
            (q.id ≠ sq ∨ q.size ≤ tail → q ∈ (t.dev.ctl b).sqs)) ∧
          (t.dev.ctl b).cqs = (s.dev.ctl b).cqs ∧ t.dev.regs = s.dev.regs ∧ s.ctlOnly t)) ∧
      (∀ q ∈ (s.dev.ctl b).cqs, ∀ head, ((s.dev.ctl b).cqs.map (·.id)).Nodup → (∀ r ∈ (s.dev.ctl b).cqs, r.id ≠ q.id → r.held = []) →
        (q.held = [] ∨ s.dev.canSend b 0 = false ∨ s.dev.postStopped = true → Runs (.nvmeCqDoorbell b q.id head) s fun t =>
          (if head < q.size then { q with head := head } else q) ∈ (t.dev.ctl b).cqs ∧ (t.dev.ctl b).sqs = (s.dev.ctl b).sqs ∧
          t.dev.emitted = [] ∧ s.ctlOnly t) ∧
        (∀ c, q.held = [c] → head < q.size → (q.tail + 1) % q.size ≠ head → s.dev.canSend b 0 = true → s.dev.postStopped = false →
          Runs (.nvmeCqDoorbell b q.id head) s fun t =>
            t.answers b c.sq c.cid c.status c.dw0 ∧ { q with head := head, held := [], tail := (q.tail + 1) % q.size } ∈ (t.dev.ctl b).cqs ∧ s.ctlOnly t)))

/-- Controllers are enabled, time out, are disabled, shut down, reset and change power state. For every state: while PF0 takes no memory write,
and for a controller already enabled (or not), CC.EN set, CC.EN cleared and a shutdown do nothing. Where PF0 takes it: enabling a disabled
controller gives it empty admin queues of the sizes named and makes it ready where the journal runs, buffer memory is initialised and
nothing holds it; disabling clears EN, RDY and its queues and requests and, where no degraded read serves one of its commands, leaves no
command of it that can still complete, the records and the other controller as they were. READY_TIMEOUT of one held not ready sets CFS and
nothing else, and does nothing to another. A normal shutdown with nothing outstanding and the cache reported absent is complete at once;
with a command outstanding, or with records a reported cache may hold, it is in progress, with a barrier at the head where the cache is
reported present; an abrupt one is complete at once and, where no degraded read serves its commands, leaves only admitted ones. An NVM
subsystem reset disables both controllers. APST moves a ready controller with the feature on to the table's state 3, or 4 on a standalone
package, and does nothing with the feature off or no time set. Basis: derived, 11_host_nvme.md. -/
def Obligations.ControllerLifeCycle : Prop :=
  ∀ (s : State) (b : Bool),
    let c := s.dev.ctl b
    let alone := ∀ x ∈ s.dev.cmds, x.portB = b → x.detached = false → ∀ o ∈ s.dev.ops, o.kind ≠ .degraded x.id
    (s.dev.takesBar0 b = false ∨ c.en = true → ∀ ams asqs acqs, Runs (.ccEnable b ams asqs acqs) s s.silent) ∧
    (s.dev.takesBar0 b = false ∨ c.en = false → s.dev.calm →
      Runs (.ccDisable b) s s.silent ∧ Runs (.shutdownNormal b) s s.silent ∧ Runs (.shutdownAbrupt b) s s.silent) ∧
    (s.dev.takesBar0 b = true → c.en = false → ∀ ams asqs acqs, Runs (.ccEnable b ams asqs acqs) s fun t =>
      (t.dev.ctl b).en = true ∧ (t.dev.ctl b).sqs = [NSq.mk 0 0 asqs 0 0 0] ∧ (t.dev.ctl b).cqs = [NCq.mk 0 acqs 0 0 0 true []] ∧
      (t.dev.ctl b).enUs = s.dev.now ∧ (t.dev.ctl b).ams = ams ∧ (t.dev.ctl b).shst = 0 ∧ s.ctlOnly t ∧ t.dev.fab = s.dev.fab ∧
      (c.rdy = false → c.cfs = false → s.dev.running = true → s.dev.on Reg.BUF_STATUS_INIT_DONE = true → s.dev.heldNotReady = false → (t.dev.ctl b).rdy = true) ∧
      (c.rdy = false → s.dev.heldNotReady = true → (t.dev.ctl b).rdy = false)) ∧
    (c.en = true → c.rdy = false → s.dev.heldNotReady = true → Runs (.readyTimeout b) s fun t =>
      t.dev.ctl b = { c with cfs := true } ∧ t.dev.ctl (!b) = s.dev.ctl (!b) ∧ s.ctlOnly t ∧ t.dev.regs = s.dev.regs ∧ t.dev.fab = s.dev.fab) ∧
    (c.en = false ∨ c.rdy = true ∨ s.dev.heldNotReady = false → Runs (.readyTimeout b) s s.silent) ∧
    (s.dev.takesBar0 b = true → c.en = true → s.dev.calm →
      (Runs (.ccDisable b) s fun t =>
        (t.dev.ctl b).en = false ∧ (t.dev.ctl b).rdy = false ∧ (t.dev.ctl b).sqs = [] ∧ (t.dev.ctl b).cqs = [] ∧ (t.dev.ctl b).aers = [] ∧
        (alone → t.dev.ctl (!b) = s.dev.ctl (!b) ∧ (∀ x ∈ t.dev.cmds, x.portB = b → x.detached = true) ∧ t.dev.jnl.recs = s.dev.jnl.recs ∧
          s.memKept t)) ∧
      (c.shst ≠ 0 → Runs (.shutdownNormal b) s s.silent) ∧
      (c.shst = 0 → s.dev.cachePresent = false → (∀ x ∈ s.dev.cmds, x.portB = b → x.detached = true) → Runs (.shutdownNormal b) s fun t =>
        t.dev.ctl b = { c with shutdown := true, shst := 2, shutBarrier := none } ∧ s.ctlOnly t ∧ t.dev.fab = s.dev.fab) ∧
      (c.shst = 0 → (∃ x ∈ s.dev.cmds, x.portB = b ∧ x.detached = false) → Runs (.shutdownNormal b) s fun t =>
        (t.dev.ctl b).shst = 1 ∧ (t.dev.ctl b).shutdown = true ∧ t.dev.cmds = s.dev.cmds ∧ t.dev.jnl.recs = s.dev.jnl.recs) ∧
      (c.shst = 0 → s.dev.cachePresent = true → s.dev.tail ≤ s.dev.head → Runs (.shutdownNormal b) s fun t =>
        (t.dev.ctl b).shst = 1 ∧ (t.dev.ctl b).shutdown = true ∧ (t.dev.ctl b).shutBarrier = some s.dev.head ∧
        t.dev.g Reg.JNL_BARRIER_SEQ_SEQ = s.dev.head % 2 ^ 64 ∧ t.dev.jnl = s.dev.jnl) ∧
      (Runs (.shutdownAbrupt b) s fun t =>
        (t.dev.ctl b).shutdown = true ∧ (t.dev.ctl b).shst = 2 ∧
        (alone → t.dev.ctl b = { c with shutdown := true, shst := 2, shutBarrier := none } ∧
          (∀ x ∈ t.dev.cmds, x.portB = b → x.detached = true ∨ x.admitted = true) ∧ t.dev.jnl.recs = s.dev.jnl.recs ∧ s.memKept t))) ∧
    (s.dev.calm → Runs .nvmSubsystemReset s fun t =>
      t.dev.ctlA.en = false ∧ t.dev.ctlB.en = false ∧ t.dev.ctlA.rdy = false ∧ t.dev.ctlB.rdy = false ∧ t.dev.ctlA.sqs = [] ∧ t.dev.ctlB.sqs = []) ∧
    (s.dev.calm →
      let e := apstEntry c.apst c.pstate
      (c.rdy = true → (c.feat 0x0C).toNat.testBit 0 = true → e.1 ≠ 0 → e.2 = 3 ∨ (e.2 = 4 ∧ s.dev.solo = true) →
        Runs (.apstTransition b) s fun t =>
          (t.dev.ctl b).pstate = e.2 ∧ (t.dev.ctl b).lastOp = (if c.pstate < 3 then c.pstate else c.lastOp) ∧ t.dev.emitted = [] ∧ s.ctlOnly t) ∧
      ((c.feat 0x0C).toNat.testBit 0 = false ∨ e.1 = 0 → Runs (.apstTransition b) s s.silent))

/-- Firmware download, commit and activation, Format NVM and Sanitize. For every state in which the admin queue may be fetched and its
completion posted: while the core runs and no sanitize does, a download piece aligned to 4 KiB within 256 MiB joins the download and any
other is Invalid Field; a sanitize refuses it, and while the core is down it and a commit are held. A commit of a downloaded image with no
erasure or update package under way writes the slot, VALID where the image is admissible and BAD with a failure status otherwise, and
empties the download; its action 1 also makes it the boot slot and the one to activate, action 3 the one that is activated now; one that
meets an erasure waits; a bad action, slot or package is refused. FW_ACTIVATION with no command outstanding runs a valid slot whose image is
still admissible, keeps the running image otherwise, and completes the commit that asked for it; it does nothing before. Format NVM without
secure erase of an idle namespace on a standalone package sets its format and completes; where the armature engine is busy any format waits;
a failed sanitize, an unknown namespace, format or erase setting refuses it. Sanitize by crypto erase or overwrite completes when started
and waits where the armature engine is busy; action 2 is Invalid Field; action 1 leaves failure mode, in a restricted one not. The details
of Firmware Commit are PRESUMED (log entries 41 and 135). Basis: derived, 11_host_nvme.md, 18_management_subsystem.md. -/
def Obligations.FirmwareFormatSanitize : Prop :=
  ∀ (s : State) (b : Bool) (cid : Nat), cid < tunnelCid →
    (s.dev.on Reg.MBX_STATUS_CORE_UP = false → ∀ x y bytes,
      Runs (.firmwareImageDownload b cid x bytes) s s.silent ∧ Runs (.firmwareCommit b cid x y) s s.silent) ∧
    (s.dev.mgmt.act = none ∨ s.dev.nvm.erases ≠ [] ∨ (∃ x ∈ s.dev.cmds, x.detached = false) → Runs .fwActivation s s.silent) ∧
    (s.dev.canPost b 0 →
      (∀ a : FwAct, s.dev.mgmt.act = some a → a.cmd = some (b, cid) → s.dev.nvm.erases = [] → (∀ x ∈ s.dev.cmds, x.detached = true) →
        Runs .fwActivation s fun t =>
          t.dev.mgmt.act = none ∧ t.answers b 0 cid .success 0 ∧ s.memKept t ∧
          if (s.dev.fw a.slot).st = 1 ∧ s.dev.admissible (s.dev.fw a.slot).image = true then
            t.dev.mgmt.run = a.slot ∧ t.dev.g Reg.MBX_FW_REV_VALUE = imgRevision (s.dev.fw a.slot).image % 2 ^ 64 ∧
            t.dev.mgmt.rom = imgRom (s.dev.fw a.slot).image
          else t.dev.mgmt.run = s.dev.mgmt.run ∧ t.dev.mgmt.rom = s.dev.mgmt.rom) ∧
      (s.dev.fetchable b 0 = true →
        (s.dev.on Reg.MBX_STATUS_CORE_UP = true →
          (s.dev.sanitizing = true → ∀ off bytes, Runs (.firmwareImageDownload b cid off bytes) s fun t =>
            t.answers b 0 cid .sanitizeInProgress 0 ∧ s.ctlOnly t) ∧
          (s.dev.sanitizing = false → ∀ off bytes,
            let fits := off % 4096 = 0 ∧ bytes.length % 4096 = 0 ∧ bytes ≠ [] ∧ off + bytes.length ≤ 0x10000000
            (fits → Runs (.firmwareImageDownload b cid off bytes) s fun t =>
              t.answers b 0 cid .success 0 ∧ t.dev.mgmt = { s.dev.mgmt with download := s.dev.mgmt.download ++ [(off, bytes)] }) ∧
            (¬ fits → Runs (.firmwareImageDownload b cid off bytes) s fun t => t.answers b 0 cid .invalidField 0 ∧ s.ctlOnly t)) ∧
          (s.dev.nvm.erases = [] → ∀ slot action,
            (s.dev.mgmt.pldm ≠ none → Runs (.firmwareCommit b cid slot action) s fun t =>
              t.answers b 0 cid .firmwareActivationProhibited 0 ∧ s.ctlOnly t) ∧
            (s.dev.mgmt.pldm = none → 3 < action → Runs (.firmwareCommit b cid slot action) s fun t => t.answers b 0 cid .invalidField 0 ∧ s.ctlOnly t) ∧
            (s.dev.mgmt.pldm = none → action ≤ 3 → 3 < slot → Runs (.firmwareCommit b cid slot action) s fun t =>
              t.answers b 0 cid .invalidFirmwareSlot 0 ∧ s.ctlOnly t) ∧
            (s.dev.mgmt.pldm = none → 1 ≤ slot → slot ≤ 3 → s.dev.mgmt.slots.length = 3 → downloaded s.dev.mgmt.download ≠ [] →
              action ∈ [0, 1, 3] →
              let img := downloaded s.dev.mgmt.download
              let ok := s.dev.admissible img
              let go := ok && action != 0
              Runs (.firmwareCommit b cid slot action) s fun t =>
                t.dev.fw slot = ⟨if ok then 1 else 2, img, s.dev.mgmt.stamp + 1⟩ ∧ t.dev.mgmt.download = [] ∧
                t.dev.mgmt.boot = (if go then slot else s.dev.mgmt.boot) ∧ t.dev.mgmt.run = s.dev.mgmt.run ∧
                Emit.vault "firmware slot" slot ∈ t.dev.emitted ∧
                (if ok && action == 3 then t.dev.mgmt.act = some ⟨slot, some (b, cid)⟩
                 else t.answers b 0 cid (if ok then .success else Dev.imageStatus img) 0 ∧
                   t.dev.mgmt.pending = if go then some slot else s.dev.mgmt.pending))) ∧
          (∀ slot action, s.dev.nvm.erases ≠ [] → Runs (.firmwareCommit b cid slot action) s fun t =>
            t.dev.emitted = [] ∧ t.dev.mgmt = { s.dev.mgmt with waiting := s.dev.mgmt.waiting ++ [(b, cid, slot, action)] })) ∧
        (s.dev.calm →
          (∀ nsid lbaf pi ses piFirst,
            let wrong := 4 < lbaf ∨ 3 < pi ∨ (lbaf = 0 ∧ pi ≠ 0)
            (s.dev.nvm.sanFailed = true → Runs (.formatNvm b cid nsid lbaf pi ses piFirst) s fun t =>
              t.answers b 0 cid .sanitizeFailed 0 ∧ s.ctlOnly t) ∧
            (s.dev.nvm.sanFailed = false → s.dev.hasNs nsid = false → nsid ≠ 0xFFFFFFFF → Runs (.formatNvm b cid nsid lbaf pi ses piFirst) s fun t =>
              t.answers b 0 cid .invalidNamespaceOrFormat 0 ∧ s.ctlOnly t) ∧
            (s.dev.nvm.sanFailed = false → s.dev.hasNs nsid = true ∨ nsid = 0xFFFFFFFF →
              (wrong → Runs (.formatNvm b cid nsid lbaf pi ses piFirst) s fun t => t.answers b 0 cid .invalidFormat 0 ∧ s.ctlOnly t) ∧
              (¬ wrong → 2 < ses → Runs (.formatNvm b cid nsid lbaf pi ses piFirst) s fun t => t.answers b 0 cid .invalidField 0 ∧ s.ctlOnly t) ∧
              (¬ wrong → ses ≤ 2 → s.dev.solo = true → s.dev.armBusy = true → Runs (.formatNvm b cid nsid lbaf pi ses piFirst) s fun t =>
                ∃ e, t.dev.nvm.erases = [e] ∧ e.sanitize = false ∧ e.waiting = true ∧ e.ses = ses ∧ e.newFmt = ⟨lbaf, pi, piFirst⟩ ∧ e.cid = cid ∧
                  t.dev.nvm.fmts = s.dev.nvm.fmts) ∧
              (¬ wrong → nsid ≠ 0xFFFFFFFF → s.dev.solo = true → s.dev.armBusy = false → s.dev.acd.nsOps = [] → s.dev.nsBusy nsid = false →
                ((s.dev.nsidsOwned true).filter fun n => n == nsid) = [nsid] →
                (∀ o ∈ s.dev.ops, o.kind = .destage → o.sent = false) → Runs (.formatNvm b cid nsid lbaf pi 0 piFirst) s fun t =>
                  t.answers b 0 cid .success 0 ∧ AMap.get t.dev.nvm.fmts nsid = some ⟨lbaf, pi, piFirst⟩ ∧ t.dev.nvm.erases = [] ∧ t.dev.jnl = s.dev.jnl))) ∧
          (∀ action passes pattern ause invert noDealloc,
            (action = 3 ∨ action = 4 → s.dev.solo = true → s.dev.armBusy = true → Runs (.sanitize b cid action passes pattern ause invert noDealloc) s fun t =>
              t.answers b 0 cid .success 0 ∧ t.dev.nvm.sanDone = false ∧ t.dev.nvm.sanAuse = ause ∧
              ∃ e, t.dev.nvm.erases = [e] ∧ e.sanitize = true ∧ e.waiting = true ∧ e.ses = (if action = 3 then 3 else 2) ∧ e.nsids = s.dev.nsidsOwned true) ∧
            (action ≠ 1 → action ≠ 3 → action ≠ 4 → Runs (.sanitize b cid action passes pattern ause invert noDealloc) s fun t =>
              t.answers b 0 cid .invalidField 0 ∧ s.ctlOnly t) ∧
            (s.dev.nvm.sanFailed = true → s.dev.nvm.sanAuse = false → Runs (.sanitize b cid 1 passes pattern ause invert noDealloc) s fun t =>
              t.answers b 0 cid .sanitizeFailed 0 ∧ s.ctlOnly t) ∧
            (s.dev.nvm.sanFailed = false ∨ s.dev.nvm.sanAuse = true → Runs (.sanitize b cid 1 passes pattern ause invert noDealloc) s fun t =>
              t.answers b 0 cid .success 0 ∧ t.dev.nvm.sanFailed = false)))))

/-! ### The host ports -/

/-- The translated window, the expansion ROM, and the counters' clear. For every state: an access of BAR4 while PF1 takes no memory accesses, or
beyond 1 GiB, is an Unsupported Request. A read that its entry translates answers the bytes of the host area and zero for every other
address, poisoned where it touches a line that is uncorrectable; one that its entry refuses answers zeros and counts a denial. A write that
is translated stores exactly its bytes that lie in the host area, but leaves every uncorrectable line that it covers in part as it was; one
refused counts a denial, and a poisoned one is reported and stores nothing. The expansion ROM answers the image copy where it is enabled and
the offset lies within 4 MiB, and else Unsupported Request. XLT_CLR_COUNTS clears the four counters. Every byte of memory not written, every
other register and everything else stays. Basis: derived, 12_pcie_endpoint.md, 04_buffer_memory.md. -/
def Obligations.WindowAndRom : Prop :=
  ∀ (s : State) (b : Bool),
    let count := if b then Reg.XLT_DENIEDB_COUNT else Reg.XLT_DENIEDA_COUNT
    let refused := fun (t : State) => t.dev.g count = min (s.dev.g count + 1) (fldMax count) ∧ s.onlyRegs t [count.base]
    let area := fun (x : Nat) => s.dev.hostBase ≤ x ∧ x < s.dev.hbmTop
    (∀ off, s.dev.takesPf1 b = false ∨ 2 ^ 30 ≤ off →
      (∀ len, exec (.bar4Read b off len) s = .next (s.withDev [.unsupported] id)) ∧
      ∀ bytes p, exec (.bar4Write b off bytes p) s = .next (s.withDev [.unsupported] id)) ∧
    (∀ off len, s.dev.takesPf1 b = false ∨ ((s.dev.port b).pf1.cfgAt 0x30).toNat.testBit 0 = false ∨ 0x400000 ≤ off →
      exec (.expansionRomRead b off len) s = .next (s.withDev [.unsupported] id)) ∧
    (s.dev.takesPf1 b = true → ∀ off, off < 2 ^ 30 →
      (∀ len, s.dev.translate b off false = none → Runs (.bar4Read b off len) s fun t =>
        t.dev.emitted = [.replyBytes (List.replicate len 0)] ∧ refused t) ∧
      (∀ len a, s.dev.translate b off false = some a →
        (s.dev.badRead a len = true → exec (.bar4Read b off len) s = .next (s.withDev [.poisoned] id)) ∧
        (s.dev.badRead a len = false → Runs (.bar4Read b off len) s fun t =>
          t = s.withDev t.dev.emitted id ∧ ∃ bytes, t.dev.emitted = [.replyBytes bytes] ∧ bytes.length = len ∧
            ∀ i (h : i < bytes.length), (area (a + i) → bytes[i] = Memory.read s.mem (a + i)) ∧ (¬ area (a + i) → bytes[i] = 0))) ∧
      (∀ bytes, s.dev.translate b off true = none → Runs (.bar4Write b off bytes false) s fun t => t.dev.emitted = [] ∧ refused t) ∧
      (∀ bytes a, s.mem.wf → s.dev.translate b off true = some a → Runs (.bar4Write b off bytes false) s fun t =>
        t.dev = { s.dev with emitted := t.dev.emitted, badHost := t.dev.badHost } ∧
        let good := fun (x : Nat) => x / 64 ∉ s.dev.badHost ∨ (a ≤ x / 64 * 64 ∧ x / 64 * 64 + 64 ≤ a + bytes.length)
        (∀ i (h : i < bytes.length), area (a + i) → good (a + i) → Memory.read t.mem (a + i) = bytes[i]) ∧
        ∀ x < 2 ^ 48, x < a ∨ a + bytes.length ≤ x ∨ ¬ area x ∨ ¬ good x → Memory.read t.mem x = Memory.read s.mem x) ∧
      (∀ bytes, Runs (.bar4Write b off bytes true) s fun t =>
        t.dev.emitted = [.aer b 1 12] ∧ (1, 12) ∈ (t.dev.port b).aer ∧ t.dev.regs = s.dev.regs ∧ s.memKept t ∧ t.dev.port (!b) = s.dev.port (!b)) ∧
      (∀ len, ((s.dev.port b).pf1.cfgAt 0x30).toNat.testBit 0 = true → off < 0x400000 →
        exec (.expansionRomRead b off len) s = .next (s.withDev [.replyBytes (pageRead s.dev.mgmt.rom off len)] id))) ∧
    (∀ req, s.dev.commands req → Runs (.xltClrCounts req) s fun t =>
      (∀ a ∈ [0x200020, 0x200024, 0x200028, 0x20002C], t.dev.reg a = 0) ∧ s.onlyRegs t [0x200020, 0x200024, 0x200028, 0x20002C])

/-- Configuration registers, Bus Master Enable, D-states and Function Level Reset. For every state: a configuration write to a register of plain
values stores exactly its writable, enabled bits (the masks are the model's reading of PCI Express, log entry 43); one to PF1 before the
buffer is initialised answers Request Retry Status and changes nothing, and one to a port that is down nothing. Command bit 1 is Memory
Space Enable; MSI-X control sets Enable and Function Mask; an AER status bit is cleared by writing 1; Device Control bit 15 resets the
function; power state 3 moves it to D3hot. The configuration space holds the identifiers, revisions and class codes of table 12-2. Clearing
Bus Master Enable of a function stops its requests and quarantines all its tags, and with PF1's queues at rest leaves the other function's
tags; clearing it where it is clear does nothing; setting it lets the function send, and with nothing held changes nothing else. A move to
D3hot is shown in DSTATE, holds the function, and first restarts the moderation of the port's queues with completions pending, and touches
nothing else with none; the move back ends that. FLR blanks the function; of PF0 it resets its controller, and with PF1's queues at rest its
tags are quarantined and the other port stays. Basis: derived, 12_pcie_endpoint.md. -/
def Obligations.FunctionsAreConfigured : Prop :=
  ∀ (s : State) (b : Bool),
    let p := s.dev.port b
    (∀ fn off v en, p.up = false ∨ 1 < fn → Runs (.configWrite b fn off v en) s s.silent) ∧
    (∀ off v en, p.up = true → s.dev.on Reg.BUF_STATUS_INIT_DONE = false → exec (.configWrite b 1 off v en) s = .next (s.withDev [.retryStatus] id)) ∧
    (∀ fn off v en, p.up = true → fn ≤ 1 → (fn = 1 → s.dev.on Reg.BUF_STATUS_INIT_DONE = true) →
      let f := p.fn fn
      let g := fun (t : State) => (t.dev.port b).fn fn
      (off ∉ [0x04, 0x44, 0x50, 0x78, 0x104] → Runs (.configWrite b fn off v en) s fun t =>
        let mask := BitVec.ofNat 32 (cfgMask fn off) &&& en
        (g t).cfgAt off = (f.cfgAt off &&& ~~~mask) ||| (v &&& mask) ∧
        t.dev.emitted = [] ∧ t.dev.regs = s.dev.regs ∧ t.dev.port (!b) = s.dev.port (!b) ∧ (t.dev.port b).tags = p.tags ∧ s.memKept t) ∧
      (off = 0x04 → en.toNat.testBit 1 = true → en.toNat.testBit 2 = false → Runs (.configWrite b fn off v en) s fun t =>
        (g t).mse = v.toNat.testBit 1 ∧ (g t).bme = f.bme ∧ t.dev.regs = s.dev.regs) ∧
      (off = 0x50 → en.toNat.testBit 30 = true → en.toNat.testBit 31 = true → f.pba = [] → Runs (.configWrite b fn off v en) s fun t =>
        (g t).msixEn = v.toNat.testBit 31 ∧ (g t).msixMask = v.toNat.testBit 30 ∧ t.dev.emitted = [] ∧ t.dev.regs = s.dev.regs) ∧
      (off = 0x104 → Runs (.configWrite b fn off v en) s fun t =>
        (∀ x, x ∈ (t.dev.port b).aer ↔ x ∈ p.aer ∧ ¬ (x.1 = fn ∧ en.toNat.testBit x.2 = true ∧ v.toNat.testBit x.2 = true)) ∧ t.dev.regs = s.dev.regs) ∧
      (off = 0x78 → en.toNat.testBit 15 = true → v.toNat.testBit 15 = true → s.dev.calm → Runs (.configWrite b fn off v en) s fun t => g t = Fn.blank) ∧
      (off = 0x44 → en.toNat.testBit 0 = true → v.toNat % 4 = 3 → Runs (.configWrite b fn off v en) s fun t => (g t).d3hot = true)) ∧
    (s.dev.configRead b 0 0x00 = .reply 0x20481D7A ∧ s.dev.configRead b 0 0x08 = .reply 0x01080221 ∧
      (s.dev.on Reg.BUF_STATUS_INIT_DONE = true →
        s.dev.configRead b 1 0x00 = .reply 0x20491D7A ∧ s.dev.configRead b 1 0x08 = .reply 0x12000021) ∧
      (s.dev.on Reg.BUF_STATUS_INIT_DONE = false → ∀ off, s.dev.configRead b 1 off = .retryStatus)) ∧
    (∀ fn, 1 < fn ∨ (p.fn fn).bme = false → Runs (.busMasterDisable b fn) s s.silent) ∧
    (∀ fn, fn ≤ 1 →
      ((p.fn fn).bme = true → Runs (.busMasterDisable b fn) s fun t =>
        ((t.dev.port b).fn fn).bme = false ∧ (∀ x ∈ (t.dev.port b).tags, x.fn = fn → x.quarantined = true) ∧
        (∀ x ∈ (t.dev.port b).waiting, x.fn ≠ fn) ∧
        ((fn = 1 → s.dev.cwq = Cwq.blank ∧ s.dev.maq ≠ 1) →
          (∀ x ∈ p.tags, x.fn ≠ fn → x ∈ (t.dev.port b).tags) ∧ t.dev.port (!b) = s.dev.port (!b) ∧ s.memKept t)) ∧
      (Runs (.busMasterEnable b fn) s fun t => ((t.dev.port b).fn fn).bme = true ∧
        ((fn = 1 → s.dev.cwq = Cwq.blank) → (p.fn fn).pba = [] → p.waiting = [] → (fn = 0 → ∀ q ∈ (s.dev.ctl b).cqs, q.held = []) →
          (t.dev.port b).tags = p.tags ∧ t.dev.port (!b) = s.dev.port (!b) ∧ t.dev.emitted = [] ∧ t.dev.ctl b = s.dev.ctl b))) ∧
    (∀ fn, fn ≤ 1 →
      let f := match b, fn with
        | false, 0 => Reg.XLT_LINKA_DSTATE_PF0 | false, _ => Reg.XLT_LINKA_DSTATE_PF1
        | true, 0 => Reg.XLT_LINKB_DSTATE_PF0 | true, _ => Reg.XLT_LINKB_DSTATE_PF1
      (Runs (.dstateChange b fn true) s fun t =>
        t.dev.g f = 3 ∧ ((t.dev.port b).fn fn).d3hot = true ∧ s.dev.regsKept t.dev [f.base] ∧ (t.dev.port b).tags = p.tags ∧
        (fn = 0 ∨ s.dev.moderated b = [] → t.dev.emitted = []) ∧
        (fn = 1 → p.pf1.msixEn = true → p.pf1.msixMask = false → ∀ q ∈ s.dev.moderated b, (t.dev.cq q).pending = 0)) ∧
      (Runs (.dstateChange b fn false) s fun t => ((t.dev.port b).fn fn).d3hot = false ∧
        ((fn = 1 → s.dev.cwq = Cwq.blank) → (p.fn fn).pba = [] → p.waiting = [] → (fn = 0 → ∀ q ∈ (s.dev.ctl b).cqs, q.held = []) →
          t.dev.g f = 0 ∧ t.dev.emitted = [] ∧ (t.dev.port b).tags = p.tags))) ∧
    (s.dev.calm → ∀ fn, fn ≤ 1 → Runs (.flr b fn) s fun t =>
      (t.dev.port b).fn fn = Fn.blank ∧
      (fn = 0 → (t.dev.ctl b).en = false ∧ (t.dev.ctl b).rdy = false ∧ (t.dev.ctl b).sqs = []) ∧
      (s.dev.cwq = Cwq.blank → s.dev.maq ≠ 1 → fn = 1 → t.dev.port (!b) = s.dev.port (!b) ∧
        (∀ x ∈ (t.dev.port b).tags, x.fn = fn → x.quarantined = true)))

/-- Completions, their timeouts, the quarantine of tags, and port resets. For every state: a completion of a tag that is not outstanding is
reported through AER and counted; one of a quarantined tag frees it, counts late and is logged; data of a transfer unit's source joins the
unit and frees the tag; the answer of a read nobody waits for frees its tag, a poisoned one also reported, one of a program that a block
reset ended also counted as discarded. A completion timeout reports, counts, and quarantines the tag, unless timeouts are disabled, the tag
is quarantined or none; of a submission entry fetch of a ready controller it sets CFS and ends ready, and of one that is not ready does
nothing. A quarantine's expiry frees the tag, and does nothing to another. A host port reset takes the port down with no tag outstanding and
its controller disabled, whatever reach its source has, and with reach NONE the package is not reset; its source stays active while PERST is
low. A release of PERST ends that source and, with a link trained outside reset, brings the port up. Loss of a host port's clock takes that
port down and raises no source. Basis: derived, 12_pcie_endpoint.md, 16_reset_and_options.md, 17_clocks_and_power_domains.md. -/
def Obligations.CompletionsAndPortResets : Prop :=
  ∀ (s : State) (b : Bool),
    let p := s.dev.port b
    (∀ tag, s.dev.tagUse b tag = none →
      (∀ res, Runs (.hostCompletion b tag res) s fun t =>
        t.dev.emitted = [.aer b 1 16] ∧ (1, 16) ∈ (t.dev.port b).aer ∧ t.dev.g (cplFld b).2.2 = min (s.dev.g (cplFld b).2.2 + 1) (fldMax (cplFld b).2.2) ∧
        s.dev.regsKept t.dev [(cplFld b).2.2.base] ∧ s.memKept t) ∧
      Runs (.completionTimeout b (some tag)) s s.silent ∧ Runs (.tagQuarantineExpiry b tag) s s.silent) ∧
    (∀ tag x, s.dev.tagUse b tag = some x → p.waiting = [] →
      (x.quarantined = true →
        (∀ res, Runs (.hostCompletion b tag res) s fun t =>
          t.dev.tagUse b tag = none ∧ t.dev.g (cplFld b).2.1 = min (s.dev.g (cplFld b).2.1 + 1) (fldMax (cplFld b).2.1)) ∧
        (s.dev.timeoutOff b x.fn = false → Runs (.tagQuarantineExpiry b tag) s fun t =>
          t.dev.tagUse b tag = none ∧ t.dev.regs = s.dev.regs ∧ t.dev.emitted = []) ∧
        (s.dev.timeoutOff b x.fn = true → Runs (.tagQuarantineExpiry b tag) s s.silent) ∧
        Runs (.completionTimeout b (some tag)) s s.silent) ∧
      (x.quarantined = false →
        Runs (.tagQuarantineExpiry b tag) s s.silent ∧
        (x.user = .none →
          (∀ bytes, Runs (.hostCompletion b tag (.good bytes)) s fun t => t.dev.tagUse b tag = none ∧ t.dev.regs = s.dev.regs ∧ t.dev.emitted = []) ∧
          (∀ res ∈ [CplRes.unsupported, .abort], Runs (.hostCompletion b tag res) s fun t =>
            t.dev.tagUse b tag = none ∧ t.dev.regs = s.dev.regs ∧ t.dev.emitted = []) ∧
          (Runs (.hostCompletion b tag .poisoned) s fun t => t.dev.tagUse b tag = none ∧ t.dev.emitted = [.aer b x.fn 12])) ∧
        (x.user = .discard → ∀ bytes, Runs (.hostCompletion b tag (.good bytes)) s fun t =>
          t.dev.tagUse b tag = none ∧ t.dev.emitted = [] ∧ t.dev.g Reg.RST_BLOCK_COUNTS_DISCARDED =
            min (s.dev.g Reg.RST_BLOCK_COUNTS_DISCARDED + 1) (fldMax Reg.RST_BLOCK_COUNTS_DISCARDED)) ∧
        (∀ ch u src off bytes w, x.user = .chnSrc ch u src off → AMap.get s.dev.cwq.chans ch = some (s.dev.chan ch) → (s.dev.chan ch).work = some w →
          bytes.length = x.len → Runs (.hostCompletion b tag (.good bytes)) s fun t =>
            t.dev.tagUse b tag = none ∧ ∃ w', (t.dev.chan ch).work = some w' ∧ ∀ y ∈ w.units, y.n = u →
              { y with awaited := y.awaited.erase (src, off), data := y.data ++ [(src, off, bytes)] } ∈ w'.units) ∧
        (x.user = .none → s.dev.timeoutOff b x.fn = false → Runs (.completionTimeout b (some tag)) s fun t =>
          t.dev.emitted = [.aer b x.fn 14] ∧ t.dev.tagUse b tag = some { x with quarantined := true } ∧
          t.dev.g (cplFld b).1 = min (s.dev.g (cplFld b).1 + 1) (fldMax (cplFld b).1)) ∧
        (s.dev.timeoutOff b x.fn = true → Runs (.completionTimeout b (some tag)) s s.silent))) ∧
    (s.dev.timeoutOff b 0 = false → (s.dev.ctl b).rdy = true → Runs (.completionTimeout b none) s fun t =>
      (t.dev.ctl b).cfs = true ∧ (t.dev.ctl b).rdy = false ∧ t.dev.emitted = [.aer b 0 14]) ∧
    (s.dev.timeoutOff b 0 = true ∨ (s.dev.ctl b).rdy = false → Runs (.completionTimeout b none) s s.silent) ∧
    (s.dev.calm →
      let down := fun (t : State) =>
        (t.dev.port b).up = false ∧ (t.dev.port b).tags = [] ∧ (t.dev.port b).waiting = [] ∧ (t.dev.ctl b).en = false ∧
        t.dev.g (if b then Reg.XLT_LINKB_LINK_UP else Reg.XLT_LINKA_LINK_UP) = 0
      (∀ perst, Runs (.hostPortReset b perst) s fun t =>
        down t ∧ (perst = true → (t.dev.port b).perst = true) ∧ (perst = false → (if b then 3 else 2) ∉ t.dev.rst.active) ∧
        (s.dev.reachOf (if b then 3 else 2) = 6 → t.dev.rst.reach = s.dev.rst.reach ∧
          (perst = true → (if b then 3 else 2) ∈ t.dev.rst.active))) ∧
      Runs (.portPllLockLoss (if b then 5 else 4)) s fun t => down t ∧ t.dev.rst = s.dev.rst) ∧
    (∀ speed width flit, speed < 16 → width < 64 →
      (s.dev.rst.reach = 0 → Runs (.hostPerstRelease b (some (speed, width, flit))) s fun t =>
        (t.dev.port b).perst = false ∧ (t.dev.port b).up = true ∧ (if b then 3 else 2) ∉ t.dev.rst.active ∧
        t.dev.g (if b then Reg.XLT_LINKB_LINK_UP else Reg.XLT_LINKA_LINK_UP) = 1 ∧
        t.dev.g (if b then Reg.XLT_LINKB_WIDTH else Reg.XLT_LINKA_WIDTH) = width ∧ t.dev.emitted = []) ∧
      (s.dev.rst.reach ≠ 0 → Runs (.hostPerstRelease b (some (speed, width, flit))) s fun t =>
        (t.dev.port b).perst = false ∧ (t.dev.port b).up = p.up ∧ (if b then 3 else 2) ∉ t.dev.rst.active ∧ t.dev.regs = s.dev.regs)) ∧
    (Runs (.hostPerstRelease b none) s fun t => (t.dev.port b).perst = false ∧ (t.dev.port b).up = p.up ∧ t.dev.regs = s.dev.regs)

/-! ### The member ports -/

/-- Escalation of member timeouts, removal, link loss and member errors. For every calm state of a steward and a member of its table: the
timeout of an outstanding zeroing or label command holds it, sends an Abort below the Abort limit, and enters TMO in the window of a SUSPECT
member that does not fail by it; a command that is not outstanding or no I/O has no timeout. An Abort timeout of a held command, with
nothing else of the controller outstanding, resets the controller and counts an escalation, and does nothing while it is reset or the
command is not held; the reset's end releases held reads; its timeout resets the link; the link's timeout makes an active member with no
command under way ABSENT; none of the three acts out of its turn. Surprise removal of a link or slot makes the one member below ABSENT,
forgets what was found there and shows a removed link empty. A link or downstream port that goes down, or a fatal error there, leaves the
member waiting for it, and a link that was down loses nothing. A non-fatal error adds one log record, and one that names a SUSPECT member's
command an ERR; a notice of fatal status, or of a warning of reliability or media, makes a member with no command under way FAILED with
cause REPORTED, any other is logged; a vanished namespace is no longer matched. A package that is no steward changes no member by these
notices. A stray request is refused and counted. Basis: derived, 13_member_ports.md, 06_read_and_rebuild.md. -/
def Obligations.MemberEscalation : Prop :=
  (∀ (s : State) (m : Nat), m < s.dev.mbrs.length → m < s.dev.memberTable.length → s.dev.steward = true → s.dev.calm →
    let x := s.dev.mbr m
    let entered := fun (h : Health) => s.dev.updMbr m fun x => { x with window := x.window ++ [(s.dev.now, h)], lastHealthUs := s.dev.now }
    let room := s.dev.log.tail.length < 4095
    (∀ c : MCmd, s.dev.mcmd c.id = some c → c.member = m →
      (c.phase = .outstanding → c.kind = .zeroes ∨ c.kind = .label →
        (∀ y ∈ s.dev.mcmds, ∀ id, y.kind ≠ .abort id) → 1 ≤ s.dev.abortLimit m → x.st = .suspect → (entered .tmo).failCause m = none →
        (∀ y ∈ s.dev.mcmds, y.id ≠ s.dev.nextId) →
        Runs (.memberCommandTimeout c.id) s fun t =>
          t.dev.mcmd c.id = some { c with phase := .held } ∧ (∃ a ∈ t.dev.mcmds, a.kind = .abort c.id ∧ a.member = m) ∧
          (t.dev.mbr m).window = x.window ++ [(s.dev.now, .tmo)] ∧ (t.dev.mbr m).st = .suspect ∧ t.dev.jnl.recs = s.dev.jnl.recs) ∧
      (c.phase ≠ .outstanding ∨ c.kind.isIo = false → Runs (.memberCommandTimeout c.id) s s.silent) ∧
      (c.phase = .held → x.resetting = 0 → (∀ y ∈ s.dev.mcmds, y.member ∈ s.dev.ctlMembers m → y.phase ≠ .outstanding) →
        Runs (.memberAbortTimeout c.id) s fun t =>
          t.dev.emitted = [.memberReset 0 m] ∧ (t.dev.mbr m).resetting = 1 ∧ (t.dev.mbr m).st = x.st ∧ (t.dev.mbr m).window = x.window ∧
          t.dev.g Reg.MBR_ERRORS_ESCALATIONS = min (s.dev.g Reg.MBR_ERRORS_ESCALATIONS + 1) 255 ∧ s.dev.regsKept t.dev [Reg.MBR_ERRORS_ESCALATIONS.base]) ∧
      (c.phase ≠ .held ∨ x.resetting ≠ 0 → Runs (.memberAbortTimeout c.id) s s.silent)) ∧
    (x.resetting ≠ 0 → (∀ y ∈ s.dev.mcmds, y.member ∈ s.dev.ctlMembers m → y.phase = .held → y.kind = .read) →
      Runs (.memberCtrlResetDone m) s fun t => (t.dev.mbr m).resetting = 0 ∧ ∀ y ∈ t.dev.mcmds, y.member = m → y.phase ≠ .held) ∧
    (x.resetting = 0 → Runs (.memberCtrlResetDone m) s s.silent) ∧
    (x.resetting = 1 → Runs (.memberCtrlResetTimeout m) s fun t =>
      t.dev.emitted = [.memberReset 1 m] ∧ t.dev.mbr m = { x with resetting := 2 } ∧ t.dev.regs = s.dev.regs) ∧
    (x.resetting ≠ 1 → Runs (.memberCtrlResetTimeout m) s s.silent) ∧
    (x.resetting ≠ 2 → Runs (.memberLinkTimeout m) s s.silent) ∧
    (s.dev.mcmds = [] →
      (x.resetting = 2 → x.st.active = true → Runs (.memberLinkTimeout m) s fun t =>
        (t.dev.mbr m).st = .absent ∧ (t.dev.mbr m).matched = none ∧ (t.dev.mbr m).resetting = 0) ∧
      (∀ link ports, link < s.dev.mport.links.length → s.dev.membersBelow link ports = [m] →
        (x.st.active = true → Runs (.memberSurpriseRemoval link ports) s fun t =>
          (t.dev.mbr m).st = .absent ∧ (t.dev.mbr m).matched = none ∧
          (ports = [] → (t.dev.link link).present = false ∧ (t.dev.link link).up = false) ∧ (ports ≠ [] → t.dev.link link = s.dev.link link) ∧
          ∀ y ∈ t.dev.disc, y.globalLink = link → portsUnder ports y.ports = false) ∧
        ((s.dev.link link).up = true → Runs (.memberLinkDown link ports) s fun t =>
          (ports = [] → (t.dev.link link).up = false) ∧ (ports ≠ [] → (t.dev.link link).up = true) ∧
          (t.dev.link link).present = (s.dev.link link).present ∧ (t.dev.mbr m).resetting = 2 ∧ (t.dev.mbr m).st = x.st ∧
          (t.dev.mbr m).matched = x.matched ∧ s.dev.regsKept t.dev [Reg.MBR_STATUS_ENUM_DONE.base]) ∧
        (∀ bus devfn n, Runs (.memberAerError link ports bus devfn true n) s fun t =>
          (ports = [] → (t.dev.link link).up = false) ∧ (t.dev.mbr m).resetting = 2 ∧ (t.dev.mbr m).st = x.st ∧
          Emit.linkReset link ports ∈ t.dev.emitted ∧
          (room → t.logged 0x0E01 (leBytes 1 link ++ leBytes 1 bus ++ leBytes 1 devfn ++ leBytes 1 1))))) ∧
    (∀ link ports, (s.dev.link link).up = false → Runs (.memberLinkDown link ports) s s.silent) ∧
    (∀ link ports bus devfn, Runs (.memberAerError link ports bus devfn false none) s fun t =>
      (room → t.logged 0x0E01 (leBytes 1 link ++ leBytes 1 bus ++ leBytes 1 devfn ++ leBytes 1 0)) ∧ t.dev.mbrs = s.dev.mbrs ∧ t.dev.mport = s.dev.mport) ∧
    (x.st = .suspect → (entered .err).failCause m = none → ∀ link ports bus devfn, Runs (.memberAerError link ports bus devfn false (some m)) s fun t =>
      (t.dev.mbr m).window = x.window ++ [(s.dev.now, .err)] ∧ (t.dev.mbr m).st = .suspect ∧ t.dev.mport = s.dev.mport) ∧
    (∀ i, Runs (.memberAsyncEvent m (.other i)) s fun t =>
      (room → t.logged 0x0E02 (leBytes 2 m ++ leBytes 4 i)) ∧ t.dev.mbrs = s.dev.mbrs) ∧
    (∀ w, w.testBit 2 = false → w.testBit 3 = false → Runs (.memberAsyncEvent m (.warning w)) s fun t =>
      (room → t.logged 0x0E02 (leBytes 2 m ++ leBytes 4 w)) ∧ t.dev.mbrs = s.dev.mbrs) ∧
    (x.st.active = true → s.dev.mcmds = [] →
      (Runs (.memberAsyncEvent m .fatal) s fun t => (t.dev.mbr m).st = .failed ∧ (t.dev.mbr m).cause = .reported) ∧
      ∀ w, w.testBit 2 = true ∨ w.testBit 3 = true → Runs (.memberAsyncEvent m (.warning w)) s fun t =>
        (t.dev.mbr m).st = .failed ∧ (t.dev.mbr m).cause = .reported) ∧
    (x.matched.isSome = true → s.dev.mcmds = [] → Runs (.memberAsyncEvent m (.nsChanged true)) s fun t => (t.dev.mbr m).matched = none) ∧
    (∀ gone, gone = false ∨ x.matched = none → Runs (.memberAsyncEvent m (.nsChanged gone)) s s.silent)) ∧
  (∀ (s : State) (m : Nat), s.dev.steward = false → s.dev.calm → Runs (.memberAsyncEvent m .fatal) s fun t => t.dev.mbrs = s.dev.mbrs) ∧
  (∀ s : State, Runs .memberStrayRequest s fun t =>
    t.dev.emitted = [.unsupported] ∧ t.dev.g Reg.MBR_ERRORS_STRAY = min (s.dev.g Reg.MBR_ERRORS_STRAY + 1) 255 ∧ s.onlyRegs t [Reg.MBR_ERRORS_STRAY.base])

/-- Arrival, enumeration, identification, the discovery list, formats and slot power. For every state: a link that exists and comes up where the
groups may train is shown present and up and is enumerated, ENUM_DONE clear, and ends the wait of a member below it with no command under
way; where they may not it is only shown present; an unpowered slot that gains presence with AUTO set is powered in a batch; a link that
does not exist changes nothing. RESCAN enumerates the links that are up, keeping the matches. An enumeration's last link sets ENUM_DONE. A
namespace found while no epoch is active joins the list with status 12, or sets DISC_TRUNC where the list is full; one that matches an
ONLINE member's entry becomes its match. The end of an Abort frees its held read. DISC_DUMP sends the list's records to the address given in
parts that follow one another, or into the host area, or sets DISC_ERR. CLR_COUNTS clears the three counters. A format of an unmatched
namespace is started, any other refused, and its end clears FMT_BUSY and has the namespace identified again. A link's slot powers on, now or
in its turn, and off where no active member is below; a member's slot behind a switch likewise; an unknown slot, or power off under an
active member, is refused. A batch's expiry powers the next slot or ends the batch. MPERST is released once no slot waits and options are
valid. Basis: derived, 13_member_ports.md. -/
def Obligations.ArrivalAndSlots : Prop :=
  ∀ s : State, s.dev.calm →
    let n := Reg.MBR_SLOT_PWR_ON
    let refused := fun (t : State) => t.dev.g Reg.MBR_STATUS_CMD_REFUSED = 1 ∧ s.onlyRegs t [Reg.MBR_STATUS_CMD_REFUSED.base]
    (∀ link, s.dev.linkExists link = true → s.dev.mport.links.length = 48 →
      (∀ w sp fl, s.dev.groupsUp = true → Runs (.memberHotplugArrival link [] (some (w, sp, fl))) s fun t =>
        t.dev.link link = ⟨true, true, fl, w, sp⟩ ∧ link ∈ t.dev.mport.enumLeft ∧ t.dev.g Reg.MBR_STATUS_ENUM_DONE = 0 ∧
        (s.dev.membersBelow link [] = [] → t.dev.mbrs = s.dev.mbrs) ∧
        (∀ m, m < s.dev.mbrs.length → s.dev.mcmds = [] → s.dev.membersBelow link [] = [m] → (s.dev.mbr m).resetting = 2 →
          (t.dev.mbr m).resetting = 0)) ∧
      (∀ up, s.dev.groupsUp = false → (s.dev.link link).up = false → Runs (.memberHotplugArrival link [] up) s fun t =>
        t.dev.link link = { s.dev.link link with present := true } ∧ t.dev.mport.enumLeft = s.dev.mport.enumLeft ∧ t.dev.mbrs = s.dev.mbrs) ∧
      ((s.dev.g n).testBit link = false → s.dev.g Reg.MBR_PWR_CFG_AUTO = 1 → s.dev.mport.slotQueue = [] → s.dev.mport.batching = false → (s.dev.link link).up = false →
        Runs (.memberHotplugArrival link [] none) s fun t =>
          (t.dev.link link).present = true ∧ (t.dev.g n).testBit link = true ∧ t.dev.emitted = [.pin "MSLOT_PWR" true] ∧ t.dev.mport.batching = true)) ∧
    (∀ link ports up, s.dev.linkExists link = false → Runs (.memberHotplugArrival link ports up) s s.silent) ∧
    (∀ l,
      (l ∈ s.dev.mport.enumLeft → Runs (.memberAdminCompletion (.enumEnd l)) s fun t =>
        t.dev.mport = { s.dev.mport with enumLeft := s.dev.mport.enumLeft.filter (· ≠ l) } ∧
        t.dev.g Reg.MBR_STATUS_ENUM_DONE = (if ∀ k ∈ s.dev.mport.enumLeft, k = l then 1 else s.dev.g Reg.MBR_STATUS_ENUM_DONE) ∧
        s.dev.regsKept t.dev [Reg.MBR_STATUS_ENUM_DONE.base]) ∧
      (l ∉ s.dev.mport.enumLeft → Runs (.memberAdminCompletion (.enumEnd l)) s s.silent)) ∧
    (∀ x : Disc, (∀ y ∈ s.dev.disc, y.same x = false) →
      (4096 ≤ s.dev.disc.length → Runs (.memberAdminCompletion (.identified x)) s fun t =>
        t.dev.g Reg.MBR_STATUS_DISC_TRUNC = 1 ∧ s.onlyRegs t [Reg.MBR_STATUS_DISC_TRUNC.base]) ∧
      (s.dev.disc.length < 4096 →
        (s.dev.arm.active = none → Runs (.memberAdminCompletion (.identified x)) s fun t =>
          t.dev.disc = s.dev.disc ++ [{ x with status := 12, member := 0xFFFF }] ∧ t.dev.g Reg.MBR_DISC_COUNT_COUNT = s.dev.disc.length + 1 ∧ t.dev.mbrs = s.dev.mbrs) ∧
        (∀ m, s.dev.identify x = (0, m) → m < s.dev.mbrs.length → s.dev.steward = true → (s.dev.mbr m).st = .online → (s.dev.mbr m).awaitId = false →
          (s.dev.mbr m).labelPending = false → Runs (.memberAdminCompletion (.identified x)) s fun t =>
            t.dev.disc = s.dev.disc ++ [{ x with status := 0, member := m }] ∧ (t.dev.mbr m).matched = some s.dev.disc.length ∧
            (t.dev.mbr m).resetting = 0 ∧ (t.dev.mbr m).st = .online ∧
            (t.dev.mbr m).joinEpoch = if x.label = 1 then x.labelJoin else (s.dev.mbr m).joinEpoch))) ∧
    (∀ id,
      ((∀ a ∈ s.dev.mcmds, a.kind ≠ .abort id) → Runs (.memberAdminCompletion (.aborted id)) s s.silent) ∧
      (∀ c : MCmd, s.dev.mcmd id = some c → c.kind = .read → c.phase = .held → (∃ a ∈ s.dev.mcmds, a.kind = .abort id) →
        Runs (.memberAdminCompletion (.aborted id)) s fun t => ∀ y ∈ t.dev.mcmds, y.id ≠ id ∧ y.kind ≠ .abort id)) ∧
    (∀ ok,
      (s.dev.mport.fmt = none → Runs (.memberAdminCompletion (.formatDone ok)) s s.silent) ∧
      (∀ f, s.dev.mport.fmt = some f → Runs (.memberAdminCompletion (.formatDone ok)) s fun t =>
        t.dev.mport = { s.dev.mport with fmt := none } ∧ t.dev.emitted = [.memberIdentify f.1] ∧ t.dev.g Reg.MBR_STATUS_FMT_BUSY = 0 ∧
        t.dev.g Reg.MBR_STATUS_FMT_ERR = if ok then s.dev.g Reg.MBR_STATUS_FMT_ERR else 1)) ∧
    (∀ req, s.dev.commands req →
      ((∀ l < 48, (s.dev.link l).up = false) → Runs (.mbrRescan req) s s.silent) ∧
      (∀ l, l < 48 → (s.dev.link l).up = true → Runs (.mbrRescan req) s fun t =>
        (∀ k < 48, (s.dev.link k).up = true → k ∈ t.dev.mport.enumLeft) ∧ t.dev.g Reg.MBR_STATUS_ENUM_DONE = 0 ∧ t.dev.mport.links = s.dev.mport.links ∧
        (∀ y ∈ s.dev.disc, y.status = 0 → y ∈ t.dev.disc) ∧ ∀ y ∈ t.dev.disc, y.status = 0 ∨ 48 ≤ y.globalLink ∨ (s.dev.link y.globalLink).up = false) ∧
      (let at_ := s.dev.g Reg.MBR_DISC_ADDR_ADDR * 64
       let bytes := s.dev.discBytes
       (Runs (.mbrDiscDump req false true) s fun t =>
        t.sentWhole s.dev.primaryB at_ bytes ∧ t.dev.g Reg.MBR_STATUS_DISC_DONE = 1 ∧
        s.onlyRegs t [Reg.MBR_CTRL_DISC_INTERNAL.base, Reg.MBR_STATUS_DISC_DONE.base]) ∧
       (s.mem.wf → s.dev.badHost = [] → s.dev.inHostArea at_ bytes.length = true → Runs (.mbrDiscDump req true true) s fun t =>
        (∀ i (h : i < bytes.length), Memory.read t.mem (at_ + i) = bytes[i]) ∧ t.dev.g Reg.MBR_STATUS_DISC_DONE = 1 ∧
        ∀ x < 2 ^ 48, x < at_ ∨ at_ + bytes.length ≤ x → Memory.read t.mem x = Memory.read s.mem x) ∧
       (∀ internal ok, ok = false ∨ (internal = true ∧ s.dev.inHostArea at_ bytes.length = false) →
        Runs (.mbrDiscDump req internal ok) s fun t => t.dev.emitted = [] ∧ t.dev.g Reg.MBR_STATUS_DISC_ERR = 1 ∧
          s.onlyRegs t [Reg.MBR_CTRL_DISC_INTERNAL.base, Reg.MBR_STATUS_DISC_ERR.base])) ∧
      (Runs (.mbrClrCounts req) s fun t => t.dev.g Reg.MBR_ERRORS_LATE = 0 ∧ t.dev.g Reg.MBR_ERRORS_ESCALATIONS = 0 ∧ t.dev.g Reg.MBR_ERRORS_STRAY = 0 ∧
        s.onlyRegs t [Reg.MBR_ERRORS_LATE.base]) ∧
      (∀ ord meta16,
        (∀ x, s.dev.disc[ord]? = some x → x.status = 1 ∨ x.status = 12 → s.dev.mport.fmt = none → Runs (.mbrFormat req ord meta16) s fun t =>
          t.dev.emitted = [.memberFormat ord meta16] ∧ t.dev.mport = { s.dev.mport with fmt := some (ord, meta16) } ∧ t.dev.g Reg.MBR_STATUS_FMT_BUSY = 1) ∧
        (s.dev.disc[ord]? = none ∨ s.dev.mport.fmt.isSome = true ∨ (∃ x, s.dev.disc[ord]? = some x ∧ x.status ≠ 1 ∧ x.status ≠ 12) →
          Runs (.mbrFormat req ord meta16) s refused)) ∧
      (∀ link, s.dev.linkExists link = true →
        (s.dev.mport.slotQueue = [] → s.dev.mport.batching = false → Runs (.slotPowerOn req false link) s fun t =>
          (t.dev.g n).testBit link = true ∧ t.dev.emitted = [.pin "MSLOT_PWR" true] ∧ (∀ k ≠ link, (t.dev.g n).testBit k = (s.dev.g n).testBit k) ∧
          t.dev.mport = { s.dev.mport with batching := true } ∧ s.dev.regsKept t.dev [n.base]) ∧
        ((false, link) ∉ s.dev.mport.slotQueue → s.dev.mport.batching = true → Runs (.slotPowerOn req false link) s fun t =>
          t.dev = { s.dev with emitted := [], mport := { s.dev.mport with slotQueue := s.dev.mport.slotQueue ++ [(false, link)] } } ∧ s.memKept t) ∧
        ((false, link) ∈ s.dev.mport.slotQueue → Runs (.slotPowerOn req false link) s s.silent) ∧
        ((∀ m a, s.dev.memberTable[m]? = some a → a.globalLink = link → (s.dev.mbr m).st.active = false) → s.dev.mport.links.length = 48 →
          Runs (.slotPowerOff req false link) s fun t =>
            (t.dev.g n).testBit link = false ∧ Emit.pin "MSLOT_PWR" false ∈ t.dev.emitted ∧ (t.dev.link link).up = false ∧
            (∀ k ≠ link, (t.dev.g n).testBit k = (s.dev.g n).testBit k) ∧ ∀ y ∈ t.dev.disc, y.globalLink ≠ link) ∧
        (∀ m a, s.dev.memberTable[m]? = some a → a.globalLink = link → (s.dev.mbr m).st.active = true → Runs (.slotPowerOff req false link) s refused)) ∧
      (∀ m a, s.dev.memberTable[m]? = some a → a.hops ≠ 0 →
        (s.dev.mport.slotQueue = [] → s.dev.mport.batching = false → Runs (.slotPowerOn req true m) s fun t =>
          m ∉ t.dev.mport.slotsOff ∧ t.dev.mport.batching = true ∧ t.dev.emitted = [] ∧ t.dev.regs = s.dev.regs) ∧
        ((∀ k b, s.dev.memberTable[k]? = some b → (s.dev.mbr k).st.active = false) → Runs (.slotPowerOff req true m) s fun t => m ∈ t.dev.mport.slotsOff)) ∧
      (∀ link, s.dev.linkExists link = false → Runs (.slotPowerOn req false link) s refused ∧ Runs (.slotPowerOff req false link) s refused) ∧
      (∀ m, s.dev.memberTable.length ≤ m → Runs (.slotPowerOn req true m) s refused ∧ Runs (.slotPowerOff req true m) s refused)) ∧
    (s.dev.mport.batching = false → Runs .slotPowerBatch s s.silent) ∧
    (s.dev.mport.batching = true →
      (s.dev.mport.slotQueue = [] → Runs .slotPowerBatch s fun t => t.dev.mport = { s.dev.mport with batching := false } ∧ t.dev.regs = s.dev.regs) ∧
      (∀ l, l < 48 → s.dev.mport.slotQueue = [(false, l)] → Runs .slotPowerBatch s fun t =>
        t.dev.mport = { s.dev.mport with slotQueue := [] } ∧ (t.dev.g n).testBit l = true ∧ t.dev.emitted = [.pin "MSLOT_PWR" true])) ∧
    (let go := s.dev.mport.mperst = true ∧ s.dev.mport.slotQueue = [] ∧ s.dev.on Reg.RST_STATUS_OPT_VALID = true
     (go → Runs .mperstRelease s fun t =>
      t.dev.mport = { s.dev.mport with mperst := false } ∧ t.dev.emitted = [.pin "MPERST_N" true] ∧ t.dev.regs = s.dev.regs) ∧
     (¬ go → Runs .mperstRelease s s.silent))

/-! ### The accord -/

/-- Heartbeats, peer links, partner loss and the commands of ACD_CTRL. For every state: HEARTBEAT_SEND of a live package (in accord, not fenced,
not sealed) that is not silent writes the 32 bytes of table 14-6 with the next count on each link that is up; a heartbeat of a new count is
taken and the head raised to the partner's, one of the same count is ignored. A peer link's fall clears its bit and sets LINK_DOWN, its
return sets the bit, and the first link of a live package that is JOINING, or ALONE with its fence released, restarts the ring and sends
JOIN. PARTNER_LOSS of a MIRRORING package, or of a JOINING one with MIRROR_VALID, sets LOSS_SEEN, counts, and asks for the fence: role 0
wins it with no fence low and is fenced with FENCE_IN_N low, role 1 begins its hold-off; a JOINING package without MIRROR_VALID only counts;
a commit that waits for ARM_READY ends with 0x0C03. JOIN_WAIT_EXPIRY of a JOINING package with MIRROR_VALID asks too. The end of DRAIN_MS
and of the silence after a failed dump lift what they held; the second sends JOIN where the package is live and a link is up. ACD_FENCE asks
for the fence while MIRRORING or JOINING with MIRROR_VALID, is refused while JOINING beside a partner with records and does nothing
otherwise; PEER_RESET pulses the partner's reset only while it is fenced; CLR_COUNTS clears the counters. A standalone package ignores the
links and sends nothing. Rows that end with settled work are stated for calm states. Basis: derived, 14_accord.md. -/
def Obligations.AccordLossAndLinks : Prop :=
  ∀ s : State,
    let won := fun (t : State) =>
      t.dev.acdState = 3 ∧ t.dev.g Reg.ACD_STATUS_STEWARD = 1 ∧ t.dev.g Reg.ACD_STATUS_FENCE_OUT = 1 ∧ Emit.pin "FENCE_OUT_N" false ∈ t.dev.emitted ∧
      t.dev.g Reg.ACD_COUNTS_FENCES_WON = min (s.dev.g Reg.ACD_COUNTS_FENCES_WON + 1) 255
    let asked := fun (t : State) =>
      (s.dev.role = 0 → s.dev.g Reg.ACD_STATUS_FENCE_IN = 0 → won t) ∧
      (s.dev.role = 0 → s.dev.g Reg.ACD_STATUS_FENCE_IN = 1 → s.dev.g Reg.ACD_STATUS_FENCE_OUT = 0 →
        t.dev.acd.fenced = true ∧ t.dev.acd.request = true ∧ t.dev.acdState = s.dev.acdState) ∧
      (s.dev.role = 1 → t.dev.acd.holdoff = true ∧ t.dev.acdState = s.dev.acdState)
    let joinArgs := [s.dev.role, s.dev.acdFlags, s.dev.g Reg.BUF_CONFIG_PA_GIB, s.dev.epoch,
      (match s.dev.arm.active with | some a => a.identity.toNat | none => 0), crc32c s.dev.opt.sn, crc32c s.dev.opt.subnqn, s.dev.head]
    let joins := fun (t : State) (out : Bool) =>
      t.dev.emitted = (PeerMsg.mk 0x01 joinArgs).writes out 0 ∧ t.dev.acd.joined = false ∧ t.dev.acd.txSeq = 1 ∧ t.dev.acd.rxAck = 0 ∧
      t.dev.g Reg.ACD_ACKED_SEQ = 0
    let mayJoin := s.dev.acdState = 1 ∨ s.dev.acdState = 3 ∧ s.dev.on Reg.ACD_STATUS_FENCE_OUT = false
    (∀ b, s.dev.solo = true → Runs .heartbeatSend s s.silent ∧ Runs (.peerLinkDown b) s s.silent ∧ Runs (.peerLinkUp b) s s.silent) ∧
    (∀ b, s.dev.solo = false →
      let bit := if b then 1 else 0
      (Runs (.peerLinkDown b) s fun t => (t.dev.g Reg.ACD_STATUS_LINKS_UP).testBit bit = false ∧ t.dev.g Reg.ACD_STATUS_LINK_DOWN = 1 ∧
        s.onlyRegs t [Reg.ACD_STATUS_LINKS_UP.base] ∧ t.dev.emitted = []) ∧
      (¬ mayJoin ∨ s.dev.g Reg.ACD_STATUS_LINKS_UP ≠ 0 ∨ s.dev.acd.mute = true ∨ s.dev.peerLive = false → Runs (.peerLinkUp b) s fun t =>
        (t.dev.g Reg.ACD_STATUS_LINKS_UP).testBit bit = true ∧ s.onlyRegs t [Reg.ACD_STATUS_LINKS_UP.base] ∧ t.dev.emitted = []) ∧
      (mayJoin → s.dev.peerLive = true → s.dev.acd.mute = false → s.dev.g Reg.ACD_STATUS_LINKS_UP = 0 →
        Runs (.peerLinkUp b) s fun t => (t.dev.g Reg.ACD_STATUS_LINKS_UP).testBit bit = true ∧ joins t b)) ∧
    (s.dev.peerLive = true →
      (s.dev.acd.mute = false → Runs .heartbeatSend s fun t =>
        t = s.withDev (([false, true].filter fun b => (s.dev.g Reg.ACD_STATUS_LINKS_UP).testBit (if b then 1 else 0)).map fun b =>
          Emit.peerWrite b 0x40 (s.dev.heartbeat (s.dev.acd.hbCount + 1))) fun d => { d with acd := { d.acd with hbCount := d.acd.hbCount + 1 } }) ∧
      (∀ v : PeerView, v.head < 2 ^ 64 → (∀ p, s.dev.acd.peer = some p → p.count ≠ v.count) → Runs (.heartbeatReceived v) s fun t =>
        t.dev.acd.peer = some v ∧ t.dev.g Reg.ACD_PARTNER_HEAD_SEQ = v.head ∧ t.dev.head = max s.dev.head v.head) ∧
      (∀ v p : PeerView, s.dev.acd.peer = some p → p.count = v.count → Runs (.heartbeatReceived v) s s.silent) ∧
      (s.dev.calm → s.dev.acd.lossDeclared = false →
        (s.dev.acdState = 2 ∨ s.dev.acdState = 1 ∧ s.dev.mirrorValid = true → s.dev.maq ≠ 5 ∨ s.dev.arm.commitStage ≠ 1 → Runs .partnerLoss s fun t =>
          t.dev.g Reg.ACD_STATUS_LOSS_SEEN = 1 ∧ t.dev.g Reg.ACD_COUNTS_LOSSES = min (s.dev.g Reg.ACD_COUNTS_LOSSES + 1) 255 ∧
          t.dev.acd.lossDeclared = true ∧ asked t) ∧
        (s.dev.acdState = 1 → s.dev.mirrorValid = false → s.dev.maq ≠ 5 ∨ s.dev.arm.commitStage ≠ 1 → Runs .partnerLoss s fun t =>
          t.dev.g Reg.ACD_STATUS_LOSS_SEEN = 1 ∧ t.dev.g Reg.ACD_COUNTS_LOSSES = min (s.dev.g Reg.ACD_COUNTS_LOSSES + 1) 255 ∧
          t.dev.acd = { s.dev.acd with lossDeclared := true } ∧ t.dev.emitted = []) ∧
        (s.dev.acdState = 2 → s.dev.maq = 5 → s.dev.arm.commitStage = 1 → Runs .partnerLoss s fun t =>
          t.dev.maq = 3 ∧ t.dev.g Reg.ARM_STATUS_DONE = 1 ∧ t.dev.g Reg.ARM_ERROR_CODE = 0x0C03 ∧ t.dev.acd.lossDeclared = true ∧ asked t)) ∧
      (s.dev.acdState = 1 → s.dev.mirrorValid = true → Runs .joinWaitExpiry s asked)) ∧
    (s.dev.peerLive = false ∨ s.dev.acd.mute = true → Runs .heartbeatSend s s.silent) ∧
    (∀ v, s.dev.peerLive = false → Runs (.heartbeatReceived v) s s.silent) ∧
    (s.dev.calm → s.dev.acd.lossDeclared = true ∨ s.dev.peerLive = false ∨ ¬ (s.dev.acdState = 1 ∨ s.dev.acdState = 2) → Runs .partnerLoss s s.silent) ∧
    (s.dev.acdState ≠ 1 ∨ s.dev.mirrorValid = false ∨ s.dev.peerLive = false → Runs .joinWaitExpiry s s.silent) ∧
    (s.dev.calm → Runs .drainMsExpiry s fun t => t = s.withDev [] fun d => { d with acd := { d.acd with drainUs := none, drainPools := 0 } }) ∧
    (let stays := s.dev.acdState ≠ 1 ∨ s.dev.acd.fenced = true ∨ s.dev.acd.mute = false ∨ s.dev.peerLive = false ∨ s.dev.g Reg.ACD_STATUS_LINKS_UP = 0
     (stays → Runs .dumpFailedSilenceExpiry s fun t => t = s.withDev [] fun d => { d with acd := { d.acd with mute := false } }) ∧
     (¬ stays → Runs .dumpFailedSilenceExpiry s fun t => t.dev.acd.mute = false ∧ joins t s.dev.peerOut)) ∧
    (∀ req, s.dev.commands req →
      (s.dev.acdState = 2 ∨ s.dev.acdState = 1 ∧ s.dev.mirrorValid = true → Runs (.acdFence req) s asked) ∧
      (∀ p, s.dev.acdState = 1 → s.dev.mirrorValid = false → s.dev.acd.peer = some p →
        (p.flags.testBit 2 = false → Runs (.acdFence req) s asked) ∧
        (p.flags.testBit 2 = true → Runs (.acdFence req) s fun t =>
          t.dev.g Reg.ACD_STATUS_CMD_REFUSED = 1 ∧ s.onlyRegs t [Reg.ACD_STATUS_CMD_REFUSED.base] ∧ t.dev.emitted = [])) ∧
      (s.dev.acdState ≠ 1 → s.dev.acdState ≠ 2 → Runs (.acdFence req) s s.silent) ∧
      (s.dev.acdState = 3 → s.dev.on Reg.ACD_STATUS_FENCE_OUT = true →
        exec (.acdPeerReset req) s = .next (s.withDev [.pin "PA_PERST_N" false, .pin "PA_PERST_N" true] id)) ∧
      (s.dev.acdState ≠ 3 ∨ s.dev.on Reg.ACD_STATUS_FENCE_OUT = false → Runs (.acdPeerReset req) s s.silent) ∧
      (Runs (.acdClrCounts req) s fun t => t.dev.reg Reg.ACD_COUNTS_LOSSES.base = 0 ∧ s.onlyRegs t [Reg.ACD_COUNTS_LOSSES.base] ∧ t.dev.emitted = []))

/-- The fence: hold-off, assertion, place, release. For every state: at the hold-off's expiry role 1, in accord and not fenced, with no fence
low becomes ALONE and steward with FENCE_OUT_N low, its accord record and journal as they were until the fence is in place; with FENCE_IN_N
low it is fenced; without a hold-off, or fenced, nothing happens. FENCE_IN_N low fences a package of role 0 that has not won, or of role 1:
outside any reset its fenced bit is set, source 12 is active, and with a dry journal, or where source 12 reaches WARM, the reset begins at
once; role 1 lets its own fence go first. A standalone or fenced package, and a role 0 that has won, only show the pin. With the fence in
place an ALONE package whose mirror area holds host data only, with no key slot, no unretired group and no member, adopts the whole groups
of the mirror area, owns every pool, holds member writes for DRAIN_MS and has its accord record durable; any other state, or a fence in
place already, changes nothing (these two for calm states). FENCE_IN_N high ends a fenced package's fencing: it is JOINING, owns no pool,
and its journal, mirror area and keys are gone; another package only shows the pin. RELEASE of an ALONE package with nothing adopted raises
FENCE_OUT_N and sends JOIN where it may; with something adopted, or in another state of the accord, it is refused; a standalone one does
nothing. Basis: derived, 14_accord.md. -/
def Obligations.FenceMovesOwnership : Prop :=
  ∀ s : State,
    let out := Reg.ACD_STATUS_FENCE_OUT
    let accord := s.dev.acdState ≠ 0 ∧ s.dev.acdState ≠ 4
    (s.dev.role = 1 → s.dev.acd.holdoff = true → s.dev.acd.fenced = false → accord →
      (s.dev.g Reg.ACD_STATUS_FENCE_IN = 0 → s.dev.g out = 0 → Runs .fenceHoldoffExpiry s fun t =>
        t.dev.acdState = 3 ∧ t.dev.g Reg.ACD_STATUS_STEWARD = 1 ∧ t.dev.g out = 1 ∧
        t.dev.emitted = [.pin "FENCE_OUT_N" false] ∧ t.dev.acd.record = s.dev.acd.record ∧ t.dev.jnl = s.dev.jnl) ∧
      (s.dev.g Reg.ACD_STATUS_FENCE_IN = 1 → Runs .fenceHoldoffExpiry s fun t =>
        t.dev.acd.fenced = true ∧ t.dev.acd.holdoff = false ∧ t.dev.g out = 0 ∧ t.dev.acdState = s.dev.acdState)) ∧
    (s.dev.acd.holdoff = false ∨ s.dev.acd.fenced = true → Runs .fenceHoldoffExpiry s s.silent) ∧
    (s.dev.solo = true ∨ s.dev.acdState = 4 ∨ s.dev.role = 0 ∧ s.dev.g out = 1 ∧ s.dev.acd.fenced = false → Runs .fenceInAssert s fun t =>
      t.dev.g Reg.ACD_STATUS_FENCE_IN = 1 ∧ s.onlyRegs t [Reg.ACD_STATUS_FENCE_IN.base] ∧ t.dev.emitted = []) ∧
    (s.dev.role = 0 ∧ s.dev.g out = 0 ∨ s.dev.role = 1 → accord → s.dev.rst.reach = 0 → s.dev.rst.pendingCold = false → Runs .fenceInAssert s fun t =>
      t.dev.rst.fencedBit = true ∧ 12 ∈ t.dev.rst.active ∧ (s.dev.rst.journalLive = false ∨ s.dev.reachOf 12 = 4 → t.dev.rst.reach = s.dev.reachOf 12) ∧
      (s.dev.role = 1 → s.dev.on out = true → Emit.pin "FENCE_OUT_N" true ∈ t.dev.emitted)) ∧
    (s.dev.rst.fencedBit = true ∨ 12 ∈ s.dev.rst.active → Runs .fenceInRelease s fun t =>
      t.dev.acdState = 1 ∧ t.dev.g Reg.ACD_STATUS_STEWARD = 0 ∧ t.dev.g Reg.ACD_OWN_POOLS = 0 ∧ t.dev.g Reg.ACD_STATUS_MIRROR_VALID = 0 ∧
      t.dev.g Reg.ACD_STATUS_FENCE_IN = 0 ∧ t.dev.jnl.recs = [] ∧ t.dev.acd.mirror = [] ∧ t.dev.acd.adopted = [] ∧ t.dev.keys.slots = [] ∧
      t.dev.rst.fencedBit = false ∧ 12 ∉ t.dev.rst.active) ∧
    (s.dev.rst.fencedBit = false → 12 ∉ s.dev.rst.active → Runs .fenceInRelease s fun t =>
      t.dev.g Reg.ACD_STATUS_FENCE_IN = 0 ∧ s.onlyRegs t [Reg.ACD_STATUS_FENCE_IN.base] ∧ t.dev.emitted = []) ∧
    (s.dev.calm → s.dev.acdState = 3 → s.dev.on out = true → s.dev.acd.fenceInPlace = false → (∀ r ∈ s.dev.acd.mirror, r.typ.isMeta = false) →
      s.dev.keys.slots = [] → s.dev.jnl.groups = [] → s.dev.mbrs = [] → Runs .fenceInPlace s fun t =>
        let new := s.dev.mirrorKeep.1.filter fun r => !r.retired && !s.dev.acd.adopted.any (·.seq = r.seq)
        t.dev.acd.fenceInPlace = true ∧ t.dev.g Reg.ACD_OWN_POOLS = 2 ^ 64 - 1 ∧ t.dev.acd.drainUs = some s.dev.now ∧ t.dev.acd.transfers = [] ∧
        t.dev.acd.adopted = s.dev.acd.adopted ++ new.map (fun r => { r with inPlace := true }) ∧ t.dev.acd.mirror = [] ∧
        t.dev.on Reg.ACD_STATUS_ADOPTED = !t.dev.acd.adopted.isEmpty ∧
        t.dev.acdState = 3 ∧ ∃ r, t.dev.acd.record = some r ∧ r.state = 3 ∧ r.formed = true ∧ r.pools = 2 ^ 64 - 1) ∧
    (s.dev.calm → s.dev.acdState ≠ 3 ∨ s.dev.on out = false ∨ s.dev.acd.fenceInPlace = true → Runs .fenceInPlace s s.silent) ∧
    (∀ req, s.dev.commands req →
      (s.dev.acdState = 3 → s.dev.on Reg.ACD_STATUS_ADOPTED = false →
        (s.dev.acd.mute = false → s.dev.peerLive = true → s.dev.g Reg.ACD_STATUS_LINKS_UP ≠ 0 → Runs (.acdRelease req) s fun t =>
          t.dev.g out = 0 ∧ ∃ args, t.dev.emitted = .pin "FENCE_OUT_N" true :: (PeerMsg.mk 0x01 args).writes s.dev.peerOut 0) ∧
        (s.dev.acd.mute = true ∨ s.dev.peerLive = false ∨ s.dev.g Reg.ACD_STATUS_LINKS_UP = 0 → Runs (.acdRelease req) s fun t =>
          t.dev.g out = 0 ∧ t.dev.emitted = [.pin "FENCE_OUT_N" true])) ∧
      (s.dev.acdState ≠ 0 → s.dev.acdState ≠ 3 ∨ s.dev.on Reg.ACD_STATUS_ADOPTED = true → Runs (.acdRelease req) s fun t =>
        t.dev.g Reg.ACD_STATUS_CMD_REFUSED = 1 ∧ s.onlyRegs t [Reg.ACD_STATUS_CMD_REFUSED.base] ∧ t.dev.emitted = []) ∧
      (s.dev.acdState = 0 → Runs (.acdRelease req) s s.silent))

/-- Join, key exchange, member events, the message ring and the mirror area. For every state: a package that is not live takes no message and
serves no allowed request. Of a live one: a message taken is acknowledged in MSG_ACK; an answer is stated for a ring with room. A JOIN that
does not match sets JOIN_ERR; one that does clears it and is answered with KEYX, unless the package keeps silent; one that shows records
makes an ALONE package with its fence released win the fence again; one taken while MIRRORING or with the fence low changes nothing. A KEYX
that fails its check sets JOIN_ERR 5; a good one is remembered with its transport key. KEY installs a copy of the partner's key, unwrapped
with the transport key, in a free slot, ACTIVE where a namespace in use has none; without a slot or with a bad wrap it answers 1; it
destroys a copy it has, or answers at once. KEY_DONE makes a generated slot READY, starts the generation anew, or reports a destruction.
MEMBER_EVENT moves the steward's member machine, and nothing on its partner. An acknowledgement of the ring sends the one message that
waited, if it fits. A peer request outside the claimed range or one that table 14-5 does not allow is an Unsupported Request; an allowed
read answers as many bytes as asked. A commit doorbell that follows the last acknowledgement puts its host-data records into the mirror area
and is acknowledged, and takes a joining partner to MIRRORING; after a gap the old sequence is acknowledged; a bad one is counted; with the
fence low it is ignored. MIRROR_BAD counts, and sends its record again with its own doorbell. Rows that end with settled work are stated for
calm states. Basis: derived, 14_accord.md, 07_integrity_and_encryption.md. -/
def Obligations.AccordMessages : Prop :=
  ∀ s : State,
    (s.dev.peerLive = false → s.dev.calm →
      (∀ j, Runs (.join j) s s.silent) ∧ (∀ ok n, Runs (.keyx ok n) s s.silent) ∧ (∀ op slot nsid key, Runs (.key op slot nsid key) s s.silent) ∧
      (∀ op r slot nsid, Runs (.keyDone op r slot nsid) s s.silent) ∧ (∀ m c, Runs (.memberEvent m c) s s.silent) ∧
      (∀ n, Runs (.messageRingAck n) s s.silent) ∧ (∀ n, Runs (.mirrorBad n) s s.silent) ∧
      (∀ f l t ok rs, Runs (.mirrorCommitDoorbell f l t ok rs) s s.silent)) ∧
    (∀ w addr len, (∀ off, peerOffset addr = some off → s.dev.solo = true ∨ peerAllowed (s.dev.g Reg.BUF_CONFIG_PA_GIB) w off len = false) →
      exec (.peerWindowRequest w addr len) s = .next (s.withDev [.unsupported] id)) ∧
    (∀ w addr len off, s.dev.solo = false → peerOffset addr = some off → peerAllowed (s.dev.g Reg.BUF_CONFIG_PA_GIB) w off len = true →
      w = true ∨ s.dev.peerLive = false → Runs (.peerWindowRequest w addr len) s s.silent) ∧
    (s.dev.peerLive = true →
      let room := s.dev.acd.txWait = [] ∧ s.dev.ringSpace 16 = true
      let done := fun (len typ : Nat) (args : List Nat) (es : List Emit) => s.dev.ringAck len :: es ++ s.dev.message typ args
      (∀ j : JoinMsg,
        (s.dev.acdState = 2 ∨ s.dev.on Reg.ACD_STATUS_FENCE_OUT = true → Runs (.join j) s fun t => s.tookOnly t 40) ∧
        (s.dev.acdState = 3 → s.dev.on Reg.ACD_STATUS_FENCE_OUT = false → j.flags.testBit 2 = true → Runs (.join j) s fun t =>
          t.dev.acdState = 3 ∧ t.dev.g Reg.ACD_STATUS_FENCE_OUT = 1 ∧ t.dev.emitted = [s.dev.ringAck 40, .pin "FENCE_OUT_N" false]) ∧
        (s.dev.acdState = 1 ∨ s.dev.acdState = 3 ∧ j.flags.testBit 2 = false → s.dev.on Reg.ACD_STATUS_FENCE_OUT = false →
          (∀ e, s.dev.joinError j = some e → Runs (.join j) s fun t => t.dev.g Reg.ACD_STATUS_JOIN_ERR = e ∧ t.dev.emitted = [s.dev.ringAck 40]) ∧
          (s.dev.joinError j = none → j.head ≤ s.dev.head → s.dev.acd.mute = true → Runs (.join j) s fun t =>
            t.dev.g Reg.ACD_STATUS_JOIN_ERR = 0 ∧ t.dev.emitted = [s.dev.ringAck 40]) ∧
          (s.dev.joinError j = none → j.head ≤ s.dev.head → s.dev.acd.joinSeen = false → s.dev.acd.mute = false → room → Runs (.join j) s fun t =>
            t.dev.g Reg.ACD_STATUS_JOIN_ERR = 0 ∧ t.dev.emitted = done 40 0x02 [Config.keyxPayload (s.dev.acd.keyxCount + 1)] [] ∧
            t.dev.acd.joinSeen = true))) ∧
      (∀ certLen, s.dev.acd.joinSeen = true → s.dev.acdState = 1 ∨ s.dev.acdState = 3 →
        (Runs (.keyx false certLen) s fun t => t.dev.g Reg.ACD_STATUS_JOIN_ERR = 5 ∧ t.dev.acd.joinSeen = false ∧ t.dev.acd.keyxDone = s.dev.acd.keyxDone) ∧
        (Runs (.keyx true certLen) s fun t => t.dev.acd.keyxDone = true ∧ t.dev.acd.transport = Config.transportKey (s.dev.acd.keyxCount + 1) ∧
          (s.dev.on Reg.ACD_STATUS_STEWARD = true → t.dev.acd.joined = true) ∧
          (s.dev.on Reg.ACD_STATUS_STEWARD = false → ∀ k ∈ t.dev.keys.slots, k.st = .destroying))) ∧
      (room → ∀ slot nsid wrapped,
        (∀ n key, (∀ k ∈ s.dev.keys.slots, k.peer ≠ some slot) → s.dev.freeKeySlot = some n →
          unwrapKey s.dev.acd.transport (leBytes 72 wrapped) = some key →
          let k : KeySlot := ⟨n, .ready, nsid, key, wrapKey kek key, false, false, some slot, false⟩
          (s.dev.hasNs nsid = false → Runs (.key 1 slot nsid wrapped) s fun t =>
            t.dev.keys.slots = s.dev.keys.slots ++ [k] ∧ t.dev.emitted = done 80 0x04 [1, 0, slot, nsid] [.vault "key area" n]) ∧
          (s.dev.hasNs nsid = true → (∀ x ∈ s.dev.keys.slots, ¬ (x.nsid = nsid ∧ x.st = .active)) → Runs (.key 1 slot nsid wrapped) s fun t =>
            { k with st := .active } ∈ t.dev.keys.slots)) ∧
        ((∀ k ∈ s.dev.keys.slots, k.peer ≠ some slot) → s.dev.freeKeySlot = none ∨ unwrapKey s.dev.acd.transport (leBytes 72 wrapped) = none →
          Runs (.key 1 slot nsid wrapped) s fun t => t.dev.keys = s.dev.keys ∧ t.dev.emitted = done 80 0x04 [1, 1, slot, nsid] []) ∧
        ((∀ k ∈ s.dev.keys.slots, k.copyOf slot nsid = false) → Runs (.key 2 slot nsid wrapped) s fun t =>
          t.dev.keys = s.dev.keys ∧ t.dev.emitted = done 80 0x04 [2, 0, slot, nsid] [])) ∧
      ((s.dev.keys.slots.map (·.slot)).Nodup → ∀ k ∈ s.dev.keys.slots,
        (∀ slot nsid wrapped, s.dev.keys.slots.find? (·.copyOf slot nsid) = some k → k.st ≠ .destroying → Runs (.key 2 slot nsid wrapped) s fun t =>
          { k with st := .destroying, key := 0, erased := false, partnerDone := true, peer := some slot, asked := true } ∈ t.dev.keys.slots ∧
          Emit.vault "key area" k.slot ∈ t.dev.emitted) ∧
        (k.st = .empty → s.dev.hasNs k.nsid = true →
          (Runs (.keyDone 1 0 k.slot k.nsid) s fun t => { k with st := .ready } ∈ t.dev.keys.slots ∧ k.nsid ∈ t.dev.keys.switching) ∧
          (∀ r, r ≠ 0 → Runs (.keyDone 1 r k.slot k.nsid) s fun t => k ∉ t.dev.keys.slots ∧ (k.nsid, false) ∈ t.dev.keys.wantGen)) ∧
        (k.st = .destroying → s.dev.nvm.erases = [] →
          (k.erased = false → Runs (.keyDone 2 0 k.slot k.nsid) s fun t => { k with partnerDone := true } ∈ t.dev.keys.slots) ∧
          (k.erased = true → Runs (.keyDone 2 0 k.slot k.nsid) s fun t => ∀ x ∈ t.dev.keys.slots, x.slot ≠ k.slot))) ∧
      (∀ m, s.dev.calm → m < s.dev.mbrs.length →
        (s.dev.on Reg.ACD_STATUS_STEWARD = false → ∀ code, Runs (.memberEvent m code) s fun t => s.tookOnly t 4) ∧
        (s.dev.on Reg.ACD_STATUS_STEWARD = true → (s.dev.mbr m).st.active = true → s.dev.mcmds = [] → Runs (.memberEvent m 3) s fun t =>
          (t.dev.mbr m).st = .failed ∧ (t.dev.mbr m).cause = .reported)) ∧
      (∀ n,
        let took := fun (d : Dev) => { d with acd := { d.acd with rxAck := n % 2 ^ 32 } }
        (s.dev.acd.txWait = [] → Runs (.messageRingAck n) s fun t => t = s.withDev [] took) ∧
        (∀ m, s.dev.acd.txWait = [m] →
          ((took s.dev).ringSpace m.slots = true → Runs (.messageRingAck n) s fun t =>
            t.dev.emitted = m.writes s.dev.peerOut s.dev.acd.txSeq ∧ t.dev.acd.txWait = [] ∧ t.dev.regs = s.dev.regs) ∧
          ((took s.dev).ringSpace m.slots = false → Runs (.messageRingAck n) s fun t => t = s.withDev [] took))) ∧
      (∀ addr off len, peerOffset addr = some off → peerAllowed (s.dev.g Reg.BUF_CONFIG_PA_GIB) false off len = true →
        Runs (.peerWindowRequest false addr len) s fun t => ∃ bs, t.dev.emitted = [.replyBytes bs] ∧ bs.length = len ∧ t.dev.regs = s.dev.regs ∧ s.memKept t) ∧
      (∀ first last tail recs, s.dev.calm →
        let old := s.dev.acd.mirror
        let acks := fun (h : Nat) => [Emit.peerWrite s.dev.peerOut 0x20 (leBytes 8 h)]
        (s.dev.on Reg.ACD_STATUS_FENCE_OUT = true → ∀ ok, Runs (.mirrorCommitDoorbell first last tail ok recs) s s.silent) ∧
        (s.dev.on Reg.ACD_STATUS_FENCE_OUT = false →
          (Runs (.mirrorCommitDoorbell first last tail false recs) s fun t => t.dev.emitted = [] ∧
            t.dev.g Reg.ACD_COUNTS_BAD_DOORBELLS = min (s.dev.g Reg.ACD_COUNTS_BAD_DOORBELLS + 1) 255 ∧ s.onlyRegs t [Reg.ACD_COUNTS_BAD_DOORBELLS.base]) ∧
          (s.dev.acd.ackedIn ≠ 0 → first ≤ last → s.dev.acd.doorbells = [] →
            (∀ r ∈ old ++ recs, r.typ.isMeta = false ∧ tail ≤ r.seq ∧ s.dev.acd.mirrorTail ≤ r.seq) → (∀ r ∈ old, ∀ x ∈ recs, x.seq ≠ r.seq) →
            (first = s.dev.acd.ackedIn + 1 → s.dev.acdState = 2 → Runs (.mirrorCommitDoorbell first last tail true recs) s fun t =>
              t.dev.emitted = acks last ∧ t.dev.acd.ackedIn = last ∧ t.dev.acd.mirror = old ++ recs ∧ t.dev.regs = s.dev.regs) ∧
            (first = s.dev.acd.ackedIn + 1 → s.dev.acdState = 1 → s.dev.acd.keyxDone = true → s.dev.on Reg.ACD_STATUS_STEWARD = false →
              s.dev.jnl.groups = [] → Runs (.mirrorCommitDoorbell first last tail true recs) s fun t =>
                t.dev.acdState = 2 ∧ t.dev.g Reg.ACD_STATUS_MIRROR_VALID = 1 ∧ t.dev.acd.mirror = old ++ recs ∧ acks last ⊆ t.dev.emitted) ∧
            (s.dev.acd.ackedIn + 1 < first → Runs (.mirrorCommitDoorbell first last tail true recs) s fun t =>
              t.dev.emitted = acks s.dev.acd.ackedIn ∧ t.dev.acd.ackedIn = s.dev.acd.ackedIn ∧ t.dev.acd.mirror = old ++ recs ∧
              t.dev.regs = s.dev.regs)))) ∧
      (∀ seq, Runs (.mirrorBad seq) s fun t =>
        t.dev.g Reg.ACD_COUNTS_MIRROR_BAD = min (s.dev.g Reg.ACD_COUNTS_MIRROR_BAD + 1) 255 ∧ t.dev.jnl = s.dev.jnl ∧
        (∀ r, s.dev.jnl.recs.find? (·.seq = seq) = some r → t.dev.emitted = s.dev.ringAck 8 :: s.dev.recWrites s.dev.groupLink r ++
          [.peerWrite s.dev.groupLink 0 (doorbell seq seq s.dev.tail)]) ∧
        (s.dev.jnl.recs.find? (·.seq = seq) = none → t.dev.emitted = [s.dev.ringAck 8])))

/-- Planned transfers, two-package commits, checkpoints and pool operations across the peer link. For every state of a live accord package whose
ring has room: while MIRRORING, OWN_CMD of pools it owns, of which none is in change or the plinth pool, shows them in change and, once
their records and commands are settled, sends OWNERSHIP; it is refused otherwise. OWNERSHIP gives the pools and is answered by OWN_ACK, with
nothing to adopt by ADOPT_DONE too; else a transfer is left to end; a package that is not MIRRORING only takes it. OWN_ACK takes the pools
from the giver, and QUIET follows when their writes are done; QUIET lets writes of the pools go; ADOPT_DONE ends the transfer and retires
their records. ARM_STAGE of a damaged image answers 0x0109, of an invalid one its error, and a valid one is staged and answered 0; ARM_READY
of a join is answered by the switch, a commit's bad code rejects the maquette and its good one begins the writes; ARM_SWITCH makes the
staged armature of that epoch, with the modes as they are, active with its vault slot, and drops one of another epoch. CKPT_DONE retires the
metadata records covered. RESYNC_DONE and FILL_DONE are noted, the second in the fill list of the vault. NS_OP starts the partner's erasure,
which waits while an armature commits or drains, and an unknown operation starts none; NS_DONE of the last owner completes the command with
its status. Rows that end with settled work are stated for calm states, and those that switch rows for no row write outstanding. A package
that is not live takes none of these messages (calm states). Basis: derived, 14_accord.md, 03_armature.md. -/
def Obligations.AccordTransfersAndCommits : Prop :=
  ∀ s : State,
   (s.dev.peerLive = false → s.dev.calm →
      (∀ p h, Runs (.ownership p h) s s.silent) ∧ (∀ p, Runs (.ownAck p) s s.silent) ∧ (∀ p, Runs (.quiet p) s s.silent) ∧
      (∀ p, Runs (.adoptDone p) s s.silent) ∧ (∀ e c img, Runs (.armStage e c img) s s.silent) ∧ (∀ e c b, Runs (.armReady e c b) s s.silent) ∧
      (∀ n, Runs (.ckptDone n) s s.silent) ∧ (∀ m, Runs (.resyncDone m) s s.silent) ∧ (∀ a b c e, Runs (.nsOp a b c e) s s.silent) ∧
      (∀ a st, Runs (.nsDone a st) s s.silent) ∧ (∀ a b c, Runs (.fillDone a b c) s s.silent)) ∧
   (s.dev.peerLive = true → s.dev.acd.txWait = [] → s.dev.ringSpace 16 = true →
    let done := fun (len typ : Nat) (args : List Nat) (es : List Emit) => s.dev.ringAck len :: es ++ s.dev.message typ args
    (∀ req (mask : DWord), s.dev.commands req → mask ≠ 0 → s.dev.acd.transfers = [] →
      let gives := s.dev.mirroring = true ∧ mask.toNat &&& s.dev.g Reg.ACD_OWN_POOLS = mask.toNat ∧
        (∀ a p, s.dev.arm.active = some a → a.plinthPool = some p → mask.toNat.testBit p = false) ∧ mask.toNat &&& s.dev.acd.anaChange = 0
      (gives → Runs (.acdOwnCmd req mask) s fun t =>
          t.dev.acd.anaChange = s.dev.acd.anaChange ||| mask.toNat ∧
          (s.dev.poolSettled mask.toNat = false → t.dev.acd.transfers = [Transfer.mk mask.toNat true 1]) ∧
          (s.dev.poolSettled mask.toNat = true → t.dev.acd.transfers = [Transfer.mk mask.toNat true 2] ∧
            s.dev.message 0x06 [mask.toNat, s.dev.head] ⊆ t.dev.emitted)) ∧
      (¬ gives → Runs (.acdOwnCmd req mask) s fun t =>
        t.dev.g Reg.ACD_STATUS_CMD_REFUSED = 1 ∧ s.onlyRegs t [Reg.ACD_STATUS_CMD_REFUSED.base] ∧ t.dev.emitted = [])) ∧
    (∀ pools head, pools < 2 ^ 64 →
      let mine := s.dev.acd.mirror.filter fun r => !r.retired && !r.typ.isMeta && pools.testBit r.pool
      (s.dev.mirroring = false → Runs (.ownership pools head) s fun t => s.tookOnly t 16) ∧
      (s.dev.mirroring = true → head ≤ s.dev.head → (∀ r ∈ s.dev.acd.mirror, r.seq ≤ s.dev.head) → Runs (.ownership pools head) s fun t =>
        t.dev.g Reg.ACD_OWN_POOLS = s.dev.g Reg.ACD_OWN_POOLS ||| pools ∧ t.dev.acd.quietWait = s.dev.acd.quietWait ||| pools ∧
        s.dev.message 0x07 [pools] ⊆ t.dev.emitted ∧
        (mine = [] → (PeerMsg.mk 0x09 [pools]).writes s.dev.peerOut (s.dev.acd.txSeq + 1) ⊆ t.dev.emitted ∧ t.dev.acd.transfers = s.dev.acd.transfers) ∧
        (mine ≠ [] → t.dev.acd.transfers = s.dev.acd.transfers ++ [Transfer.mk pools false 3] ∧
          ∀ r ∈ mine, ∃ x ∈ t.dev.acd.adopted, x.seq = r.seq)) ∧
      (s.dev.acd.transfers = [] → Runs (.ownAck pools) s fun t => s.tookOnly t 8) ∧
      (s.dev.acd.transfers = [Transfer.mk pools true 2] → Runs (.ownAck pools) s fun t =>
        t.dev.g Reg.ACD_OWN_POOLS = s.dev.g Reg.ACD_OWN_POOLS - (s.dev.g Reg.ACD_OWN_POOLS &&& pools) ∧
        (s.dev.poolWrites pools = true → t.dev.acd.transfers = [Transfer.mk pools true 3]) ∧
        (s.dev.poolWrites pools = false → t.dev.acd.transfers = [Transfer.mk pools true 4] ∧ s.dev.message 0x08 [pools] ⊆ t.dev.emitted)) ∧
      (s.dev.calm → Runs (.quiet pools) s fun t =>
        t.dev.acd.quietWait = s.dev.acd.quietWait - (s.dev.acd.quietWait &&& pools) ∧ t.dev.regs = s.dev.regs ∧ t.dev.emitted = [s.dev.ringAck 8]) ∧
      (s.dev.nvm.erases = [] → s.dev.mgmt.waiting = [] → s.dev.jnl.lost = [] → s.dev.acd.transfers = [Transfer.mk pools true 4] →
        Runs (.adoptDone pools) s fun t =>
          t.dev.acd.transfers = [] ∧ ∀ r ∈ t.dev.jnl.recs, r.typ.isMeta = false → pools.testBit r.pool = true → r.retired = true)) ∧
    (∀ epoch crc img,
      let cx := if s.dev.acdState = 1 then { s.dev.valCtx img.length with active := none } else s.dev.valCtx img.length
      let ready := fun (code : Nat) (es : List Emit) => done 12 0x0B [epoch, code, bit (s.dev.on Reg.ARM_STATUS_DRAINING), 0] es
      (crc32c img ≠ crc → Runs (.armStage epoch crc img) s fun t => t.dev.emitted = ready 0x0109 [] ∧ t.dev.acd.staged = s.dev.acd.staged) ∧
      (∀ e, crc32c img = crc → validateImage cx img = .error e → Runs (.armStage epoch crc img) s fun t =>
        t.dev.emitted = ready e.code [] ∧ t.dev.acd.staged = s.dev.acd.staged) ∧
      (∀ a, crc32c img = crc → validateImage cx img = .ok a → Runs (.armStage epoch crc img) s fun t =>
        t.dev.acd.staged = some a ∧ t.dev.emitted = ready 0 [.vault "armature" a.epoch])) ∧
    (s.dev.calm →
      (∀ epoch draining, s.dev.acd.joined = true → s.dev.maq ≠ 5 → Runs (.armReady epoch 0 draining) s fun t =>
        t.dev.emitted = done 8 0x0C [epoch] [] ∧ t.dev.arm = s.dev.arm ∧ t.dev.regs = s.dev.regs) ∧
      (∀ a code draining, s.dev.maq = 5 → s.dev.arm.commitStage = 1 → s.dev.arm.maquette = some a →
        (code ≠ 0 ∨ draining = true → Runs (.armReady a.epoch code draining) s fun t =>
          t.dev.maq = 4 ∧ t.dev.g Reg.ARM_STATUS_DONE = 1 ∧ t.dev.arm.active = s.dev.arm.active) ∧
        (code = 0 → draining = false → Runs (.armReady a.epoch code draining) s fun t =>
          t.dev.arm.commitStage = (if s.dev.arm.active.isSome then 2 else 3) ∧ t.dev.regs = s.dev.regs) ∧
        (∀ e, e ≠ a.epoch → Runs (.armReady e code draining) s fun t => s.tookOnly t 8)) ∧
      (s.dev.cwq.sqs = [] → s.dev.fab.rowWrites = [] → ∀ epoch,
        (s.dev.acd.staged = none → s.dev.arm.commitStage ≠ 4 → Runs (.armSwitch epoch) s fun t => s.tookOnly t 4) ∧
        (∀ a, s.dev.acd.staged = some a → a.epoch ≠ epoch ∨ s.dev.epoch = epoch → s.dev.arm.commitStage ≠ 4 → Runs (.armSwitch epoch) s fun t =>
          t.dev.acd.staged = none ∧ t.dev.arm = s.dev.arm ∧ t.dev.regs = s.dev.regs) ∧
        (∀ a, s.dev.acd.staged = some a → a.epoch = epoch → s.dev.epoch ≠ a.epoch → s.dev.disc = [] → s.dev.ops = [] → s.dev.sameModes a →
          Runs (.armSwitch epoch) s fun t =>
            t.dev.arm.active = some a ∧ t.dev.arm.draining = s.dev.arm.active ∧ t.dev.acd.staged = none ∧
            t.dev.arm.vaultSlots = AMap.put s.dev.arm.vaultSlots s.dev.freeVaultSlot a ∧ Emit.vault "commit record" a.epoch ∈ t.dev.emitted)) ∧
      (∀ pool pos group, Runs (.fillDone pool pos group) s fun t =>
        (∀ x, x ∈ t.dev.arm.fills ↔ x ∈ s.dev.arm.fills ∧ ¬ (x.pool = pool ∧ x.group = group ∧ x.pos = pos)) ∧
        Emit.vaultBytes "fill list" (t.dev.arm.fills.flatMap FillEntry.bytes) ∈ t.dev.emitted)) ∧
    (∀ seq, s.dev.jnl.lost = [] → Runs (.ckptDone seq) s fun t => ∀ r ∈ t.dev.jnl.recs, r.typ.isMeta = true → r.seq ≤ seq → r.retired = true) ∧
    (∀ m, Runs (.resyncDone m) s fun t => m ∈ t.dev.acd.resyncDone ∧ (∀ x ∈ s.dev.acd.resyncDone, x ∈ t.dev.acd.resyncDone) ∧
      t.dev.regs = s.dev.regs ∧ t.dev.emitted = [s.dev.ringAck 2]) ∧
    (∀ nsid cdw10 cdw11,
      (Runs (.nsOp 1 nsid cdw10 cdw11) s fun t => Emit.vault "progress" 0 ∈ t.dev.emitted) ∧
      (Runs (.nsOp 2 nsid cdw10 cdw11) s fun t => Emit.vault "progress" 0 ∈ t.dev.emitted) ∧
      (∀ op, op ≠ 1 → op ≠ 2 → Runs (.nsOp op nsid cdw10 cdw11) s fun t => s.tookOnly t 32) ∧
      (s.dev.nvm.erases = [] → s.dev.armBusy = true →
        (Runs (.nsOp 1 nsid cdw10 cdw11) s fun t =>
          ∃ e, t.dev.nvm.erases = [e] ∧ e.remote = true ∧ e.sanitize = false ∧ e.waiting = true ∧
            e.nsids = (s.dev.nsidsOwned true).filter (fun n => nsid == 0xFFFFFFFF || n == nsid)) ∧
        (Runs (.nsOp 2 nsid cdw10 cdw11) s fun t =>
          ∃ e, t.dev.nvm.erases = [e] ∧ e.remote = true ∧ e.sanitize = true ∧ e.waiting = true ∧ e.nsids = s.dev.nsidsOwned true))) ∧
    (∀ (e : Erase) (st : NvStatus), s.dev.nvm.erases = [e] → e.sanitize = false → e.remote = false → e.silent = false → e.waiting = false → e.step = 3 →
      s.dev.arm.zeroing = [] → s.dev.acd.nsOps.map (fun w => (w.sanitize, w.left)) = [(false, 1)] → e.cid < tunnelCid → s.dev.canPost e.portB 0 →
      Runs (.nsDone 1 st) s fun t => t.answers e.portB 0 e.cid st 0 ∧ t.dev.nvm.erases = [] ∧ t.dev.acd.nsOps = []))

/-! ### Power loss, the vault and the event log -/

/-- The seal, the dump, the resume, the VLT_ commands and the log's pages. For every state: PWR_FAIL_N low counts an unsafe shutdown where an
enabled controller was not shut down, and seals a live journal at its head (outside RUN at the largest number) with the mirroring and
MIRROR_VALID flags in the control block: STATE 3, DUMPING, scrubbing paused; a restored, dead or sealed journal, or one under a COLD reset,
is left alone. Its return high changes the pin and the margin alone. A dump begun writes the next dump number with header, chunk table and
trailer to the generation that does not hold the highest one, leaves the other one, counts the failed vault blocks as retired, writes the
log's tail, and ends DUMPING with RESTORED set, or with the COLD reset that waited; with idle queues its image is the protected area as it
is; with none begun nothing happens. IN_PLACE_RESUME of a sealed package after a complete dump with idle queues begins a replay with SOURCE
3 and counts it; otherwise nothing happens (calm states). DISCARD_DUMP consumes the held generation and lets a held journal begin its
replay; CLR_FLAGS clears two flags; the NAND dies power off unless a dump runs. A flush or a page's timeout moves the log's tail to the
ring, which keeps the newest 1,048,576 records; an empty tail writes nothing. Basis: derived, 15_power_loss_and_vault.md,
18_management_subsystem.md. -/
def Obligations.VaultKeepsTheJournal : Prop :=
  ∀ s : State,
    let lost := fun (c : NvmeCtl) => c.en = true ∧ c.shutdown = false
    let flushed := fun (t : State) =>
      t.dev.log.ring = (s.dev.log.ring ++ s.dev.log.tail).drop (s.dev.log.ring.length + s.dev.log.tail.length - 2 ^ 20) ∧ t.dev.log.tail = [] ∧
      t.dev.g Reg.LOG_STATUS_TAIL_USED = 0 ∧ t.dev.emitted = [.vault "event log" ((s.dev.log.tail.length + 63) / 64)]
    let held := fun (n : Nat) => if (s.dev.gen n).restorable then n else 1 - n
    (Runs .pwrFailAssert s fun t =>
      t.dev.vlt.pwrLow = true ∧
      (lost s.dev.ctlA ∨ lost s.dev.ctlB → t.dev.nvm.unsafeShutdowns = s.dev.nvm.unsafeShutdowns + 1) ∧
      (¬ lost s.dev.ctlA → ¬ lost s.dev.ctlB → t.dev.nvm = s.dev.nvm) ∧
      (s.dev.on Reg.VLT_STATUS_RESTORED = false → s.dev.rst.journalLive = true → s.dev.g Reg.JNL_STATUS_STATE ≠ 3 → s.dev.rst.reach ≠ 5 →
        t.dev.g Reg.JNL_STATUS_STATE = 3 ∧ t.dev.g Reg.VLT_STATUS_DUMPING = 1 ∧ t.dev.g Reg.BUF_STATUS_SCRUB_PAUSED = 1 ∧
        t.dev.jnl = { s.dev.jnl with cb := t.dev.jnl.cb } ∧ t.dev.jnl.sealed = true ∧
        t.dev.jnl.sealSeq = (if s.dev.running then s.dev.head else 2 ^ 64 - 1) ∧ t.dev.jnl.cbTail = s.dev.jnl.cbTail ∧
        t.dev.jnl.sealFlags.testBit 1 = s.dev.mirroring ∧ t.dev.jnl.sealFlags.testBit 2 = s.dev.mirrorValid ∧
        t.dev.rst = { s.dev.rst with journalLive := false } ∧ t.dev.vlt.assertUs = s.dev.now ∧
        s.dev.regsKept t.dev [Reg.JNL_STATUS_STATE.base, Reg.VLT_STATUS_DUMPING.base, Reg.BUF_STATUS_SCRUB_PAUSED.base]) ∧
      (s.dev.on Reg.VLT_STATUS_RESTORED = true ∨ s.dev.rst.journalLive = false ∨ s.dev.g Reg.JNL_STATUS_STATE = 3 ∨ s.dev.rst.reach = 5 →
        t.dev.regs = s.dev.regs ∧ t.dev.jnl = s.dev.jnl ∧ t.dev.rst = s.dev.rst)) ∧
    (Runs .pwrFailDeassert s fun t => t = s.withDev [] fun d => { d with vlt := { d.vlt with pwrLow := false, marginFrom := none } }) ∧
    (∀ ms failed, s.dev.on Reg.VLT_STATUS_DUMPING = true → Runs (.dump ms failed) s fun t =>
      let n := s.dev.newestGen
      let num := (s.dev.gen n).num + 1
      (∃ img, t.dev.gen (1 - n) =
          ⟨num, .valid, s.dev.dumpHeader num, Config.chunkTable num, dumpTrailer num ms (Config.chunkTable num), some img⟩ ∧
        (s.dev.cwq = Cwq.blank → img = s.dev.dumpImage)) ∧
      t.dev.gen n = s.dev.gen n ∧ t.dev.vlt.dumps = s.dev.vlt.dumps + 1 ∧ t.dev.vlt.retired = s.dev.vlt.retired + failed ∧
      (s.dev.rst.pendingCold = false → t.dev.vlt.dumpDone = true ∧ t.dev.log.tail = [] ∧ t.dev.g Reg.VLT_STATUS_DUMPING = 0 ∧ t.dev.g Reg.VLT_STATUS_RESTORED = 1 ∧
        (s.dev.cwq = Cwq.blank → t.dev.jnl = s.dev.jnl)) ∧
      (s.dev.rst.pendingCold = true → t.dev.rst.reach = 5 ∧ t.dev.rst.dumped = true)) ∧
    (∀ ms failed, s.dev.on Reg.VLT_STATUS_DUMPING = false → Runs (.dump ms failed) s s.silent) ∧
    (s.dev.calm →
      (s.dev.vlt.dumpDone = true → s.dev.vlt.pwrLow = false → s.dev.rst.reach = 0 → s.dev.g Reg.JNL_STATUS_STATE = 3 →
        s.dev.cwq = Cwq.blank → Runs .inPlaceResume s fun t =>
          t.dev.g Reg.JNL_STATUS_STATE = 1 ∧ t.dev.g Reg.VLT_STATUS_SOURCE = 3 ∧
          t.dev.g Reg.VLT_COUNTS_RESUMES = min (s.dev.g Reg.VLT_COUNTS_RESUMES + 1) (fldMax Reg.VLT_COUNTS_RESUMES) ∧
          t.dev.vlt = { s.dev.vlt with dumpDone := false, resuming := true, marginFrom := none } ∧ t.dev.jnl = s.dev.jnl) ∧
      (s.dev.vlt.dumpDone = false ∨ s.dev.vlt.pwrLow = true ∨ s.dev.rst.reach ≠ 0 ∨ s.dev.g Reg.JNL_STATUS_STATE ≠ 3 → Runs .inPlaceResume s s.silent)) ∧
    (∀ req, s.dev.commands req →
      (s.dev.on Reg.VLT_STATUS_P_MISMATCH = false → Runs (.vltDiscardDump req) s s.silent) ∧
      (s.dev.on Reg.VLT_STATUS_P_MISMATCH = true → Runs (.vltDiscardDump req) s fun t =>
        t.dev.gen (held s.dev.newestGen) = { s.dev.gen (held s.dev.newestGen) with st := .consumed } ∧
        t.dev.gen (1 - held s.dev.newestGen) = s.dev.gen (1 - held s.dev.newestGen) ∧ t.dev.g Reg.VLT_STATUS_P_MISMATCH = 0 ∧
        (s.dev.rst.reach = 0 → s.dev.on Reg.RST_STATUS_OPTIONS_DEFAULTED = false → s.dev.on Reg.MBX_STATUS_RECOVERY = false →
          s.dev.g Reg.JNL_STATUS_STATE = 0 → t.dev.g Reg.JNL_STATUS_STATE = 1)) ∧
      (Runs (.vltClrFlags req) s fun t =>
        t.dev.g Reg.VLT_STATUS_LAST_DUMP_FAILED = 0 ∧ t.dev.g Reg.VLT_STATUS_HOLDUP_LOW = 0 ∧ s.onlyRegs t [Reg.VLT_STATUS_HOLDUP_LOW.base]) ∧
      (s.dev.log.tail ≠ [] → Runs (.logFlush req) s flushed) ∧
      (s.dev.log.tail = [] → Runs (.logFlush req) s s.silent)) ∧
    (s.dev.log.tail ≠ [] → Runs .logPageTimeout s flushed) ∧
    (s.dev.log.tail = [] → Runs .logPageTimeout s s.silent) ∧
    (s.dev.on Reg.VLT_STATUS_DUMPING = true → Runs .vaultNandIdle s s.silent) ∧
    (s.dev.on Reg.VLT_STATUS_DUMPING = false → Runs .vaultNandIdle s fun t => t = s.withDev [] fun d => { d with vlt := { d.vlt with nandOff := true } })

/-! ### Resets and option loading -/

/-- Reset sources begin the reset of their reach, seal a live journal first, or are only recorded. For every state with no reset held or
waiting: power-on, SYS_RST_N, a software WARM or COLD with the key, a lost IOD PLL, PB_PERST_N in accord, the core watchdog, a critical
state error of sources 13 to 17 and a supply brownout each become active, and begin the package reset of the reach that the fuses give them:
SYS_RST_N is driven, the exit has not begun, both controllers are disabled; COLD empties the journal. Where the reach is COLD and the
journal is live, sources other than power-on and brownout seal it first and the reset waits for the dump. Watchdog and PB_PERST_N with reach
NONE begin no reset: the core restarts alone, ending its mailbox command with status 5, and the peer link is reset. An error of sources 21,
23 or 24 asks its block to go idle. A wrong key, a SOLO package's PB_PERST_N, SYS_RST_N while the device drives it and for 10 µs after, and
targets that do not exist change nothing; a source 21, 23 or 24 during a package reset is recorded with it, and one whose block a wider
reset covers is recorded with that. CLR_HIST clears the eight entries. Power-on forgets the backup domain where it lost its power. Basis:
derived, 16_reset_and_options.md, 18_management_subsystem.md, 17_clocks_and_power_domains.md. -/
def Obligations.ResetSourcesBeginTheirReset : Prop :=
  ∀ s : State,
    let begins := fun (src : Nat) (t : State) =>
      t.dev.rst.reach = s.dev.reachOf src ∧ t.dev.rst.step = 0 ∧ t.dev.rst.stretch = true ∧ t.dev.rst.pinLow = true ∧ src ∈ t.dev.rst.active ∧
      src ∈ t.dev.rst.seen ∧ t.dev.rst.pendingCold = false ∧ t.dev.ctlA.en = false ∧ t.dev.ctlB.en = false ∧
      (s.dev.rst.pinLow = false → Emit.pin "SYS_RST_N" false ∈ t.dev.emitted) ∧ (s.dev.reachOf src = 5 → t.dev.jnl.recs = [])
    let waits := fun (src : Nat) (t : State) =>
      t.dev.rst.pendingCold = true ∧ t.dev.rst.reach = 0 ∧ src ∈ t.dev.rst.active ∧ t.dev.jnl.sealed = true ∧ t.dev.jnl.recs = s.dev.jnl.recs ∧
      t.dev.g Reg.JNL_STATUS_STATE = 3 ∧ t.dev.g Reg.VLT_STATUS_DUMPING = 1 ∧ t.dev.rst.journalLive = false
    let raised := fun (src : Nat) (c : Instr) =>
      (s.dev.reachOf src = 4 ∨ s.dev.reachOf src = 5 ∧ s.dev.rst.journalLive = false → Runs c s (begins src)) ∧
      (s.dev.reachOf src = 5 → s.dev.rst.journalLive = true → Runs c s (waits src))
    (s.dev.rst.reach = 0 → s.dev.rst.pendingCold = false →
      (s.dev.rst.pinLow = false → s.dev.rst.pinFreeUs ≤ s.dev.now → raised 1 .sysRstNAssert) ∧
      (∀ req, s.dev.commands req → raised 10 (.softwareWarm req 0x5EA1) ∧ raised 11 (.softwareCold req 0x5EA1)) ∧
      raised 8 .iodPllLockLoss ∧
      (s.dev.opt.flags.testBit 2 = true → raised 4 .peerPerst) ∧
      raised 9 .mgmtWatchdog ∧
      (∀ src target, 13 ≤ src → src ≤ 17 → raised src (.criticalStateError src target)) ∧
      Runs .supplyBrownout s (begins 7) ∧
      (s.dev.reachOf 9 = 6 → Runs .mgmtWatchdog s fun t =>
        t.dev.rst.reach = 0 ∧ t.dev.mgmt.pldm = none ∧ t.dev.jnl = s.dev.jnl ∧ t.dev.cmds = s.dev.cmds ∧
        (s.dev.on Reg.MBX_STATUS_BUSY = true → t.dev.on Reg.MBX_STATUS_BUSY = false ∧ t.dev.g Reg.MBX_STATUS_STATUS = 5)) ∧
      (s.dev.reachOf 4 = 6 → s.dev.opt.flags.testBit 2 = true → s.dev.solo = false → Runs .peerPerst s fun t =>
        t.dev.rst.reach = 0 ∧ (t.dev.g Reg.ACD_STATUS_LINKS_UP).testBit 1 = false ∧ t.dev.g Reg.ACD_STATUS_LINK_DOWN = 1) ∧
      (∀ src target, src = 21 ∧ target < 8 ∨ (src = 23 ∨ src = 24) ∧ target < 32 → s.dev.reachOf src < 4 → s.dev.rst.blocks = [] →
        Runs (.criticalStateError src target) s fun t =>
          t.dev.rst.blocks = [⟨src, s.dev.reachOf src, widerTarget (homeLevel src) target (s.dev.reachOf src), false, false, []⟩] ∧
          t.dev.rst.reach = 0 ∧ t.dev.regs = s.dev.regs)) ∧
    (∀ src target, src = 21 ∧ target < 8 ∨ (src = 23 ∨ src = 24) ∧ target < 32 → s.dev.reachOf src < 4 →
      (s.dev.rst.reach ≠ 0 → Runs (.criticalStateError src target) s fun t =>
        t = s.withDev [] fun d => { d with rst := { d.rst with seen := (d.rst.seen ++ [src]).eraseDups } }) ∧
      (∀ b : BlockReset, s.dev.rst.reach = 0 → s.dev.rst.blocks = [b] → s.dev.reachOf src ≤ b.level → b.level ≤ 3 →
        b.target = widerTarget (homeLevel src) target b.level → Runs (.criticalStateError src target) s fun t =>
          t = s.withDev [] fun d => { d with rst := { d.rst with blocks := [{ b with also := (b.also ++ [src]).eraseDups }] } })) ∧
    (s.dev.rst.pinLow = true ∨ s.dev.now < s.dev.rst.pinFreeUs → Runs .sysRstNAssert s s.silent) ∧
    (s.dev.opt.flags.testBit 2 = false → Runs .peerPerst s s.silent) ∧
    (∀ src target, ¬ (13 ≤ src ∧ src ≤ 17) → ¬ (src = 21 ∧ target < 8) → ¬ ((src = 23 ∨ src = 24) ∧ target < 32) →
      Runs (.criticalStateError src target) s s.silent) ∧
    (∀ req key, s.dev.commands req →
      (key ≠ 0x5EA1 → Runs (.softwareWarm req key) s s.silent ∧ Runs (.softwareCold req key) s s.silent ∧ Runs (.rstClrHist req key) s s.silent) ∧
      (Runs (.rstClrHist req 0x5EA1) s fun t =>
        (∀ i, i < 8 → t.dev.gi Reg.RST_HIST_ENTRY i = 0) ∧ s.onlyRegs t ((List.range 8).map fun i => 0x240040 + 8 * i))) ∧
    (∀ bkp, Runs (.powerOn bkp) s fun t =>
      t.dev.rst.reach = 5 ∧ t.dev.rst.step = 0 ∧ t.dev.rst.active = [0] ∧ t.dev.rst.seen = [0] ∧ t.dev.rst.pinLow = true ∧ t.dev.now = 0 ∧
      t.dev.jnl.recs = [] ∧ t.dev.acd.mirror = [] ∧ t.dev.cmds = [] ∧ t.dev.ops = [] ∧ t.dev.arm.maquette = none ∧
      (bkp = true → t.dev.rst.journalLive = s.dev.rst.journalLive ∧ t.dev.rst.fencedBit = s.dev.rst.fencedBit ∧ t.dev.rst.pattern = s.dev.rst.pattern) ∧
      (bkp = false → t.dev.rst.journalLive = false ∧ t.dev.rst.fencedBit = false ∧ t.dev.rst.pattern = false))

/-- The exit of a package reset, option loading, and the resets of blocks. For every state: 2.0 ms after a held reset began the sources that end
with it end, and SYS_RST_N is released where no other holds it. The exit waits for the stretch, for every source that holds the package and
for a dump; a COLD exit then releases the pin, starts the option load and drops the margin where CLK_BKP is absent, and, once the buffer
memory is ready, ends like a WARM one: no reset is held, the oldest history entry leaves and this reset's entry is the first, units that
failed the self-test are retired, and the journal leaves OFF unless something holds it. An option load with no good copy takes the defaults;
with a good one, in a standalone package, it takes the one with the higher sequence number and reports which. A block reset command names
its block or is refused; a block that is idle, or timed out, is held, recorded and counted; it leaves reset at its exit, a die only with its
PLL locked, and a die whose link fails to train resets again or, at the third time, is offline. A die's PLL loss asks that die to go idle.
Rows that name no block asked for, or one not in the state for them, change nothing (a block's exit where no row write, erasure, transfer or
firmware wait can go on). Basis: derived, 16_reset_and_options.md, 17_clocks_and_power_domains.md. -/
def Obligations.ExitOptionsAndBlockResets : Prop :=
  ∀ s : State,
    let stretched := fun (t : State) =>
      t.dev.rst.stretch = false ∧ t.dev.rst.active = s.dev.rst.active.filter (fun x => !(List.contains [0, 1, 4, 8] x)) ∧
      t.dev.rst.pinLow = (s.dev.rst.pinLow && t.dev.holding)
    let out := fun (t : State) =>
      t.dev.rst.reach = 0 ∧ t.dev.rst.step = 0 ∧ t.dev.rst.seen = [] ∧ t.dev.rst.stretch = false ∧
      t.dev.gi Reg.RST_HIST_ENTRY 0 = s.dev.histEntry % 2 ^ 64 ∧ (∀ i, i < 7 → t.dev.gi Reg.RST_HIST_ENTRY (i + 1) = s.dev.gi Reg.RST_HIST_ENTRY i) ∧
      (t.dev.journalHeld = false → t.dev.g Reg.JNL_STATUS_STATE = 1)
    let useB := fun (a b : Bool) => b && (!a || decide (leAt s.dev.vlt.optA 8 8 < leAt s.dev.vlt.optB 8 8))
    let quiet := s.dev.calm ∧ s.dev.fab.rowWrites = [] ∧ s.dev.arm.commitStage ≠ 4 ∧ s.dev.cwq.sqs = []
    let applied := fun (b : BlockReset) (forced : Bool) (t : State) =>
      t.dev.rst.blocks = [{ b with held := true, forced := forced }] ∧ t.dev.g Reg.RST_BLOCK_LAST_SOURCE = b.source % 32 ∧
      t.dev.g Reg.RST_BLOCK_LAST_LEVEL = b.level % 8 ∧ t.dev.g Reg.RST_BLOCK_LAST_TARGET = b.target % 256 ∧
      t.dev.g Reg.RST_BLOCK_LAST_FORCED = (if forced then 1 else 0) ∧
      t.dev.g Reg.RST_BLOCK_COUNTS_RESETS = min (s.dev.g Reg.RST_BLOCK_COUNTS_RESETS + 1) 65535 ∧
      t.dev.g Reg.RST_BLOCK_COUNTS_FORCED = (if forced then min (s.dev.g Reg.RST_BLOCK_COUNTS_FORCED + 1) 255 else s.dev.g Reg.RST_BLOCK_COUNTS_FORCED)
    (s.dev.rst.reach ≠ 0 → s.dev.rst.step = 0 → s.dev.rst.stretch = true → Runs .sysRstStretchExpiry s stretched) ∧
    (s.dev.rst.reach = 0 ∨ s.dev.rst.step ≠ 0 ∨ s.dev.rst.stretch = false → Runs .sysRstStretchExpiry s s.silent) ∧
    (∀ failed linkA linkB bkp,
      let c := Instr.packageResetExit failed linkA linkB bkp
      (s.dev.rst.reach = 0 ∨ s.dev.rst.pendingCold = true ∨ s.dev.on Reg.VLT_STATUS_DUMPING = true → Runs c s s.silent) ∧
      (s.dev.rst.step = 0 → s.dev.rst.stretch = true ∨ s.dev.holding = true → Runs c s s.silent) ∧
      (s.dev.rst.pendingCold = false → s.dev.on Reg.VLT_STATUS_DUMPING = false →
        (s.dev.rst.reach = 5 → s.dev.rst.step = 0 → s.dev.rst.stretch = false → s.dev.holding = false → Runs c s fun t =>
          t.dev.rst.step = 2 ∧ t.dev.rst.reach = 5 ∧ t.dev.rst.loading = true ∧ t.dev.now = 0 ∧ t.dev.rst.pinLow = false ∧
          t.dev.rst.bkpClock = bkp ∧ t.dev.vlt.margin = (if bkp then s.dev.vlt.margin else none) ∧
          (∀ x ∈ t.dev.rst.active, pulseSource x = false) ∧ t.dev.regs = s.dev.regs) ∧
        (s.dev.rst.reach = 4 → s.dev.rst.step = 0 → s.dev.rst.stretch = false → s.dev.holding = false → Runs c s fun t =>
          out t ∧ t.dev.rst.pinLow = false ∧ t.dev.g Reg.VLT_STATUS_SOURCE = 2) ∧
        (s.dev.rst.reach = 5 → s.dev.rst.step = 3 → s.dev.ops = [] → Runs c s fun t =>
          out t ∧ ∀ u ∈ failed, u < 256 → u ∈ t.dev.fab.retired))) ∧
    (∀ okA okB,
      let a := okA && goodCopy s.dev.vlt.optA
      let b := okB && goodCopy s.dev.vlt.optB
      let copy := if useB a b then s.dev.vlt.optB else s.dev.vlt.optA
      (s.dev.rst.loading = false → Runs (.optionLoadDone okA okB) s s.silent) ∧
      (s.dev.rst.loading = true → a = false → b = false → Runs (.optionLoadDone okA okB) s fun t =>
        t.dev.opt = optDefaults (s.dev.g Reg.GCS_SERIAL_SERIAL) ∧ t.dev.g Reg.RST_STATUS_OPTIONS_DEFAULTED = 1 ∧ t.dev.g Reg.RST_STATUS_OPT_VALID = 1 ∧
        t.dev.g Reg.RST_STATUS_COPY_A_BAD = 1 ∧ t.dev.g Reg.RST_STATUS_COPY_B_BAD = 1 ∧ t.dev.rst.loading = false) ∧
      (s.dev.rst.loading = true → (a || b) = true → (optsOf copy (s.dev.g Reg.GCS_SERIAL_SERIAL)).flags.testBit 2 = false →
        Runs (.optionLoadDone okA okB) s fun t =>
          t.dev.opt = optsOf copy (s.dev.g Reg.GCS_SERIAL_SERIAL) ∧ t.dev.g Reg.RST_STATUS_OPT_VALID = 1 ∧ t.dev.rst.loading = false ∧
          t.dev.g Reg.RST_STATUS_COPY_USED = (if useB a b then 1 else 0) ∧ t.dev.g Reg.RST_STATUS_COPY_A_BAD = (if a then 0 else 1) ∧
          t.dev.g Reg.RST_STATUS_COPY_B_BAD = (if b then 0 else 1) ∧ t.dev.g Reg.RST_OPT_SEQ_SEQ = leAt copy 8 8)) ∧
    (∀ req level target, s.dev.commands req →
      (3 < level → Runs (.blockResetCmd req level target) s s.silent) ∧
      (level ≤ 3 → s.dev.blockRefused level target = true → Runs (.blockResetCmd req level target) s fun t =>
        t.dev.g Reg.RST_STATUS_CMD_REFUSED = 1 ∧ s.onlyRegs t [Reg.RST_STATUS_CMD_REFUSED.base]) ∧
      (level ≤ 3 → s.dev.blockRefused level target = false → s.dev.rst.reach = 0 → s.dev.rst.blocks = [] →
        Runs (.blockResetCmd req level target) s fun t =>
          t.dev.rst.blocks = [⟨18, level, target, false, false, []⟩] ∧ (∀ x, x ∈ t.dev.fab.inReset ↔ x ∈ blockClusters level target) ∧
          t.dev.regs = s.dev.regs ∧ t.dev.emitted = [])) ∧
    (∀ level target, s.dev.blockAt level target = none →
      Runs (.blockIdleReached level target) s s.silent ∧ Runs (.blockIdleTimeout level target) s s.silent ∧
      ∀ trained, quiet → Runs (.blockResetExit level target trained) s s.silent) ∧
    (∀ b : BlockReset, s.dev.rst.blocks = [b] →
      (b.held = false → s.dev.ops = [] → s.dev.cwq = Cwq.blank →
        (s.dev.blockIdle b = true → Runs (.blockIdleReached b.level b.target) s (applied b false)) ∧
        Runs (.blockIdleTimeout b.level b.target) s (applied b true)) ∧
      (b.held = true ∨ s.dev.blockIdle b = false → Runs (.blockIdleReached b.level b.target) s s.silent) ∧
      (b.held = true → Runs (.blockIdleTimeout b.level b.target) s s.silent) ∧
      (b.held = false → quiet → ∀ trained, Runs (.blockResetExit b.level b.target trained) s s.silent) ∧
      (b.held = true → b.level ≠ 3 → ∀ trained, Runs (.blockResetExit b.level b.target trained) s fun t =>
        t.dev.rst.blocks = [] ∧ t.dev.fab.inReset = [] ∧ (quiet → t.dev.regs = s.dev.regs)) ∧
      (b.held = true → b.level = 3 → ∀ trained,
        let n := s.dev.fab.trainFails.getD b.target 0 + 1
        (s.dev.fab.pll.getD b.target false = false → quiet → Runs (.blockResetExit 3 b.target trained) s s.silent) ∧
        (s.dev.fab.pll.getD b.target false = true → b.target < s.dev.fab.trainFails.length →
          (trained = true → Runs (.blockResetExit 3 b.target trained) s fun t =>
            t.dev.rst.blocks = [] ∧ t.dev.fab.inReset = [] ∧ t.dev.fab.trainFails.getD b.target 0 = 0) ∧
          (trained = false → 3 ≤ n → s.dev.ops = [] → Runs (.blockResetExit 3 b.target trained) s fun t =>
            t.dev.rst.blocks = [] ∧ b.target ∈ t.dev.fab.offline) ∧
          (trained = false → n < 3 → s.dev.rst.reach = 0 → s.dev.reachOf 20 = 3 → Runs (.blockResetExit 3 b.target trained) s fun t =>
            t.dev.rst.blocks = [⟨20, 3, b.target, false, false, []⟩] ∧ t.dev.fab.trainFails.getD b.target 0 = n)))) ∧
    (∀ die,
      (1 < die → Runs (.diePllLockLoss die) s s.silent) ∧
      (die ≤ 1 → s.dev.rst.reach = 0 → s.dev.rst.blocks = [] → s.dev.reachOf 19 = 3 → Runs (.diePllLockLoss die) s fun t =>
        t.dev.rst.blocks = [⟨19, 3, die, false, false, []⟩] ∧ t.dev.fab.pll.getD die false = false ∧ t.dev.regs = s.dev.regs))

/-! ### Sensors, throttling, the power cap and the voltage of the codec dies -/

/-- Thermal and rail rounds, VBAT, the power cap, voltage requests, and their clears. For every state: a thermal round below 115 °C records the
readings, moves the base level by the hottest one, puts the level in force at base plus extra and at most 3, reports the hottest sensor, and
sets each sensor's alarm bit by its thresholds; source 6 ends at or below 100 °C, and the voltage request rises to what the dies need while
a region is powered. At 115 °C or above, with no reset held, source 6 becomes active and begins its reset, or seals a live journal first
where that is COLD; one that is active already changes no reset. Time at a level is counted. A rail round sets each monitor's alarm bit, and
source 7 ends when no rail is below its range. VBAT's alarm is entered and left with one record each. A 10 ms average is reported and kept
as a peak; above the cap the extra level starts and is counted, and after ten averages at or below 95 % of it the level ends. An
unacknowledged voltage request asks for 800 mV once and sets AVS_ERR; the lowering timer asks for what the dies need when that is less, and
the request before bounds the rail monitor for 100 µs after. CLR_COUNTS clears the throttle counters, the time and the peak; CLR_PEAK makes
every peak the current reading. How the throttle time's microseconds are kept is the model's form (log entry 63). Basis: derived,
17_clocks_and_power_domains.md, 18_management_subsystem.md, 16_reset_and_options.md, 20_electrical_and_package.md. -/
def Obligations.SensorsThrottleAndVoltage : Prop :=
  ∀ s : State,
    let thr := 8 * (s.dev.gClamp Reg.CPM_THERM_THR_C 80 100 : Int)
    let base := fun (vs : List Int) => nextLevel s.dev.mgmt.base thr (hottestOf vs).1
    let record := fun (t : State) (kind i entry : Nat) (mv : Nat) =>
      s.dev.log.tail.length < 4095 → t.logged 0x1303 (leBytes 1 kind ++ leBytes 1 i ++ leBytes 1 entry ++ leBytes 2 mv)
    let before := fun (mv : Nat) => if mv < s.dev.g Reg.CPM_VCD_MV then some (s.dev.g Reg.CPM_VCD_MV, s.dev.now + 100) else none
    let cap := 1000 * s.dev.gClamp Reg.CPM_PCAP_WATTS 30 142
    let power := fun (mw : Nat) (t : State) =>
      t.dev.g Reg.CPM_POWER_POWER_MW = min mw 262143 ∧ t.dev.g Reg.CPM_POWER_POWER_PEAK = min (max (s.dev.g Reg.CPM_POWER_POWER_PEAK) (mw / 16)) 16383
    (∀ vs : List Int,
      ((∀ v ∈ vs, v < 920) → Runs (.thermalSample vs) s fun t =>
        t.dev.mgmt.therm = vs ∧ t.dev.mgmt.base = base vs ∧ t.dev.g Reg.CPM_STATUS_LEVEL = min 3 (base vs + (if s.dev.mgmt.extra then 1 else 0)) ∧
        t.dev.g Reg.CPM_THERM_HOT_ID = (hottestOf vs).2 % 32 ∧ t.dev.g Reg.CPM_THERM_HOT_C = min 255 (max 0 ((hottestOf vs).1 / 8)).toNat ∧
        (∀ i v, vs[i]? = some v → i < 32 → (t.dev.g Reg.SNS_TALARM_ALARM).testBit i = s.dev.thermAlarm i v) ∧
        (s.dev.g Reg.CPM_STATUS_LEVEL ≠ 0 → t.dev.mgmt.oddUs = (s.dev.mgmt.oddUs + 100) % 1000 ∧
          t.dev.g Reg.CPM_THROTTLE_MS_MS = (s.dev.g Reg.CPM_THROTTLE_MS_MS + (s.dev.mgmt.oddUs + 100) / 1000) % 2 ^ 64) ∧
        (s.dev.g Reg.CPM_STATUS_LEVEL = 0 → t.dev.g Reg.CPM_THROTTLE_MS_MS = s.dev.g Reg.CPM_THROTTLE_MS_MS) ∧
        (let need := Dev.vcdNeed { s.dev with mgmt := { s.dev.mgmt with therm := vs } }
         (∃ x ∈ s.dev.fab.regions, x.power ≠ .off) → s.dev.mgmt.avsStop = false → s.dev.g Reg.CPM_VCD_MV < need →
           t.dev.g Reg.CPM_VCD_MV = need ∧ Emit.avs need ∈ t.dev.emitted) ∧
        ((∀ v ∈ vs, v ≤ 800) → t.dev.rst.active = s.dev.rst.active.filter (· ≠ 6)) ∧ (¬ (∀ v ∈ vs, v ≤ 800) → t.dev.rst = s.dev.rst)) ∧
      (¬ (∀ v ∈ vs, v < 920) → s.dev.rst.reach = 0 → s.dev.rst.pendingCold = false → 6 ∉ s.dev.rst.active →
        (s.dev.reachOf 6 = 4 ∨ s.dev.rst.journalLive = false → Runs (.thermalSample vs) s fun t =>
          t.dev.rst.reach = s.dev.reachOf 6 ∧ 6 ∈ t.dev.rst.active ∧ t.dev.rst.pinLow = true) ∧
        (s.dev.reachOf 6 = 5 → s.dev.rst.journalLive = true → Runs (.thermalSample vs) s fun t =>
          t.dev.rst.pendingCold = true ∧ 6 ∈ t.dev.rst.active ∧ t.dev.jnl.sealed = true ∧ t.dev.g Reg.VLT_STATUS_DUMPING = 1)) ∧
      (¬ (∀ v ∈ vs, v < 920) → 6 ∈ s.dev.rst.active → Runs (.thermalSample vs) s fun t => t.dev.mgmt.therm = vs ∧ t.dev.rst = s.dev.rst)) ∧
    (∀ vs : List Nat, Runs (.railSample vs) s fun t =>
      t.dev.mgmt.rails = vs ∧ (∀ i v, vs[i]? = some v → i < 32 → (t.dev.g Reg.SNS_RALARM_ALARM).testBit i = s.dev.railAlarm i v) ∧
      ((∀ i v, vs[i]? = some v → (s.dev.railRange i).1 ≤ v * 100) → t.dev.rst.active = s.dev.rst.active.filter (· ≠ 7)) ∧
      (∀ i v, vs[i]? = some v → v * 100 < (s.dev.railRange i).1 → t.dev.rst = s.dev.rst)) ∧
    (∀ mv, mv < 65536 →
      ((s.dev.g Reg.SNS_RALARM_ALARM).testBit 12 = false →
        (Runs (.vbatLow mv) s fun t => (t.dev.g Reg.SNS_RALARM_ALARM).testBit 12 = true ∧ record t 1 12 1 mv) ∧ Runs (.vbatRestored mv) s s.silent) ∧
      ((s.dev.g Reg.SNS_RALARM_ALARM).testBit 12 = true →
        (Runs (.vbatRestored mv) s fun t => (t.dev.g Reg.SNS_RALARM_ALARM).testBit 12 = false ∧ record t 1 12 0 mv) ∧ Runs (.vbatLow mv) s s.silent)) ∧
    (∀ mw,
      (cap < mw → cap ≠ 142000 → Runs (.powerCapAverage mw) s fun t =>
        power mw t ∧ t.dev.mgmt.extra = true ∧ t.dev.mgmt.lowRuns = 0 ∧ t.dev.g Reg.CPM_STATUS_PCAP_ACTIVE = 1 ∧
        t.dev.g Reg.CPM_STATUS_LEVEL = min 3 (s.dev.mgmt.base + 1) ∧
        t.dev.g Reg.CPM_COUNTS_PCAP = (if s.dev.mgmt.extra then s.dev.g Reg.CPM_COUNTS_PCAP else min (s.dev.g Reg.CPM_COUNTS_PCAP + 1) 255)) ∧
      (mw * 100 ≤ cap * 95 → Runs (.powerCapAverage mw) s fun t =>
        power mw t ∧ t.dev.mgmt.lowRuns = s.dev.mgmt.lowRuns + 1 ∧
        (9 ≤ s.dev.mgmt.lowRuns → t.dev.mgmt.extra = false ∧ t.dev.g Reg.CPM_STATUS_PCAP_ACTIVE = 0 ∧ t.dev.g Reg.CPM_STATUS_LEVEL = min 3 s.dev.mgmt.base) ∧
        (s.dev.mgmt.lowRuns < 9 → t.dev.mgmt.extra = s.dev.mgmt.extra ∧ s.dev.regsKept t.dev [Reg.CPM_POWER_POWER_MW.base])) ∧
      (cap * 95 < mw * 100 → mw ≤ cap ∨ cap = 142000 → Runs (.powerCapAverage mw) s fun t =>
        power mw t ∧ t.dev.mgmt = { s.dev.mgmt with lowRuns := 0 } ∧ s.dev.regsKept t.dev [Reg.CPM_POWER_POWER_MW.base])) ∧
    (s.dev.mgmt.avsStop = false →
      (Runs .avsTimeout s fun t => t.dev.g Reg.CPM_VCD_MV = 800 ∧ t.dev.g Reg.CPM_STATUS_AVS_ERR = 1 ∧ t.dev.emitted = [.avs 800] ∧
        t.dev.mgmt = { s.dev.mgmt with avsStop := true, vcdOld := before 800 } ∧ s.dev.regsKept t.dev [Reg.CPM_VCD_MV.base, Reg.CPM_STATUS_AVS_ERR.base]) ∧
      (s.dev.vcdNeed < s.dev.g Reg.CPM_VCD_MV → Runs .vcdLowerTimer s fun t =>
        t.dev.g Reg.CPM_VCD_MV = s.dev.vcdNeed ∧ t.dev.emitted = [.avs s.dev.vcdNeed] ∧ s.dev.regsKept t.dev [Reg.CPM_VCD_MV.base] ∧
        t.dev.mgmt = { s.dev.mgmt with vcdOld := some (s.dev.g Reg.CPM_VCD_MV, s.dev.now + 100) } ∧ s.memKept t)) ∧
    (s.dev.mgmt.avsStop = true → Runs .avsTimeout s s.silent ∧ Runs .vcdLowerTimer s s.silent) ∧
    (s.dev.g Reg.CPM_VCD_MV ≤ s.dev.vcdNeed → Runs .vcdLowerTimer s s.silent) ∧
    (∀ req, s.dev.commands req →
      (Runs (.cpmClrCounts req) s fun t =>
        t.dev.g Reg.CPM_COUNTS_ENTRIES = 0 ∧ t.dev.g Reg.CPM_COUNTS_LEVEL3 = 0 ∧ t.dev.g Reg.CPM_COUNTS_PCAP = 0 ∧
        t.dev.mgmt.oddUs = 0 ∧ t.dev.g Reg.CPM_THROTTLE_MS_MS = 0 ∧ t.dev.g Reg.CPM_POWER_POWER_PEAK = 0 ∧ t.dev.g Reg.CPM_POWER_POWER_MW = s.dev.g Reg.CPM_POWER_POWER_MW ∧
        s.dev.regsKept t.dev [Reg.CPM_COUNTS_ENTRIES.base, Reg.CPM_THROTTLE_MS_MS.base, Reg.CPM_POWER_POWER_PEAK.base]) ∧
      (Runs (.snsClrPeak req) s fun t =>
        t = s.withDev [] fun d => { d with mgmt := { d.mgmt with thermPeak := d.mgmt.therm, railLow := d.mgmt.rails } }))

/-! ### The management core -/

/-- Mailbox commands end with a status, a result and an output, and act only while they run. For every state in which the mailbox runs the
command named: NOP ends with success; GET_INFO ends with 64 bytes that tell the running image, the slots and the fuses; OPT_READ ends with
the 4,096 bytes of the loaded block or of a copy, and refuses any other argument; OPT_WRITE refuses a wrong length, refuses a block that
fails a check with the offset of the field, and otherwise writes a good copy, with a sequence number 1 above the loaded one, to the copy
that the last load did not take, leaving the other alone, or ends with a vault error; LOG_READ ends with up to 64 records from the sequence
asked for; FW_SELECT sets the boot slot, in the vault's directory too, to an admissible valid slot, refuses any other, refuses PLDM's
target, and waits while an activation runs. With another command or none running, each changes nothing. I3C_MODE_ENTRY enters I3C mode
unless COLD is held. Bytes of a copy that was never written are free values (log entry 2). Basis: derived, 18_management_subsystem.md,
16_reset_and_options.md. -/
def Obligations.MailboxCommandsEnd : Prop :=
  ∀ s : State,
    let runs := fun (op : Nat) => s.dev.on Reg.MBX_STATUS_BUSY = true ∧ s.dev.g Reg.MBX_CMD_OPCODE = op
    let ended := fun (t : State) (status result len : Nat) =>
      t.dev.on Reg.MBX_STATUS_BUSY = false ∧ t.dev.on Reg.MBX_STATUS_DONE = true ∧ t.dev.g Reg.MBX_STATUS_STATUS = status ∧
      t.dev.g Reg.MBX_STATUS_OUT_LEN = len ∧ t.dev.g Reg.MBX_RESULT_VALUE = result
    let refused := fun (t : State) (status result : Nat) =>
      ended t status result 0 ∧ s.dev.regsKept t.dev [Reg.MBX_STATUS_BUSY.base, Reg.MBX_RESULT_VALUE.base] ∧ t.dev.mgmt = s.dev.mgmt ∧
      t.dev.vlt = s.dev.vlt
    let gives := fun (t : State) (bytes : List Byte) =>
      t.dev.g Reg.MBX_STATUS_OUT_LEN = bytes.length ∧ ∀ i, 4 * i < bytes.length → t.dev.gi Reg.MBX_BUF_DATA i = leAt bytes (4 * i) 4
    let n := s.dev.g Reg.MBX_ARG_VALUE
    (runs 0 → Runs .mbxNop s fun t => refused t 0 0) ∧
    (runs 1 → Runs .mbxGetInfo s fun t => ended t 0 0 64 ∧ gives t s.dev.fwInfo ∧ t.dev.mgmt = s.dev.mgmt) ∧
    (runs 2 →
      (∀ copy : List Byte, copy.length ≤ 4096 → n = 0 ∧ copy = s.dev.opt.block ∨ n = 1 ∧ copy = s.dev.vlt.optA ∨ n = 2 ∧ copy = s.dev.vlt.optB →
        Runs .mbxOptRead s fun t => ended t 0 0 4096 ∧ gives t (s.dev.copyBytes copy)) ∧
      (2 < n → Runs .mbxOptRead s fun t => refused t 2 0)) ∧
    (runs 3 → ∀ vaultOk,
      let b := s.dev.mbxIn 4096
      let toB := !s.dev.on Reg.RST_STATUS_OPTIONS_DEFAULTED && !s.dev.on Reg.RST_STATUS_COPY_USED
      let seq := (s.dev.g Reg.RST_OPT_SEQ_SEQ + 1) % 2 ^ 64
      (s.dev.g Reg.MBX_CMD_LEN ≠ 4096 → Runs (.mbxOptWrite vaultOk) s fun t => refused t 2 0) ∧
      (∀ off, s.dev.g Reg.MBX_CMD_LEN = 4096 → optCheck b = some off → Runs (.mbxOptWrite vaultOk) s fun t => refused t 2 off) ∧
      (s.dev.g Reg.MBX_CMD_LEN = 4096 → optCheck b = none → Runs (.mbxOptWrite vaultOk) s fun t =>
        let written := if toB then t.dev.vlt.optB else t.dev.vlt.optA
        (if toB then t.dev.vlt.optA = s.dev.vlt.optA else t.dev.vlt.optB = s.dev.vlt.optB) ∧
        (vaultOk = true → ended t 0 seq 0 ∧ goodCopy written = true ∧ leAt written 8 8 = seq ∧ written.take 8 = b.take 8 ∧
          (written.drop 16).take 4076 = (b.drop 16).take 4076) ∧
        (vaultOk = false → ended t 4 0 0 ∧ goodCopy written = false))) ∧
    (runs 4 → Runs .mbxLogRead s fun t =>
      let rs := ((s.dev.log.ring ++ s.dev.log.tail).filter fun r => decide (n ≤ r.seq)).take 64
      ended t 0 rs.length (64 * rs.length) ∧ gives t (rs.flatMap LogRec.bytes) ∧ t.dev.log = s.dev.log) ∧
    (runs 5 →
      (s.dev.mgmt.act ≠ none → Runs .mbxFwSelect s s.silent) ∧
      (s.dev.mgmt.act = none →
        (n = 0 ∨ 3 < n → Runs .mbxFwSelect s fun t => refused t 2 0) ∧
        (1 ≤ n → n ≤ 3 →
          (∀ u, s.dev.mgmt.pldm = some u → u.slot = n → Runs .mbxFwSelect s fun t => refused t 3 0) ∧
          ((∀ u, s.dev.mgmt.pldm = some u → u.slot ≠ n) →
            Runs .mbxFwSelect s fun t =>
              if (s.dev.fw n).st = 1 ∧ s.dev.admissible (s.dev.fw n).image = true then
                ended t 0 0 0 ∧ t.dev.mgmt = { s.dev.mgmt with boot := n } ∧ Emit.vault "directory" n ∈ t.dev.emitted ∧
                s.dev.regsKept t.dev [Reg.MBX_STATUS_BUSY.base, Reg.MBX_RESULT_VALUE.base]
              else refused t 2 0)))) ∧
    (¬ runs 0 → Runs .mbxNop s s.silent) ∧ (¬ runs 1 → Runs .mbxGetInfo s s.silent) ∧ (¬ runs 2 → Runs .mbxOptRead s s.silent) ∧
    (∀ ok, ¬ runs 3 → Runs (.mbxOptWrite ok) s s.silent) ∧ (¬ runs 4 → Runs .mbxLogRead s s.silent) ∧ (¬ runs 5 → Runs .mbxFwSelect s s.silent) ∧
    (s.dev.rst.reach = 5 → Runs .i3cModeEntry s s.silent) ∧
    (s.dev.rst.reach ≠ 5 → Runs .i3cModeEntry s fun t => t = s.withDev [] fun d => { d with mgmt := { d.mgmt with i3c := true } })

/-- PLDM updates, MCTP control and the NVMe-MI endpoint. For every state in which the core, or for PLDM and MCTP the boot ROM, answers:
RequestUpdate fixes a target slot and is refused during an activation, with a Firmware Commit waiting, in an update or for a wrong size;
each piece of firmware data leaves the target bad until the last one, which leaves it valid when the image is admissible, reports the
result, and in recovery mode raises source 11; ActivateFirmware of a complete valid image sets the boot slot, in the vault's directory too,
and activates it at once when asked, and is refused otherwise. SetTID, GetTID, GetPLDMTypes, versions and commands, and the MCTP control
commands are answered; the endpoint ID set is the one returned. NVMe-MI: structures, health and VPD are given as named values, Configuration
Get returns what Configuration Set set or the default, VPD Write is an invalid parameter, Reset clears the configuration only, the served
tunnelled commands complete, a tunnelled commit of action 2 readies its slot, and another opcode is invalid. With nothing to answer them,
all change nothing. Codes and configuration identifiers are those of the published standards (log entry 57). Basis: derived,
18_management_subsystem.md. -/
def Obligations.ManagementBusAnswers : Prop :=
  ∀ s : State,
    let sends := fun (c : Instr) (e : Emit) => exec c s = .next (s.withDev [e] id)
    let tells := fun (c : Instr) => Runs c s fun t =>
      (∃ what items, t.dev.emitted = [.info s.dev.primaryB tunnelCid what items, .mgmt 0x04 0 []]) ∧ t.dev.regs = s.dev.regs ∧ s.memKept t
    let pldmOrMctp : List Instr := [.pldmRequestUpdate 4096, .pldmActivateFirmware true, .pldmBaseDiscovery 2 0, .setEndpointId 8, .getEndpointId,
      .getMctpVersionSupport 0xFF, .getMessageTypeSupport, .getEndpointUuid]
    let mi : List Instr := [.readNvmeMiDataStructure 0 0, .subsystemHealthStatusPoll true, .controllerHealthStatusPoll 0, .configurationSet 1 1,
      .configurationGet 1, .vpdRead 0 1, .vpdWrite, .miReset, .miTunnelledAdmin 0 (.other 0)]
    (s.dev.mgmtUp = false → ∀ c ∈ pldmOrMctp, Runs c s s.silent) ∧
    (s.dev.on Reg.MBX_STATUS_CORE_UP = false → ∀ c ∈ mi, Runs c s s.silent) ∧
    (∀ bytes, s.dev.mgmt.pldm = none → Runs (.pldmFirmwareData bytes) s s.silent) ∧
    (s.dev.mgmtUp = true →
      (∀ size,
        (s.dev.mgmt.act ≠ none ∨ s.dev.mgmt.waiting ≠ [] → sends (.pldmRequestUpdate size) (.mgmt 0x01 0x8E [])) ∧
        (s.dev.mgmt.act = none → s.dev.mgmt.waiting = [] → s.dev.mgmt.pldm ≠ none → sends (.pldmRequestUpdate size) (.mgmt 0x01 0x81 [])) ∧
        (s.dev.mgmt.act = none → s.dev.mgmt.waiting = [] → s.dev.mgmt.pldm = none → size < 4096 ∨ 0x10000000 < size →
          sends (.pldmRequestUpdate size) (.mgmt 0x01 0x02 [])) ∧
        (s.dev.mgmt.act = none → s.dev.mgmt.waiting = [] → s.dev.mgmt.pldm = none → 4096 ≤ size → size ≤ 0x10000000 →
          exec (.pldmRequestUpdate size) s = .next (s.withDev [.mgmt 0x01 0 []] fun d =>
            { d with mgmt := { d.mgmt with pldm := some (Pldm.mk s.dev.updateSlot [] size) } }))) ∧
      (∀ u bytes, s.dev.mgmt.pldm = some u → bytes ≠ [] → u.data.length < u.size → 1 ≤ u.slot → u.slot ≤ s.dev.mgmt.slots.length →
        let data := u.data ++ (bytes.take 4096).take (u.size - u.data.length)
        (data.length < u.size → Runs (.pldmFirmwareData bytes) s fun t =>
          (t.dev.fw u.slot).st = 2 ∧ (t.dev.fw u.slot).image = data ∧ t.dev.mgmt.pldm = some { u with data := data } ∧
          t.dev.emitted = [.vault "firmware slot" u.slot] ∧ t.dev.regs = s.dev.regs) ∧
        (data.length = u.size → s.dev.on Reg.MBX_STATUS_RECOVERY = false → Runs (.pldmFirmwareData bytes) s fun t =>
          let r := if s.dev.admissible data then 0 else 1
          t.dev.fw u.slot = ⟨r + 1, data, s.dev.mgmt.stamp + 1⟩ ∧ t.dev.rst = s.dev.rst ∧
          t.dev.emitted = [.vault "firmware slot" u.slot, .mgmt 0x01 0x18 [BitVec.ofNat 8 r]]) ∧
        (data.length = u.size → s.dev.on Reg.MBX_STATUS_RECOVERY = true → Runs (.pldmFirmwareData bytes) s fun t =>
          if s.dev.admissible data then 11 ∈ t.dev.rst.active
          else t.dev.fw u.slot = ⟨2, data, s.dev.mgmt.stamp + 1⟩ ∧ t.dev.rst = s.dev.rst)) ∧
      (∀ now,
        (s.dev.mgmt.pldm = none → sends (.pldmActivateFirmware now) (.mgmt 0x01 0x80 [])) ∧
        (∀ u, s.dev.mgmt.pldm = some u →
          (u.data.length < u.size ∨ (s.dev.fw u.slot).st ≠ 1 → sends (.pldmActivateFirmware now) (.mgmt 0x01 0x85 [])) ∧
          (u.size ≤ u.data.length → (s.dev.fw u.slot).st = 1 → exec (.pldmActivateFirmware now) s = .next (s.withDev [.vault "directory" u.slot, .mgmt 0x01 0 []] fun d =>
            { d with mgmt := { d.mgmt with pldm := none, boot := u.slot,
                                           act := if now && d.mgmt.act.isNone then some (FwAct.mk u.slot none) else d.mgmt.act } })))) ∧
      (∀ arg,
        (1 ≤ arg → arg < 255 → exec (.pldmBaseDiscovery 1 arg) s = .next (s.withDev [.mgmt 0x01 0 []] fun d => { d with mgmt := { d.mgmt with tid := arg } })) ∧
        sends (.pldmBaseDiscovery 2 arg) (.mgmt 0x01 0 (leBytes 1 s.dev.mgmt.tid)) ∧ sends (.pldmBaseDiscovery 4 arg) (.mgmt 0x01 0 (leBytes 8 0x21)) ∧
        (arg = 0 ∨ arg = 5 → ∃ v w, sends (.pldmBaseDiscovery 3 arg) (.mgmt 0x01 0 (leBytes 4 v)) ∧
          sends (.pldmBaseDiscovery 5 arg) (.mgmt 0x01 0 (leBytes 32 w))) ∧
        (∀ cmd, 5 < cmd → sends (.pldmBaseDiscovery cmd arg) (.mgmt 0x01 5 []))) ∧
      (∀ eid,
        (1 ≤ eid → eid < 255 → exec (.setEndpointId eid) s =
          .next (s.withDev [.mgmt 0x00 0 (leBytes 1 eid)] fun d => { d with mgmt := { d.mgmt with eid := eid } })) ∧
        (eid = 0 ∨ 255 ≤ eid → sends (.setEndpointId eid) (.mgmt 0x00 2 []))) ∧
      sends .getEndpointId (.mgmt 0x00 0 (leBytes 1 s.dev.mgmt.eid)) ∧
      (∀ typ, typ ∈ s.dev.msgTypes ∨ typ = 0xFF → ∃ v, sends (.getMctpVersionSupport typ) (.mgmt 0x00 0 (leBytes 4 v))) ∧
      (∀ typ, typ ∉ s.dev.msgTypes → typ ≠ 0xFF → sends (.getMctpVersionSupport typ) (.mgmt 0x00 0x80 [])) ∧
      (s.dev.on Reg.MBX_STATUS_CORE_UP = true → sends .getMessageTypeSupport (.mgmt 0x00 0 [3, 0, 1, 4])) ∧
      (s.dev.on Reg.MBX_STATUS_CORE_UP = false → sends .getMessageTypeSupport (.mgmt 0x00 0 [2, 0, 1])) ∧
      sends .getEndpointUuid (.mgmt 0x00 0 Config.endpointUuid)) ∧
    (s.dev.on Reg.MBX_STATUS_CORE_UP = true →
      (∀ typ cntid,
        (typ ≤ 4 → typ ≠ 3 ∨ cntid ∈ s.dev.cntlids → tells (.readNvmeMiDataStructure typ cntid)) ∧
        (4 < typ ∨ typ = 3 ∧ cntid ∉ s.dev.cntlids → sends (.readNvmeMiDataStructure typ cntid) (.mgmt 0x04 4 []))) ∧
      (∀ clear, tells (.subsystemHealthStatusPoll clear)) ∧ (∀ first, tells (.controllerHealthStatusPoll first)) ∧
      (∀ off len, tells (.vpdRead off len)) ∧ sends .vpdWrite (.mgmt 0x04 4 []) ∧
      (∀ id v, miConfigOk id v = true → Runs (.configurationSet id v) s fun t =>
        AMap.get t.dev.mgmt.config id = some v ∧ (∀ x, x ≠ id → AMap.get t.dev.mgmt.config x = AMap.get s.dev.mgmt.config x) ∧
        t.dev.emitted = [.mgmt 0x04 0 []] ∧ t.dev.regs = s.dev.regs) ∧
      (∀ id v, miConfigOk id v = false → sends (.configurationSet id v) (.mgmt 0x04 4 [])) ∧
      (∀ id v, 1 ≤ id → id ≤ 3 → AMap.get s.dev.mgmt.config id = some v → sends (.configurationGet id) (.mgmt 0x04 0 (leBytes 4 v))) ∧
      (∀ id, 1 ≤ id → id ≤ 3 → AMap.get s.dev.mgmt.config id = none →
        sends (.configurationGet id) (.mgmt 0x04 0 (leBytes 4 (if id = 1 then 1 else if id = 3 then 64 else 0)))) ∧
      (∀ id, id = 0 ∨ 3 < id → sends (.configurationGet id) (.mgmt 0x04 4 [])) ∧
      exec .miReset s = .next (s.withDev [.mgmt 0x04 0 []] fun d => { d with mgmt := { d.mgmt with config := [] } }) ∧
      (∀ tag,
        let answered := fun (c : TunnelCmd) => Runs (.miTunnelledAdmin tag c) s fun t =>
          ∃ st dw0, t.answers s.dev.primaryB 0 (tunnelCid + tag) st dw0 ∧ t.dev.regs = s.dev.regs ∧ s.memKept t
        (∀ op, sends (.miTunnelledAdmin tag (.other op)) (.mgmt 0x04 3 [])) ∧
        (∀ cns nsid cntid, answered (.identify cns nsid cntid)) ∧ (∀ lid nsid off len rae, answered (.getLogPage lid nsid off len rae)) ∧
        (∀ fid nsid x sel, answered (.getFeatures fid nsid x sel)) ∧ (∀ off bytes, answered (.imageDownload off bytes)) ∧
        (∀ slot, 1 ≤ slot → slot ≤ 3 → s.dev.nvm.erases = [] → s.dev.mgmt.pldm = none → (s.dev.fw slot).st = 1 →
          Runs (.miTunnelledAdmin tag (.firmwareCommit slot 2)) s fun t =>
            if s.dev.admissible (s.dev.fw slot).image then
              t.dev.mgmt = { s.dev.mgmt with boot := slot, pending := some slot } ∧ Emit.vault "directory" slot ∈ t.dev.emitted ∧ t.answers s.dev.primaryB 0 (tunnelCid + tag) .success 0
            else t.dev.mgmt = s.dev.mgmt ∧
              t.answers s.dev.primaryB 0 (tunnelCid + tag) (Dev.imageStatus (s.dev.fw slot).image) 0)))
end

