-- ==== Sys2Proof/Laws/Cipher.lean ====
section
/-!
SUPPORT. Laws of byte strings and of the key wrap: bytes and numbers give each other back, and unwrapping undoes wrapping (R324).
-/
namespace Sys2Proof.Laws

@[simp] theorem leBytes_length (n v : Nat) : (leBytes n v).length = n := by
  induction n generalizing v with
  | zero => rfl
  | succ n ih => simp [leBytes, ih]

theorem leNat_lt (bs : List Byte) : leNat bs < 256 ^ bs.length := by
  induction bs with
  | nil => simp [leNat]
  | cons b bs ih =>
    have := b.isLt
    simp only [leNat, List.length_cons, Nat.pow_succ]
    omega

/-- A number's bytes spell it, as far as they reach. -/
@[simp] theorem leNat_leBytes (n v : Nat) : leNat (leBytes n v) = v % 256 ^ n := by
  induction n generalizing v with
  | zero => simp [leBytes, leNat, Nat.mod_one]
  | succ n ih =>
    simp only [leBytes, leNat, ih, BitVec.toNat_ofNat, Nat.pow_succ', Nat.mod_mul]
    omega

/-- The bytes of the number that bytes spell are those bytes. -/
@[simp] theorem leBytes_leNat (bs : List Byte) : leBytes bs.length (leNat bs) = bs := by
  induction bs with
  | nil => rfl
  | cons b bs ih =>
    have h1 : (b.toNat + 256 * leNat bs) / 256 = leNat bs := by have := b.isLt; omega
    have h2 : BitVec.ofNat 8 (b.toNat + 256 * leNat bs) = b := by
      apply BitVec.eq_of_toNat_eq
      have := b.isLt
      simp only [BitVec.toNat_ofNat]; omega
    simp only [leNat, List.length_cons, leBytes, h1, h2, ih]

theorem leBytes_leNat_of (n : Nat) (bs : List Byte) (h : bs.length = n) : leBytes n (leNat bs) = bs := h ▸ leBytes_leNat bs

@[simp] theorem xorBytes_length (a b : List Byte) : (xorBytes a b).length = min a.length b.length := by simp [xorBytes]

/-- Adding a byte string twice gives the first back. -/
theorem xorBytes_twice (a b : List Byte) (h : a.length ≤ b.length) : xorBytes (xorBytes a b) b = a := by
  induction a generalizing b with
  | nil => simp [xorBytes]
  | cons x xs ih =>
    cases b with
    | nil => simp at h
    | cons y ys =>
      simp only [xorBytes, List.zipWith_cons_cons, List.cons.injEq] at *
      exact ⟨by rw [BitVec.xor_assoc, BitVec.xor_self, BitVec.xor_zero], ih ys (by simpa using h)⟩

@[simp] theorem aesBytes_length (k : BitVec 256) (bs : List Byte) : (aesBytes k bs).length = 16 := by simp [aesBytes]

/-- Decryption of 16 bytes undoes encryption. -/
theorem aesInvBytes_aesBytes (k : BitVec 256) (bs : List Byte) (h : bs.length = 16) : aesInvBytes k (aesBytes k bs) = bs := by
  have e : leNat bs < 2 ^ 128 := by
    have := leNat_lt bs
    rwa [h, show (256 : Nat) ^ 16 = 2 ^ 128 by norm_num] at this
  have m : ∀ x : BitVec 128, BitVec.ofNat 128 (x.toNat % 256 ^ 16) = x := fun x => by
    rw [show (256 : Nat) ^ 16 = 2 ^ 128 by norm_num, Nat.mod_eq_of_lt x.isLt, BitVec.ofNat_toNat, BitVec.setWidth_eq]
  rw [aesInvBytes, aesBytes, leNat_leBytes, m, Equiv.symm_apply_apply, BitVec.toNat_ofNat, Nat.mod_eq_of_lt e, leBytes_leNat_of _ _ h]

/-- A register of AES-KW: eight bytes, and semiblocks of eight bytes. -/
def KwState (s : List Byte × List (List Byte)) : Prop := s.1.length = 8 ∧ s.2 ≠ [] ∧ ∀ r ∈ s.2, r.length = 8

theorem kwStep_state (k : BitVec 256) (s : List Byte × List (List Byte)) (t : Nat) (h : KwState s) : KwState (kwStep k s t) := by
  obtain ⟨a, _ | ⟨r, rs⟩⟩ := s
  · exact absurd rfl h.2.1
  · refine ⟨by simp [kwStep], by simp [kwStep], fun x hx => ?_⟩
    simp only [kwStep, List.mem_append, List.mem_singleton] at hx
    rcases hx with hx | rfl
    · exact h.2.2 x (List.mem_cons_of_mem _ hx)
    · simp

/-- A step of the unwrapping undoes that of the wrapping. -/
theorem kwBack_kwStep (k : BitVec 256) (s : List Byte × List (List Byte)) (t : Nat) (h : KwState s) : kwBack k (kwStep k s t) t = s := by
  obtain ⟨a, _ | ⟨r, rs⟩⟩ := s
  · exact absurd rfl h.2.1
  · have ha : a.length = 8 := h.1
    have hr : r.length = 8 := h.2.2 r (List.mem_cons_self ..)
    have hx : xorBytes (xorBytes ((aesBytes k (a ++ r)).take 8) (leBytes 8 t).reverse) (leBytes 8 t).reverse = (aesBytes k (a ++ r)).take 8 :=
      xorBytes_twice _ _ (by simp)
    have hb : aesInvBytes k (aesBytes k (a ++ r)) = a ++ r := aesInvBytes_aesBytes k _ (by simp [ha, hr])
    simp only [kwStep, kwBack, List.getLast?_append, List.getLast?_singleton, Option.some_or, List.dropLast_concat, hx, List.take_append_drop, hb]
    rw [← ha, List.take_left, List.drop_left]

/-- The unwrapping's steps in falling order undo those of the wrapping. -/
theorem kw_inverse (k : BitVec 256) (ts : List Nat) (s : List Byte × List (List Byte)) (h : KwState s) :
    ts.reverse.foldl (kwBack k) (ts.foldl (kwStep k) s) = s ∧ KwState (ts.foldl (kwStep k) s) := by
  induction ts generalizing s with
  | nil => exact ⟨rfl, h⟩
  | cons t ts ih =>
    obtain ⟨e, w⟩ := ih (kwStep k s t) (kwStep_state k s t h)
    refine ⟨?_, w⟩
    simp only [List.reverse_cons, List.foldl_append, List.foldl_cons, List.foldl_nil, e]
    exact kwBack_kwStep k s t h

/-- The wrapping's steps keep the number of semiblocks. -/
theorem kwStep_count (k : BitVec 256) (ts : List Nat) (s : List Byte × List (List Byte)) : (ts.foldl (kwStep k) s).2.length = s.2.length := by
  induction ts generalizing s with
  | nil => rfl
  | cons t ts ih =>
    rw [List.foldl_cons, ih]
    obtain ⟨a, _ | ⟨r, rs⟩⟩ := s <;> simp [kwStep]

/-- Eight bytes and semiblocks of eight, put together, are cut into the semiblocks again. -/
theorem semiblocks_flatten (rs : List (List Byte)) (a : List Byte) (ha : a.length = 8) (h : ∀ r ∈ rs, r.length = 8) :
    (List.range rs.length).map (fun i => ((a ++ rs.flatten).drop (8 * (i + 1))).take 8) = rs := by
  have cut : ∀ (rs : List (List Byte)), (∀ r ∈ rs, r.length = 8) →
      (List.range rs.length).map (fun i => (rs.flatten.drop (8 * i)).take 8) = rs := by
    intro rs
    induction rs with
    | nil => intro _; rfl
    | cons r rs ih =>
      intro h
      have hr := h r (List.mem_cons_self ..)
      have tl := ih fun x hx => h x (List.mem_cons_of_mem _ hx)
      rw [List.length_cons, List.range_succ_eq_map, List.map_cons, List.map_map]
      congr 1
      · simp [← hr]
      · conv_rhs => rw [← tl]
        refine List.map_congr_left fun i _ => ?_
        have e : 8 * (i + 1) = r.length + 8 * i := by omega
        simp only [Function.comp, List.flatten_cons, Nat.succ_eq_add_one, e, List.drop_length_add_append]
  refine Eq.trans (List.map_congr_left fun i _ => ?_) (cut rs h)
  have e : 8 * (i + 1) = a.length + 8 * i := by omega
  simp only [e, List.drop_length_add_append]

theorem leBytes_add (m n v : Nat) : leBytes (m + n) v = leBytes m v ++ leBytes n (v / 256 ^ m) := by
  induction m generalizing v with
  | zero => simp [leBytes]
  | succ m ih => rw [Nat.succ_add, leBytes, ih, leBytes, List.cons_append, Nat.div_div_eq_div_mul, Nat.pow_succ']

theorem leBytes_mod (n v : Nat) : leBytes n (v % 256 ^ n) = leBytes n v := by
  rw [← leNat_leBytes]; exact leBytes_leNat_of n _ (leBytes_length n v)

/-- A key's eight semiblocks, put together, spell the key. -/
theorem key_semiblocks (key : BitVec 512) :
    ((List.range 8).map fun i => leBytes 8 (key.extractLsb' (64 * i) 64).toNat).flatten = leBytes 64 key.toNat := by
  have part : ∀ i, leBytes 8 (key.extractLsb' (64 * i) 64).toNat = leBytes 8 (key.toNat / 256 ^ (8 * i)) := fun i => by
    have e : (key.extractLsb' (64 * i) 64).toNat = key.toNat / 256 ^ (8 * i) % 256 ^ 8 := by
      rw [BitVec.extractLsb'_toNat, Nat.shiftRight_eq_div_pow]
      congr 1
      rw [show 64 * i = 8 * (8 * i) by ring, Nat.pow_mul]
    rw [e, leBytes_mod]
  simp only [part]
  have split : ∀ n, leBytes (8 * n) key.toNat = ((List.range n).map fun i => leBytes 8 (key.toNat / 256 ^ (8 * i))).flatten := fun n => by
    induction n with
    | zero => rfl
    | succ n ih => rw [Nat.mul_succ, leBytes_add, ih, List.range_succ, List.map_append, List.flatten_append]; simp
  exact (split 8).symm

set_option exponentiation.threshold 600 in
/-- What the wrapping's register unwraps to: the key where it began with the initial value, and nothing else. -/
theorem unwrapKey_steps (k : BitVec 256) (a : List Byte) (key : BitVec 512) (ha : a.length = 8) :
    let s := ((List.range 48).map (· + 1)).foldl (kwStep k) (a, (List.range 8).map fun i => leBytes 8 (key.extractLsb' (64 * i) 64).toNat)
    unwrapKey k (s.1 ++ s.2.flatten) = if a = kwInit then some key else none := by
  intro s
  have w0 : KwState (a, (List.range 8).map fun i => leBytes 8 (key.extractLsb' (64 * i) 64).toNat) := by
    refine ⟨ha, by simp, fun r hr => ?_⟩
    obtain ⟨i, -, rfl⟩ := List.mem_map.1 hr
    simp
  obtain ⟨inv, w⟩ := kw_inverse k ((List.range 48).map (· + 1)) _ w0
  have n8 : s.2.length = 8 := by simp [s, kwStep_count]
  have parts : (List.range 8).map (fun i => ((s.1 ++ s.2.flatten).drop (8 * (i + 1))).take 8) = s.2 := by
    have := semiblocks_flatten s.2 s.1 w.1 w.2.2
    rwa [n8] at this
  have rev : (List.range 48).map (48 - ·) = ((List.range 48).map (· + 1)).reverse := by decide
  have hd : (s.1 ++ s.2.flatten).take 8 = s.1 := by rw [← w.1, List.take_left]
  have e : ((List.range 48).map (48 - ·)).foldl (kwBack k) (s.1, s.2) = (a, (List.range 8).map fun i => leBytes 8 (key.extractLsb' (64 * i) 64).toNat) := by
    rw [rev]; exact inv
  have key64 : BitVec.ofNat 512 (leNat (leBytes 64 key.toNat)) = key := by
    rw [leNat_leBytes, show (256 : Nat) ^ 64 = 2 ^ 512 from Nat.pow_mul 2 8 64 |>.symm, Nat.mod_eq_of_lt key.isLt]
    simp
  simp only [unwrapKey, parts, hd, e, beq_iff_eq]
  split
  · rw [key_semiblocks, key64]
  · rfl

/-- Unwrapping undoes wrapping. -/
theorem unwrapKey_wrapKey (k : BitVec 256) (key : BitVec 512) : unwrapKey k (wrapKey k key) = some key := by
  have := unwrapKey_steps k kwInit key (by decide)
  rwa [if_pos rfl] at this

/-- Seventy-two bytes that no wrapping under the key gave exist, and do not unwrap. -/
theorem exists_unwrapKey_none (k : BitVec 256) : ∃ w : List Byte, w.length = 72 ∧ unwrapKey k w = none := by
  have h := unwrapKey_steps k (List.replicate 8 0) 0 (by decide)
  rw [if_neg (by decide)] at h
  refine ⟨_, ?_, h⟩
  obtain ⟨-, w⟩ := kw_inverse k ((List.range 48).map (· + 1)) (List.replicate 8 0, (List.range 8).map fun i => leBytes 8 ((0 : BitVec 512).extractLsb' (64 * i) 64).toNat)
    ⟨by decide, by simp, fun r hr => by obtain ⟨i, -, rfl⟩ := List.mem_map.1 hr; simp⟩
  have n8 := kwStep_count k ((List.range 48).map (· + 1)) (List.replicate 8 0, (List.range 8).map fun i => leBytes 8 ((0 : BitVec 512).extractLsb' (64 * i) 64).toNat)
  have fl : ∀ rs : List (List Byte), (∀ r ∈ rs, r.length = 8) → rs.flatten.length = 8 * rs.length := fun rs => by
    induction rs with
    | nil => intro _; rfl
    | cons r rs ih =>
      intro h
      rw [List.flatten_cons, List.length_append, h r (List.mem_cons_self ..), ih fun x hx => h x (List.mem_cons_of_mem _ hx), List.length_cons]
      omega
  rw [List.length_append, w.1, fl _ w.2.2, n8]
  simp

end Sys2Proof.Laws
end

