-- ==== Sys2Proof/Laws/State.lean ====
section
/-!
SUPPORT. What each named update of the device leaves alone, field by field, and what the step's own updates of the state keep: no later proof
unfolds a record update.
-/
namespace Sys2Proof.Machine

@[simp] theorem Dev.setReg_bus (d : Dev) (a : Nat) (v : DWord) : (d.setReg a v).bus = d.bus := rfl
@[simp] theorem Dev.setReg_freeCtr (d : Dev) (a : Nat) (v : DWord) : (d.setReg a v).freeCtr = d.freeCtr := rfl
@[simp] theorem Dev.setReg_now (d : Dev) (a : Nat) (v : DWord) : (d.setReg a v).now = d.now := rfl
@[simp] theorem Dev.setReg_emitted (d : Dev) (a : Nat) (v : DWord) : (d.setReg a v).emitted = d.emitted := rfl
@[simp] theorem Dev.setReg_nextId (d : Dev) (a : Nat) (v : DWord) : (d.setReg a v).nextId = d.nextId := rfl
@[simp] theorem Dev.setReg_log (d : Dev) (a : Nat) (v : DWord) : (d.setReg a v).log = d.log := rfl
@[simp] theorem Dev.setReg_jnl (d : Dev) (a : Nat) (v : DWord) : (d.setReg a v).jnl = d.jnl := rfl
@[simp] theorem Dev.setReg_locks (d : Dev) (a : Nat) (v : DWord) : (d.setReg a v).locks = d.locks := rfl
@[simp] theorem Dev.setReg_setWait (d : Dev) (a : Nat) (v : DWord) : (d.setReg a v).setWait = d.setWait := rfl
@[simp] theorem Dev.setReg_ops (d : Dev) (a : Nat) (v : DWord) : (d.setReg a v).ops = d.ops := rfl
@[simp] theorem Dev.setReg_mcmds (d : Dev) (a : Nat) (v : DWord) : (d.setReg a v).mcmds = d.mcmds := rfl
@[simp] theorem Dev.setReg_mbrs (d : Dev) (a : Nat) (v : DWord) : (d.setReg a v).mbrs = d.mbrs := rfl
@[simp] theorem Dev.setReg_disc (d : Dev) (a : Nat) (v : DWord) : (d.setReg a v).disc = d.disc := rfl
@[simp] theorem Dev.setReg_sil (d : Dev) (a : Nat) (v : DWord) : (d.setReg a v).sil = d.sil := rfl
@[simp] theorem Dev.setReg_arm (d : Dev) (a : Nat) (v : DWord) : (d.setReg a v).arm = d.arm := rfl
@[simp] theorem Dev.setReg_keys (d : Dev) (a : Nat) (v : DWord) : (d.setReg a v).keys = d.keys := rfl
@[simp] theorem Dev.setReg_fab (d : Dev) (a : Nat) (v : DWord) : (d.setReg a v).fab = d.fab := rfl
@[simp] theorem Dev.setReg_cmds (d : Dev) (a : Nat) (v : DWord) : (d.setReg a v).cmds = d.cmds := rfl
@[simp] theorem Dev.setReg_ctlA (d : Dev) (a : Nat) (v : DWord) : (d.setReg a v).ctlA = d.ctlA := rfl
@[simp] theorem Dev.setReg_ctlB (d : Dev) (a : Nat) (v : DWord) : (d.setReg a v).ctlB = d.ctlB := rfl
@[simp] theorem Dev.setReg_nvm (d : Dev) (a : Nat) (v : DWord) : (d.setReg a v).nvm = d.nvm := rfl
@[simp] theorem Dev.setReg_ports (d : Dev) (a : Nat) (v : DWord) : (d.setReg a v).ports = d.ports := rfl
@[simp] theorem Dev.setReg_mport (d : Dev) (a : Nat) (v : DWord) : (d.setReg a v).mport = d.mport := rfl
@[simp] theorem Dev.setReg_acd (d : Dev) (a : Nat) (v : DWord) : (d.setReg a v).acd = d.acd := rfl
@[simp] theorem Dev.setReg_opt (d : Dev) (a : Nat) (v : DWord) : (d.setReg a v).opt = d.opt := rfl
@[simp] theorem Dev.setReg_cwq (d : Dev) (a : Nat) (v : DWord) : (d.setReg a v).cwq = d.cwq := rfl
@[simp] theorem Dev.setReg_badHost (d : Dev) (a : Nat) (v : DWord) : (d.setReg a v).badHost = d.badHost := rfl
@[simp] theorem Dev.setReg_scrubLine (d : Dev) (a : Nat) (v : DWord) : (d.setReg a v).scrubLine = d.scrubLine := rfl
@[simp] theorem Dev.setReg_rst (d : Dev) (a : Nat) (v : DWord) : (d.setReg a v).rst = d.rst := rfl
@[simp] theorem Dev.setReg_vlt (d : Dev) (a : Nat) (v : DWord) : (d.setReg a v).vlt = d.vlt := rfl
@[simp] theorem Dev.setReg_mgmt (d : Dev) (a : Nat) (v : DWord) : (d.setReg a v).mgmt = d.mgmt := rfl

@[simp] theorem Dev.pi_bus (d : Dev) (f : Fld) (i x : Nat) : (d.pi f i x).bus = d.bus := rfl
@[simp] theorem Dev.pi_freeCtr (d : Dev) (f : Fld) (i x : Nat) : (d.pi f i x).freeCtr = d.freeCtr := rfl
@[simp] theorem Dev.pi_now (d : Dev) (f : Fld) (i x : Nat) : (d.pi f i x).now = d.now := rfl
@[simp] theorem Dev.pi_emitted (d : Dev) (f : Fld) (i x : Nat) : (d.pi f i x).emitted = d.emitted := rfl
@[simp] theorem Dev.pi_nextId (d : Dev) (f : Fld) (i x : Nat) : (d.pi f i x).nextId = d.nextId := rfl
@[simp] theorem Dev.pi_log (d : Dev) (f : Fld) (i x : Nat) : (d.pi f i x).log = d.log := rfl
@[simp] theorem Dev.pi_jnl (d : Dev) (f : Fld) (i x : Nat) : (d.pi f i x).jnl = d.jnl := rfl
@[simp] theorem Dev.pi_locks (d : Dev) (f : Fld) (i x : Nat) : (d.pi f i x).locks = d.locks := rfl
@[simp] theorem Dev.pi_setWait (d : Dev) (f : Fld) (i x : Nat) : (d.pi f i x).setWait = d.setWait := rfl
@[simp] theorem Dev.pi_ops (d : Dev) (f : Fld) (i x : Nat) : (d.pi f i x).ops = d.ops := rfl
@[simp] theorem Dev.pi_mcmds (d : Dev) (f : Fld) (i x : Nat) : (d.pi f i x).mcmds = d.mcmds := rfl
@[simp] theorem Dev.pi_mbrs (d : Dev) (f : Fld) (i x : Nat) : (d.pi f i x).mbrs = d.mbrs := rfl
@[simp] theorem Dev.pi_disc (d : Dev) (f : Fld) (i x : Nat) : (d.pi f i x).disc = d.disc := rfl
@[simp] theorem Dev.pi_sil (d : Dev) (f : Fld) (i x : Nat) : (d.pi f i x).sil = d.sil := rfl
@[simp] theorem Dev.pi_arm (d : Dev) (f : Fld) (i x : Nat) : (d.pi f i x).arm = d.arm := rfl
@[simp] theorem Dev.pi_keys (d : Dev) (f : Fld) (i x : Nat) : (d.pi f i x).keys = d.keys := rfl
@[simp] theorem Dev.pi_fab (d : Dev) (f : Fld) (i x : Nat) : (d.pi f i x).fab = d.fab := rfl
@[simp] theorem Dev.pi_cmds (d : Dev) (f : Fld) (i x : Nat) : (d.pi f i x).cmds = d.cmds := rfl
@[simp] theorem Dev.pi_ctlA (d : Dev) (f : Fld) (i x : Nat) : (d.pi f i x).ctlA = d.ctlA := rfl
@[simp] theorem Dev.pi_ctlB (d : Dev) (f : Fld) (i x : Nat) : (d.pi f i x).ctlB = d.ctlB := rfl
@[simp] theorem Dev.pi_nvm (d : Dev) (f : Fld) (i x : Nat) : (d.pi f i x).nvm = d.nvm := rfl
@[simp] theorem Dev.pi_ports (d : Dev) (f : Fld) (i x : Nat) : (d.pi f i x).ports = d.ports := rfl
@[simp] theorem Dev.pi_mport (d : Dev) (f : Fld) (i x : Nat) : (d.pi f i x).mport = d.mport := rfl
@[simp] theorem Dev.pi_acd (d : Dev) (f : Fld) (i x : Nat) : (d.pi f i x).acd = d.acd := rfl
@[simp] theorem Dev.pi_opt (d : Dev) (f : Fld) (i x : Nat) : (d.pi f i x).opt = d.opt := rfl
@[simp] theorem Dev.pi_cwq (d : Dev) (f : Fld) (i x : Nat) : (d.pi f i x).cwq = d.cwq := rfl
@[simp] theorem Dev.pi_badHost (d : Dev) (f : Fld) (i x : Nat) : (d.pi f i x).badHost = d.badHost := rfl
@[simp] theorem Dev.pi_scrubLine (d : Dev) (f : Fld) (i x : Nat) : (d.pi f i x).scrubLine = d.scrubLine := rfl
@[simp] theorem Dev.pi_rst (d : Dev) (f : Fld) (i x : Nat) : (d.pi f i x).rst = d.rst := rfl
@[simp] theorem Dev.pi_vlt (d : Dev) (f : Fld) (i x : Nat) : (d.pi f i x).vlt = d.vlt := rfl
@[simp] theorem Dev.pi_mgmt (d : Dev) (f : Fld) (i x : Nat) : (d.pi f i x).mgmt = d.mgmt := rfl

@[simp] theorem Dev.p_bus (d : Dev) (f : Fld) (x : Nat) : (d.p f x).bus = d.bus := rfl
@[simp] theorem Dev.p_freeCtr (d : Dev) (f : Fld) (x : Nat) : (d.p f x).freeCtr = d.freeCtr := rfl
@[simp] theorem Dev.p_now (d : Dev) (f : Fld) (x : Nat) : (d.p f x).now = d.now := rfl
@[simp] theorem Dev.p_emitted (d : Dev) (f : Fld) (x : Nat) : (d.p f x).emitted = d.emitted := rfl
@[simp] theorem Dev.p_nextId (d : Dev) (f : Fld) (x : Nat) : (d.p f x).nextId = d.nextId := rfl
@[simp] theorem Dev.p_log (d : Dev) (f : Fld) (x : Nat) : (d.p f x).log = d.log := rfl
@[simp] theorem Dev.p_jnl (d : Dev) (f : Fld) (x : Nat) : (d.p f x).jnl = d.jnl := rfl
@[simp] theorem Dev.p_locks (d : Dev) (f : Fld) (x : Nat) : (d.p f x).locks = d.locks := rfl
@[simp] theorem Dev.p_setWait (d : Dev) (f : Fld) (x : Nat) : (d.p f x).setWait = d.setWait := rfl
@[simp] theorem Dev.p_ops (d : Dev) (f : Fld) (x : Nat) : (d.p f x).ops = d.ops := rfl
@[simp] theorem Dev.p_mcmds (d : Dev) (f : Fld) (x : Nat) : (d.p f x).mcmds = d.mcmds := rfl
@[simp] theorem Dev.p_mbrs (d : Dev) (f : Fld) (x : Nat) : (d.p f x).mbrs = d.mbrs := rfl
@[simp] theorem Dev.p_disc (d : Dev) (f : Fld) (x : Nat) : (d.p f x).disc = d.disc := rfl
@[simp] theorem Dev.p_sil (d : Dev) (f : Fld) (x : Nat) : (d.p f x).sil = d.sil := rfl
@[simp] theorem Dev.p_arm (d : Dev) (f : Fld) (x : Nat) : (d.p f x).arm = d.arm := rfl
@[simp] theorem Dev.p_keys (d : Dev) (f : Fld) (x : Nat) : (d.p f x).keys = d.keys := rfl
@[simp] theorem Dev.p_fab (d : Dev) (f : Fld) (x : Nat) : (d.p f x).fab = d.fab := rfl
@[simp] theorem Dev.p_cmds (d : Dev) (f : Fld) (x : Nat) : (d.p f x).cmds = d.cmds := rfl
@[simp] theorem Dev.p_ctlA (d : Dev) (f : Fld) (x : Nat) : (d.p f x).ctlA = d.ctlA := rfl
@[simp] theorem Dev.p_ctlB (d : Dev) (f : Fld) (x : Nat) : (d.p f x).ctlB = d.ctlB := rfl
@[simp] theorem Dev.p_nvm (d : Dev) (f : Fld) (x : Nat) : (d.p f x).nvm = d.nvm := rfl
@[simp] theorem Dev.p_ports (d : Dev) (f : Fld) (x : Nat) : (d.p f x).ports = d.ports := rfl
@[simp] theorem Dev.p_mport (d : Dev) (f : Fld) (x : Nat) : (d.p f x).mport = d.mport := rfl
@[simp] theorem Dev.p_acd (d : Dev) (f : Fld) (x : Nat) : (d.p f x).acd = d.acd := rfl
@[simp] theorem Dev.p_opt (d : Dev) (f : Fld) (x : Nat) : (d.p f x).opt = d.opt := rfl
@[simp] theorem Dev.p_cwq (d : Dev) (f : Fld) (x : Nat) : (d.p f x).cwq = d.cwq := rfl
@[simp] theorem Dev.p_badHost (d : Dev) (f : Fld) (x : Nat) : (d.p f x).badHost = d.badHost := rfl
@[simp] theorem Dev.p_scrubLine (d : Dev) (f : Fld) (x : Nat) : (d.p f x).scrubLine = d.scrubLine := rfl
@[simp] theorem Dev.p_rst (d : Dev) (f : Fld) (x : Nat) : (d.p f x).rst = d.rst := rfl
@[simp] theorem Dev.p_vlt (d : Dev) (f : Fld) (x : Nat) : (d.p f x).vlt = d.vlt := rfl
@[simp] theorem Dev.p_mgmt (d : Dev) (f : Fld) (x : Nat) : (d.p f x).mgmt = d.mgmt := rfl

@[simp] theorem Dev.pSat_bus (d : Dev) (f : Fld) (x : Nat) : (d.pSat f x).bus = d.bus := rfl
@[simp] theorem Dev.pSat_freeCtr (d : Dev) (f : Fld) (x : Nat) : (d.pSat f x).freeCtr = d.freeCtr := rfl
@[simp] theorem Dev.pSat_now (d : Dev) (f : Fld) (x : Nat) : (d.pSat f x).now = d.now := rfl
@[simp] theorem Dev.pSat_emitted (d : Dev) (f : Fld) (x : Nat) : (d.pSat f x).emitted = d.emitted := rfl
@[simp] theorem Dev.pSat_nextId (d : Dev) (f : Fld) (x : Nat) : (d.pSat f x).nextId = d.nextId := rfl
@[simp] theorem Dev.pSat_log (d : Dev) (f : Fld) (x : Nat) : (d.pSat f x).log = d.log := rfl
@[simp] theorem Dev.pSat_jnl (d : Dev) (f : Fld) (x : Nat) : (d.pSat f x).jnl = d.jnl := rfl
@[simp] theorem Dev.pSat_locks (d : Dev) (f : Fld) (x : Nat) : (d.pSat f x).locks = d.locks := rfl
@[simp] theorem Dev.pSat_setWait (d : Dev) (f : Fld) (x : Nat) : (d.pSat f x).setWait = d.setWait := rfl
@[simp] theorem Dev.pSat_ops (d : Dev) (f : Fld) (x : Nat) : (d.pSat f x).ops = d.ops := rfl
@[simp] theorem Dev.pSat_mcmds (d : Dev) (f : Fld) (x : Nat) : (d.pSat f x).mcmds = d.mcmds := rfl
@[simp] theorem Dev.pSat_mbrs (d : Dev) (f : Fld) (x : Nat) : (d.pSat f x).mbrs = d.mbrs := rfl
@[simp] theorem Dev.pSat_disc (d : Dev) (f : Fld) (x : Nat) : (d.pSat f x).disc = d.disc := rfl
@[simp] theorem Dev.pSat_sil (d : Dev) (f : Fld) (x : Nat) : (d.pSat f x).sil = d.sil := rfl
@[simp] theorem Dev.pSat_arm (d : Dev) (f : Fld) (x : Nat) : (d.pSat f x).arm = d.arm := rfl
@[simp] theorem Dev.pSat_keys (d : Dev) (f : Fld) (x : Nat) : (d.pSat f x).keys = d.keys := rfl
@[simp] theorem Dev.pSat_fab (d : Dev) (f : Fld) (x : Nat) : (d.pSat f x).fab = d.fab := rfl
@[simp] theorem Dev.pSat_cmds (d : Dev) (f : Fld) (x : Nat) : (d.pSat f x).cmds = d.cmds := rfl
@[simp] theorem Dev.pSat_ctlA (d : Dev) (f : Fld) (x : Nat) : (d.pSat f x).ctlA = d.ctlA := rfl
@[simp] theorem Dev.pSat_ctlB (d : Dev) (f : Fld) (x : Nat) : (d.pSat f x).ctlB = d.ctlB := rfl
@[simp] theorem Dev.pSat_nvm (d : Dev) (f : Fld) (x : Nat) : (d.pSat f x).nvm = d.nvm := rfl
@[simp] theorem Dev.pSat_ports (d : Dev) (f : Fld) (x : Nat) : (d.pSat f x).ports = d.ports := rfl
@[simp] theorem Dev.pSat_mport (d : Dev) (f : Fld) (x : Nat) : (d.pSat f x).mport = d.mport := rfl
@[simp] theorem Dev.pSat_acd (d : Dev) (f : Fld) (x : Nat) : (d.pSat f x).acd = d.acd := rfl
@[simp] theorem Dev.pSat_opt (d : Dev) (f : Fld) (x : Nat) : (d.pSat f x).opt = d.opt := rfl
@[simp] theorem Dev.pSat_cwq (d : Dev) (f : Fld) (x : Nat) : (d.pSat f x).cwq = d.cwq := rfl
@[simp] theorem Dev.pSat_badHost (d : Dev) (f : Fld) (x : Nat) : (d.pSat f x).badHost = d.badHost := rfl
@[simp] theorem Dev.pSat_scrubLine (d : Dev) (f : Fld) (x : Nat) : (d.pSat f x).scrubLine = d.scrubLine := rfl
@[simp] theorem Dev.pSat_rst (d : Dev) (f : Fld) (x : Nat) : (d.pSat f x).rst = d.rst := rfl
@[simp] theorem Dev.pSat_vlt (d : Dev) (f : Fld) (x : Nat) : (d.pSat f x).vlt = d.vlt := rfl
@[simp] theorem Dev.pSat_mgmt (d : Dev) (f : Fld) (x : Nat) : (d.pSat f x).mgmt = d.mgmt := rfl

@[simp] theorem Dev.incBy_bus (d : Dev) (f : Fld) (n : Nat) : (d.incBy f n).bus = d.bus := rfl
@[simp] theorem Dev.incBy_freeCtr (d : Dev) (f : Fld) (n : Nat) : (d.incBy f n).freeCtr = d.freeCtr := rfl
@[simp] theorem Dev.incBy_now (d : Dev) (f : Fld) (n : Nat) : (d.incBy f n).now = d.now := rfl
@[simp] theorem Dev.incBy_emitted (d : Dev) (f : Fld) (n : Nat) : (d.incBy f n).emitted = d.emitted := rfl
@[simp] theorem Dev.incBy_nextId (d : Dev) (f : Fld) (n : Nat) : (d.incBy f n).nextId = d.nextId := rfl
@[simp] theorem Dev.incBy_log (d : Dev) (f : Fld) (n : Nat) : (d.incBy f n).log = d.log := rfl
@[simp] theorem Dev.incBy_jnl (d : Dev) (f : Fld) (n : Nat) : (d.incBy f n).jnl = d.jnl := rfl
@[simp] theorem Dev.incBy_locks (d : Dev) (f : Fld) (n : Nat) : (d.incBy f n).locks = d.locks := rfl
@[simp] theorem Dev.incBy_setWait (d : Dev) (f : Fld) (n : Nat) : (d.incBy f n).setWait = d.setWait := rfl
@[simp] theorem Dev.incBy_ops (d : Dev) (f : Fld) (n : Nat) : (d.incBy f n).ops = d.ops := rfl
@[simp] theorem Dev.incBy_mcmds (d : Dev) (f : Fld) (n : Nat) : (d.incBy f n).mcmds = d.mcmds := rfl
@[simp] theorem Dev.incBy_mbrs (d : Dev) (f : Fld) (n : Nat) : (d.incBy f n).mbrs = d.mbrs := rfl
@[simp] theorem Dev.incBy_disc (d : Dev) (f : Fld) (n : Nat) : (d.incBy f n).disc = d.disc := rfl
@[simp] theorem Dev.incBy_sil (d : Dev) (f : Fld) (n : Nat) : (d.incBy f n).sil = d.sil := rfl
@[simp] theorem Dev.incBy_arm (d : Dev) (f : Fld) (n : Nat) : (d.incBy f n).arm = d.arm := rfl
@[simp] theorem Dev.incBy_keys (d : Dev) (f : Fld) (n : Nat) : (d.incBy f n).keys = d.keys := rfl
@[simp] theorem Dev.incBy_fab (d : Dev) (f : Fld) (n : Nat) : (d.incBy f n).fab = d.fab := rfl
@[simp] theorem Dev.incBy_cmds (d : Dev) (f : Fld) (n : Nat) : (d.incBy f n).cmds = d.cmds := rfl
@[simp] theorem Dev.incBy_ctlA (d : Dev) (f : Fld) (n : Nat) : (d.incBy f n).ctlA = d.ctlA := rfl
@[simp] theorem Dev.incBy_ctlB (d : Dev) (f : Fld) (n : Nat) : (d.incBy f n).ctlB = d.ctlB := rfl
@[simp] theorem Dev.incBy_nvm (d : Dev) (f : Fld) (n : Nat) : (d.incBy f n).nvm = d.nvm := rfl
@[simp] theorem Dev.incBy_ports (d : Dev) (f : Fld) (n : Nat) : (d.incBy f n).ports = d.ports := rfl
@[simp] theorem Dev.incBy_mport (d : Dev) (f : Fld) (n : Nat) : (d.incBy f n).mport = d.mport := rfl
@[simp] theorem Dev.incBy_acd (d : Dev) (f : Fld) (n : Nat) : (d.incBy f n).acd = d.acd := rfl
@[simp] theorem Dev.incBy_opt (d : Dev) (f : Fld) (n : Nat) : (d.incBy f n).opt = d.opt := rfl
@[simp] theorem Dev.incBy_cwq (d : Dev) (f : Fld) (n : Nat) : (d.incBy f n).cwq = d.cwq := rfl
@[simp] theorem Dev.incBy_badHost (d : Dev) (f : Fld) (n : Nat) : (d.incBy f n).badHost = d.badHost := rfl
@[simp] theorem Dev.incBy_scrubLine (d : Dev) (f : Fld) (n : Nat) : (d.incBy f n).scrubLine = d.scrubLine := rfl
@[simp] theorem Dev.incBy_rst (d : Dev) (f : Fld) (n : Nat) : (d.incBy f n).rst = d.rst := rfl
@[simp] theorem Dev.incBy_vlt (d : Dev) (f : Fld) (n : Nat) : (d.incBy f n).vlt = d.vlt := rfl
@[simp] theorem Dev.incBy_mgmt (d : Dev) (f : Fld) (n : Nat) : (d.incBy f n).mgmt = d.mgmt := rfl

@[simp] theorem Dev.inc_bus (d : Dev) (f : Fld) : (d.inc f).bus = d.bus := rfl
@[simp] theorem Dev.inc_freeCtr (d : Dev) (f : Fld) : (d.inc f).freeCtr = d.freeCtr := rfl
@[simp] theorem Dev.inc_now (d : Dev) (f : Fld) : (d.inc f).now = d.now := rfl
@[simp] theorem Dev.inc_emitted (d : Dev) (f : Fld) : (d.inc f).emitted = d.emitted := rfl
@[simp] theorem Dev.inc_nextId (d : Dev) (f : Fld) : (d.inc f).nextId = d.nextId := rfl
@[simp] theorem Dev.inc_log (d : Dev) (f : Fld) : (d.inc f).log = d.log := rfl
@[simp] theorem Dev.inc_jnl (d : Dev) (f : Fld) : (d.inc f).jnl = d.jnl := rfl
@[simp] theorem Dev.inc_locks (d : Dev) (f : Fld) : (d.inc f).locks = d.locks := rfl
@[simp] theorem Dev.inc_setWait (d : Dev) (f : Fld) : (d.inc f).setWait = d.setWait := rfl
@[simp] theorem Dev.inc_ops (d : Dev) (f : Fld) : (d.inc f).ops = d.ops := rfl
@[simp] theorem Dev.inc_mcmds (d : Dev) (f : Fld) : (d.inc f).mcmds = d.mcmds := rfl
@[simp] theorem Dev.inc_mbrs (d : Dev) (f : Fld) : (d.inc f).mbrs = d.mbrs := rfl
@[simp] theorem Dev.inc_disc (d : Dev) (f : Fld) : (d.inc f).disc = d.disc := rfl
@[simp] theorem Dev.inc_sil (d : Dev) (f : Fld) : (d.inc f).sil = d.sil := rfl
@[simp] theorem Dev.inc_arm (d : Dev) (f : Fld) : (d.inc f).arm = d.arm := rfl
@[simp] theorem Dev.inc_keys (d : Dev) (f : Fld) : (d.inc f).keys = d.keys := rfl
@[simp] theorem Dev.inc_fab (d : Dev) (f : Fld) : (d.inc f).fab = d.fab := rfl
@[simp] theorem Dev.inc_cmds (d : Dev) (f : Fld) : (d.inc f).cmds = d.cmds := rfl
@[simp] theorem Dev.inc_ctlA (d : Dev) (f : Fld) : (d.inc f).ctlA = d.ctlA := rfl
@[simp] theorem Dev.inc_ctlB (d : Dev) (f : Fld) : (d.inc f).ctlB = d.ctlB := rfl
@[simp] theorem Dev.inc_nvm (d : Dev) (f : Fld) : (d.inc f).nvm = d.nvm := rfl
@[simp] theorem Dev.inc_ports (d : Dev) (f : Fld) : (d.inc f).ports = d.ports := rfl
@[simp] theorem Dev.inc_mport (d : Dev) (f : Fld) : (d.inc f).mport = d.mport := rfl
@[simp] theorem Dev.inc_acd (d : Dev) (f : Fld) : (d.inc f).acd = d.acd := rfl
@[simp] theorem Dev.inc_opt (d : Dev) (f : Fld) : (d.inc f).opt = d.opt := rfl
@[simp] theorem Dev.inc_cwq (d : Dev) (f : Fld) : (d.inc f).cwq = d.cwq := rfl
@[simp] theorem Dev.inc_badHost (d : Dev) (f : Fld) : (d.inc f).badHost = d.badHost := rfl
@[simp] theorem Dev.inc_scrubLine (d : Dev) (f : Fld) : (d.inc f).scrubLine = d.scrubLine := rfl
@[simp] theorem Dev.inc_rst (d : Dev) (f : Fld) : (d.inc f).rst = d.rst := rfl
@[simp] theorem Dev.inc_vlt (d : Dev) (f : Fld) : (d.inc f).vlt = d.vlt := rfl
@[simp] theorem Dev.inc_mgmt (d : Dev) (f : Fld) : (d.inc f).mgmt = d.mgmt := rfl

@[simp] theorem Dev.incI_bus (d : Dev) (f : Fld) (i : Nat) : (d.incI f i).bus = d.bus := rfl
@[simp] theorem Dev.incI_freeCtr (d : Dev) (f : Fld) (i : Nat) : (d.incI f i).freeCtr = d.freeCtr := rfl
@[simp] theorem Dev.incI_now (d : Dev) (f : Fld) (i : Nat) : (d.incI f i).now = d.now := rfl
@[simp] theorem Dev.incI_emitted (d : Dev) (f : Fld) (i : Nat) : (d.incI f i).emitted = d.emitted := rfl
@[simp] theorem Dev.incI_nextId (d : Dev) (f : Fld) (i : Nat) : (d.incI f i).nextId = d.nextId := rfl
@[simp] theorem Dev.incI_log (d : Dev) (f : Fld) (i : Nat) : (d.incI f i).log = d.log := rfl
@[simp] theorem Dev.incI_jnl (d : Dev) (f : Fld) (i : Nat) : (d.incI f i).jnl = d.jnl := rfl
@[simp] theorem Dev.incI_locks (d : Dev) (f : Fld) (i : Nat) : (d.incI f i).locks = d.locks := rfl
@[simp] theorem Dev.incI_setWait (d : Dev) (f : Fld) (i : Nat) : (d.incI f i).setWait = d.setWait := rfl
@[simp] theorem Dev.incI_ops (d : Dev) (f : Fld) (i : Nat) : (d.incI f i).ops = d.ops := rfl
@[simp] theorem Dev.incI_mcmds (d : Dev) (f : Fld) (i : Nat) : (d.incI f i).mcmds = d.mcmds := rfl
@[simp] theorem Dev.incI_mbrs (d : Dev) (f : Fld) (i : Nat) : (d.incI f i).mbrs = d.mbrs := rfl
@[simp] theorem Dev.incI_disc (d : Dev) (f : Fld) (i : Nat) : (d.incI f i).disc = d.disc := rfl
@[simp] theorem Dev.incI_sil (d : Dev) (f : Fld) (i : Nat) : (d.incI f i).sil = d.sil := rfl
@[simp] theorem Dev.incI_arm (d : Dev) (f : Fld) (i : Nat) : (d.incI f i).arm = d.arm := rfl
@[simp] theorem Dev.incI_keys (d : Dev) (f : Fld) (i : Nat) : (d.incI f i).keys = d.keys := rfl
@[simp] theorem Dev.incI_fab (d : Dev) (f : Fld) (i : Nat) : (d.incI f i).fab = d.fab := rfl
@[simp] theorem Dev.incI_cmds (d : Dev) (f : Fld) (i : Nat) : (d.incI f i).cmds = d.cmds := rfl
@[simp] theorem Dev.incI_ctlA (d : Dev) (f : Fld) (i : Nat) : (d.incI f i).ctlA = d.ctlA := rfl
@[simp] theorem Dev.incI_ctlB (d : Dev) (f : Fld) (i : Nat) : (d.incI f i).ctlB = d.ctlB := rfl
@[simp] theorem Dev.incI_nvm (d : Dev) (f : Fld) (i : Nat) : (d.incI f i).nvm = d.nvm := rfl
@[simp] theorem Dev.incI_ports (d : Dev) (f : Fld) (i : Nat) : (d.incI f i).ports = d.ports := rfl
@[simp] theorem Dev.incI_mport (d : Dev) (f : Fld) (i : Nat) : (d.incI f i).mport = d.mport := rfl
@[simp] theorem Dev.incI_acd (d : Dev) (f : Fld) (i : Nat) : (d.incI f i).acd = d.acd := rfl
@[simp] theorem Dev.incI_opt (d : Dev) (f : Fld) (i : Nat) : (d.incI f i).opt = d.opt := rfl
@[simp] theorem Dev.incI_cwq (d : Dev) (f : Fld) (i : Nat) : (d.incI f i).cwq = d.cwq := rfl
@[simp] theorem Dev.incI_badHost (d : Dev) (f : Fld) (i : Nat) : (d.incI f i).badHost = d.badHost := rfl
@[simp] theorem Dev.incI_scrubLine (d : Dev) (f : Fld) (i : Nat) : (d.incI f i).scrubLine = d.scrubLine := rfl
@[simp] theorem Dev.incI_rst (d : Dev) (f : Fld) (i : Nat) : (d.incI f i).rst = d.rst := rfl
@[simp] theorem Dev.incI_vlt (d : Dev) (f : Fld) (i : Nat) : (d.incI f i).vlt = d.vlt := rfl
@[simp] theorem Dev.incI_mgmt (d : Dev) (f : Fld) (i : Nat) : (d.incI f i).mgmt = d.mgmt := rfl

@[simp] theorem Dev.emit_regs (d : Dev) (e : Emit) : (d.emit e).regs = d.regs := rfl
@[simp] theorem Dev.emit_bus (d : Dev) (e : Emit) : (d.emit e).bus = d.bus := rfl
@[simp] theorem Dev.emit_freeCtr (d : Dev) (e : Emit) : (d.emit e).freeCtr = d.freeCtr := rfl
@[simp] theorem Dev.emit_now (d : Dev) (e : Emit) : (d.emit e).now = d.now := rfl
@[simp] theorem Dev.emit_nextId (d : Dev) (e : Emit) : (d.emit e).nextId = d.nextId := rfl
@[simp] theorem Dev.emit_log (d : Dev) (e : Emit) : (d.emit e).log = d.log := rfl
@[simp] theorem Dev.emit_jnl (d : Dev) (e : Emit) : (d.emit e).jnl = d.jnl := rfl
@[simp] theorem Dev.emit_locks (d : Dev) (e : Emit) : (d.emit e).locks = d.locks := rfl
@[simp] theorem Dev.emit_setWait (d : Dev) (e : Emit) : (d.emit e).setWait = d.setWait := rfl
@[simp] theorem Dev.emit_ops (d : Dev) (e : Emit) : (d.emit e).ops = d.ops := rfl
@[simp] theorem Dev.emit_mcmds (d : Dev) (e : Emit) : (d.emit e).mcmds = d.mcmds := rfl
@[simp] theorem Dev.emit_mbrs (d : Dev) (e : Emit) : (d.emit e).mbrs = d.mbrs := rfl
@[simp] theorem Dev.emit_disc (d : Dev) (e : Emit) : (d.emit e).disc = d.disc := rfl
@[simp] theorem Dev.emit_sil (d : Dev) (e : Emit) : (d.emit e).sil = d.sil := rfl
@[simp] theorem Dev.emit_arm (d : Dev) (e : Emit) : (d.emit e).arm = d.arm := rfl
@[simp] theorem Dev.emit_keys (d : Dev) (e : Emit) : (d.emit e).keys = d.keys := rfl
@[simp] theorem Dev.emit_fab (d : Dev) (e : Emit) : (d.emit e).fab = d.fab := rfl
@[simp] theorem Dev.emit_cmds (d : Dev) (e : Emit) : (d.emit e).cmds = d.cmds := rfl
@[simp] theorem Dev.emit_ctlA (d : Dev) (e : Emit) : (d.emit e).ctlA = d.ctlA := rfl
@[simp] theorem Dev.emit_ctlB (d : Dev) (e : Emit) : (d.emit e).ctlB = d.ctlB := rfl
@[simp] theorem Dev.emit_nvm (d : Dev) (e : Emit) : (d.emit e).nvm = d.nvm := rfl
@[simp] theorem Dev.emit_ports (d : Dev) (e : Emit) : (d.emit e).ports = d.ports := rfl
@[simp] theorem Dev.emit_mport (d : Dev) (e : Emit) : (d.emit e).mport = d.mport := rfl
@[simp] theorem Dev.emit_acd (d : Dev) (e : Emit) : (d.emit e).acd = d.acd := rfl
@[simp] theorem Dev.emit_opt (d : Dev) (e : Emit) : (d.emit e).opt = d.opt := rfl
@[simp] theorem Dev.emit_cwq (d : Dev) (e : Emit) : (d.emit e).cwq = d.cwq := rfl
@[simp] theorem Dev.emit_badHost (d : Dev) (e : Emit) : (d.emit e).badHost = d.badHost := rfl
@[simp] theorem Dev.emit_scrubLine (d : Dev) (e : Emit) : (d.emit e).scrubLine = d.scrubLine := rfl
@[simp] theorem Dev.emit_rst (d : Dev) (e : Emit) : (d.emit e).rst = d.rst := rfl
@[simp] theorem Dev.emit_vlt (d : Dev) (e : Emit) : (d.emit e).vlt = d.vlt := rfl
@[simp] theorem Dev.emit_mgmt (d : Dev) (e : Emit) : (d.emit e).mgmt = d.mgmt := rfl

@[simp] theorem Dev.updMbr_regs (d : Dev) (m : Nat) (f : Mbr → Mbr) : (d.updMbr m f).regs = d.regs := rfl
@[simp] theorem Dev.updMbr_bus (d : Dev) (m : Nat) (f : Mbr → Mbr) : (d.updMbr m f).bus = d.bus := rfl
@[simp] theorem Dev.updMbr_freeCtr (d : Dev) (m : Nat) (f : Mbr → Mbr) : (d.updMbr m f).freeCtr = d.freeCtr := rfl
@[simp] theorem Dev.updMbr_now (d : Dev) (m : Nat) (f : Mbr → Mbr) : (d.updMbr m f).now = d.now := rfl
@[simp] theorem Dev.updMbr_emitted (d : Dev) (m : Nat) (f : Mbr → Mbr) : (d.updMbr m f).emitted = d.emitted := rfl
@[simp] theorem Dev.updMbr_nextId (d : Dev) (m : Nat) (f : Mbr → Mbr) : (d.updMbr m f).nextId = d.nextId := rfl
@[simp] theorem Dev.updMbr_log (d : Dev) (m : Nat) (f : Mbr → Mbr) : (d.updMbr m f).log = d.log := rfl
@[simp] theorem Dev.updMbr_jnl (d : Dev) (m : Nat) (f : Mbr → Mbr) : (d.updMbr m f).jnl = d.jnl := rfl
@[simp] theorem Dev.updMbr_locks (d : Dev) (m : Nat) (f : Mbr → Mbr) : (d.updMbr m f).locks = d.locks := rfl
@[simp] theorem Dev.updMbr_setWait (d : Dev) (m : Nat) (f : Mbr → Mbr) : (d.updMbr m f).setWait = d.setWait := rfl
@[simp] theorem Dev.updMbr_ops (d : Dev) (m : Nat) (f : Mbr → Mbr) : (d.updMbr m f).ops = d.ops := rfl
@[simp] theorem Dev.updMbr_mcmds (d : Dev) (m : Nat) (f : Mbr → Mbr) : (d.updMbr m f).mcmds = d.mcmds := rfl
@[simp] theorem Dev.updMbr_disc (d : Dev) (m : Nat) (f : Mbr → Mbr) : (d.updMbr m f).disc = d.disc := rfl
@[simp] theorem Dev.updMbr_sil (d : Dev) (m : Nat) (f : Mbr → Mbr) : (d.updMbr m f).sil = d.sil := rfl
@[simp] theorem Dev.updMbr_arm (d : Dev) (m : Nat) (f : Mbr → Mbr) : (d.updMbr m f).arm = d.arm := rfl
@[simp] theorem Dev.updMbr_keys (d : Dev) (m : Nat) (f : Mbr → Mbr) : (d.updMbr m f).keys = d.keys := rfl
@[simp] theorem Dev.updMbr_fab (d : Dev) (m : Nat) (f : Mbr → Mbr) : (d.updMbr m f).fab = d.fab := rfl
@[simp] theorem Dev.updMbr_cmds (d : Dev) (m : Nat) (f : Mbr → Mbr) : (d.updMbr m f).cmds = d.cmds := rfl
@[simp] theorem Dev.updMbr_ctlA (d : Dev) (m : Nat) (f : Mbr → Mbr) : (d.updMbr m f).ctlA = d.ctlA := rfl
@[simp] theorem Dev.updMbr_ctlB (d : Dev) (m : Nat) (f : Mbr → Mbr) : (d.updMbr m f).ctlB = d.ctlB := rfl
@[simp] theorem Dev.updMbr_nvm (d : Dev) (m : Nat) (f : Mbr → Mbr) : (d.updMbr m f).nvm = d.nvm := rfl
@[simp] theorem Dev.updMbr_ports (d : Dev) (m : Nat) (f : Mbr → Mbr) : (d.updMbr m f).ports = d.ports := rfl
@[simp] theorem Dev.updMbr_mport (d : Dev) (m : Nat) (f : Mbr → Mbr) : (d.updMbr m f).mport = d.mport := rfl
@[simp] theorem Dev.updMbr_acd (d : Dev) (m : Nat) (f : Mbr → Mbr) : (d.updMbr m f).acd = d.acd := rfl
@[simp] theorem Dev.updMbr_opt (d : Dev) (m : Nat) (f : Mbr → Mbr) : (d.updMbr m f).opt = d.opt := rfl
@[simp] theorem Dev.updMbr_cwq (d : Dev) (m : Nat) (f : Mbr → Mbr) : (d.updMbr m f).cwq = d.cwq := rfl
@[simp] theorem Dev.updMbr_badHost (d : Dev) (m : Nat) (f : Mbr → Mbr) : (d.updMbr m f).badHost = d.badHost := rfl
@[simp] theorem Dev.updMbr_scrubLine (d : Dev) (m : Nat) (f : Mbr → Mbr) : (d.updMbr m f).scrubLine = d.scrubLine := rfl
@[simp] theorem Dev.updMbr_rst (d : Dev) (m : Nat) (f : Mbr → Mbr) : (d.updMbr m f).rst = d.rst := rfl
@[simp] theorem Dev.updMbr_vlt (d : Dev) (m : Nat) (f : Mbr → Mbr) : (d.updMbr m f).vlt = d.vlt := rfl
@[simp] theorem Dev.updMbr_mgmt (d : Dev) (m : Nat) (f : Mbr → Mbr) : (d.updMbr m f).mgmt = d.mgmt := rfl

@[simp] theorem Dev.updOp_regs (d : Dev) (i : Nat) (f : Op → Op) : (d.updOp i f).regs = d.regs := rfl
@[simp] theorem Dev.updOp_bus (d : Dev) (i : Nat) (f : Op → Op) : (d.updOp i f).bus = d.bus := rfl
@[simp] theorem Dev.updOp_freeCtr (d : Dev) (i : Nat) (f : Op → Op) : (d.updOp i f).freeCtr = d.freeCtr := rfl
@[simp] theorem Dev.updOp_now (d : Dev) (i : Nat) (f : Op → Op) : (d.updOp i f).now = d.now := rfl
@[simp] theorem Dev.updOp_emitted (d : Dev) (i : Nat) (f : Op → Op) : (d.updOp i f).emitted = d.emitted := rfl
@[simp] theorem Dev.updOp_nextId (d : Dev) (i : Nat) (f : Op → Op) : (d.updOp i f).nextId = d.nextId := rfl
@[simp] theorem Dev.updOp_log (d : Dev) (i : Nat) (f : Op → Op) : (d.updOp i f).log = d.log := rfl
@[simp] theorem Dev.updOp_jnl (d : Dev) (i : Nat) (f : Op → Op) : (d.updOp i f).jnl = d.jnl := rfl
@[simp] theorem Dev.updOp_locks (d : Dev) (i : Nat) (f : Op → Op) : (d.updOp i f).locks = d.locks := rfl
@[simp] theorem Dev.updOp_setWait (d : Dev) (i : Nat) (f : Op → Op) : (d.updOp i f).setWait = d.setWait := rfl
@[simp] theorem Dev.updOp_mcmds (d : Dev) (i : Nat) (f : Op → Op) : (d.updOp i f).mcmds = d.mcmds := rfl
@[simp] theorem Dev.updOp_mbrs (d : Dev) (i : Nat) (f : Op → Op) : (d.updOp i f).mbrs = d.mbrs := rfl
@[simp] theorem Dev.updOp_disc (d : Dev) (i : Nat) (f : Op → Op) : (d.updOp i f).disc = d.disc := rfl
@[simp] theorem Dev.updOp_sil (d : Dev) (i : Nat) (f : Op → Op) : (d.updOp i f).sil = d.sil := rfl
@[simp] theorem Dev.updOp_arm (d : Dev) (i : Nat) (f : Op → Op) : (d.updOp i f).arm = d.arm := rfl
@[simp] theorem Dev.updOp_keys (d : Dev) (i : Nat) (f : Op → Op) : (d.updOp i f).keys = d.keys := rfl
@[simp] theorem Dev.updOp_fab (d : Dev) (i : Nat) (f : Op → Op) : (d.updOp i f).fab = d.fab := rfl
@[simp] theorem Dev.updOp_cmds (d : Dev) (i : Nat) (f : Op → Op) : (d.updOp i f).cmds = d.cmds := rfl
@[simp] theorem Dev.updOp_ctlA (d : Dev) (i : Nat) (f : Op → Op) : (d.updOp i f).ctlA = d.ctlA := rfl
@[simp] theorem Dev.updOp_ctlB (d : Dev) (i : Nat) (f : Op → Op) : (d.updOp i f).ctlB = d.ctlB := rfl
@[simp] theorem Dev.updOp_nvm (d : Dev) (i : Nat) (f : Op → Op) : (d.updOp i f).nvm = d.nvm := rfl
@[simp] theorem Dev.updOp_ports (d : Dev) (i : Nat) (f : Op → Op) : (d.updOp i f).ports = d.ports := rfl
@[simp] theorem Dev.updOp_mport (d : Dev) (i : Nat) (f : Op → Op) : (d.updOp i f).mport = d.mport := rfl
@[simp] theorem Dev.updOp_acd (d : Dev) (i : Nat) (f : Op → Op) : (d.updOp i f).acd = d.acd := rfl
@[simp] theorem Dev.updOp_opt (d : Dev) (i : Nat) (f : Op → Op) : (d.updOp i f).opt = d.opt := rfl
@[simp] theorem Dev.updOp_cwq (d : Dev) (i : Nat) (f : Op → Op) : (d.updOp i f).cwq = d.cwq := rfl
@[simp] theorem Dev.updOp_badHost (d : Dev) (i : Nat) (f : Op → Op) : (d.updOp i f).badHost = d.badHost := rfl
@[simp] theorem Dev.updOp_scrubLine (d : Dev) (i : Nat) (f : Op → Op) : (d.updOp i f).scrubLine = d.scrubLine := rfl
@[simp] theorem Dev.updOp_rst (d : Dev) (i : Nat) (f : Op → Op) : (d.updOp i f).rst = d.rst := rfl
@[simp] theorem Dev.updOp_vlt (d : Dev) (i : Nat) (f : Op → Op) : (d.updOp i f).vlt = d.vlt := rfl
@[simp] theorem Dev.updOp_mgmt (d : Dev) (i : Nat) (f : Op → Op) : (d.updOp i f).mgmt = d.mgmt := rfl

@[simp] theorem Dev.dropOp_regs (d : Dev) (i : Nat) : (d.dropOp i).regs = d.regs := rfl
@[simp] theorem Dev.dropOp_bus (d : Dev) (i : Nat) : (d.dropOp i).bus = d.bus := rfl
@[simp] theorem Dev.dropOp_freeCtr (d : Dev) (i : Nat) : (d.dropOp i).freeCtr = d.freeCtr := rfl
@[simp] theorem Dev.dropOp_now (d : Dev) (i : Nat) : (d.dropOp i).now = d.now := rfl
@[simp] theorem Dev.dropOp_emitted (d : Dev) (i : Nat) : (d.dropOp i).emitted = d.emitted := rfl
@[simp] theorem Dev.dropOp_nextId (d : Dev) (i : Nat) : (d.dropOp i).nextId = d.nextId := rfl
@[simp] theorem Dev.dropOp_log (d : Dev) (i : Nat) : (d.dropOp i).log = d.log := rfl
@[simp] theorem Dev.dropOp_jnl (d : Dev) (i : Nat) : (d.dropOp i).jnl = d.jnl := rfl
@[simp] theorem Dev.dropOp_locks (d : Dev) (i : Nat) : (d.dropOp i).locks = d.locks := rfl
@[simp] theorem Dev.dropOp_setWait (d : Dev) (i : Nat) : (d.dropOp i).setWait = d.setWait := rfl
@[simp] theorem Dev.dropOp_mcmds (d : Dev) (i : Nat) : (d.dropOp i).mcmds = d.mcmds := rfl
@[simp] theorem Dev.dropOp_mbrs (d : Dev) (i : Nat) : (d.dropOp i).mbrs = d.mbrs := rfl
@[simp] theorem Dev.dropOp_disc (d : Dev) (i : Nat) : (d.dropOp i).disc = d.disc := rfl
@[simp] theorem Dev.dropOp_sil (d : Dev) (i : Nat) : (d.dropOp i).sil = d.sil := rfl
@[simp] theorem Dev.dropOp_arm (d : Dev) (i : Nat) : (d.dropOp i).arm = d.arm := rfl
@[simp] theorem Dev.dropOp_keys (d : Dev) (i : Nat) : (d.dropOp i).keys = d.keys := rfl
@[simp] theorem Dev.dropOp_fab (d : Dev) (i : Nat) : (d.dropOp i).fab = d.fab := rfl
@[simp] theorem Dev.dropOp_cmds (d : Dev) (i : Nat) : (d.dropOp i).cmds = d.cmds := rfl
@[simp] theorem Dev.dropOp_ctlA (d : Dev) (i : Nat) : (d.dropOp i).ctlA = d.ctlA := rfl
@[simp] theorem Dev.dropOp_ctlB (d : Dev) (i : Nat) : (d.dropOp i).ctlB = d.ctlB := rfl
@[simp] theorem Dev.dropOp_nvm (d : Dev) (i : Nat) : (d.dropOp i).nvm = d.nvm := rfl
@[simp] theorem Dev.dropOp_ports (d : Dev) (i : Nat) : (d.dropOp i).ports = d.ports := rfl
@[simp] theorem Dev.dropOp_mport (d : Dev) (i : Nat) : (d.dropOp i).mport = d.mport := rfl
@[simp] theorem Dev.dropOp_acd (d : Dev) (i : Nat) : (d.dropOp i).acd = d.acd := rfl
@[simp] theorem Dev.dropOp_opt (d : Dev) (i : Nat) : (d.dropOp i).opt = d.opt := rfl
@[simp] theorem Dev.dropOp_cwq (d : Dev) (i : Nat) : (d.dropOp i).cwq = d.cwq := rfl
@[simp] theorem Dev.dropOp_badHost (d : Dev) (i : Nat) : (d.dropOp i).badHost = d.badHost := rfl
@[simp] theorem Dev.dropOp_scrubLine (d : Dev) (i : Nat) : (d.dropOp i).scrubLine = d.scrubLine := rfl
@[simp] theorem Dev.dropOp_rst (d : Dev) (i : Nat) : (d.dropOp i).rst = d.rst := rfl
@[simp] theorem Dev.dropOp_vlt (d : Dev) (i : Nat) : (d.dropOp i).vlt = d.vlt := rfl
@[simp] theorem Dev.dropOp_mgmt (d : Dev) (i : Nat) : (d.dropOp i).mgmt = d.mgmt := rfl

@[simp] theorem Dev.updCmd_regs (d : Dev) (i : Nat) (f : HostCmd → HostCmd) : (d.updCmd i f).regs = d.regs := rfl
@[simp] theorem Dev.updCmd_bus (d : Dev) (i : Nat) (f : HostCmd → HostCmd) : (d.updCmd i f).bus = d.bus := rfl
@[simp] theorem Dev.updCmd_freeCtr (d : Dev) (i : Nat) (f : HostCmd → HostCmd) : (d.updCmd i f).freeCtr = d.freeCtr := rfl
@[simp] theorem Dev.updCmd_now (d : Dev) (i : Nat) (f : HostCmd → HostCmd) : (d.updCmd i f).now = d.now := rfl
@[simp] theorem Dev.updCmd_emitted (d : Dev) (i : Nat) (f : HostCmd → HostCmd) : (d.updCmd i f).emitted = d.emitted := rfl
@[simp] theorem Dev.updCmd_nextId (d : Dev) (i : Nat) (f : HostCmd → HostCmd) : (d.updCmd i f).nextId = d.nextId := rfl
@[simp] theorem Dev.updCmd_log (d : Dev) (i : Nat) (f : HostCmd → HostCmd) : (d.updCmd i f).log = d.log := rfl
@[simp] theorem Dev.updCmd_jnl (d : Dev) (i : Nat) (f : HostCmd → HostCmd) : (d.updCmd i f).jnl = d.jnl := rfl
@[simp] theorem Dev.updCmd_locks (d : Dev) (i : Nat) (f : HostCmd → HostCmd) : (d.updCmd i f).locks = d.locks := rfl
@[simp] theorem Dev.updCmd_setWait (d : Dev) (i : Nat) (f : HostCmd → HostCmd) : (d.updCmd i f).setWait = d.setWait := rfl
@[simp] theorem Dev.updCmd_ops (d : Dev) (i : Nat) (f : HostCmd → HostCmd) : (d.updCmd i f).ops = d.ops := rfl
@[simp] theorem Dev.updCmd_mcmds (d : Dev) (i : Nat) (f : HostCmd → HostCmd) : (d.updCmd i f).mcmds = d.mcmds := rfl
@[simp] theorem Dev.updCmd_mbrs (d : Dev) (i : Nat) (f : HostCmd → HostCmd) : (d.updCmd i f).mbrs = d.mbrs := rfl
@[simp] theorem Dev.updCmd_disc (d : Dev) (i : Nat) (f : HostCmd → HostCmd) : (d.updCmd i f).disc = d.disc := rfl
@[simp] theorem Dev.updCmd_sil (d : Dev) (i : Nat) (f : HostCmd → HostCmd) : (d.updCmd i f).sil = d.sil := rfl
@[simp] theorem Dev.updCmd_arm (d : Dev) (i : Nat) (f : HostCmd → HostCmd) : (d.updCmd i f).arm = d.arm := rfl
@[simp] theorem Dev.updCmd_keys (d : Dev) (i : Nat) (f : HostCmd → HostCmd) : (d.updCmd i f).keys = d.keys := rfl
@[simp] theorem Dev.updCmd_fab (d : Dev) (i : Nat) (f : HostCmd → HostCmd) : (d.updCmd i f).fab = d.fab := rfl
@[simp] theorem Dev.updCmd_ctlA (d : Dev) (i : Nat) (f : HostCmd → HostCmd) : (d.updCmd i f).ctlA = d.ctlA := rfl
@[simp] theorem Dev.updCmd_ctlB (d : Dev) (i : Nat) (f : HostCmd → HostCmd) : (d.updCmd i f).ctlB = d.ctlB := rfl
@[simp] theorem Dev.updCmd_nvm (d : Dev) (i : Nat) (f : HostCmd → HostCmd) : (d.updCmd i f).nvm = d.nvm := rfl
@[simp] theorem Dev.updCmd_ports (d : Dev) (i : Nat) (f : HostCmd → HostCmd) : (d.updCmd i f).ports = d.ports := rfl
@[simp] theorem Dev.updCmd_mport (d : Dev) (i : Nat) (f : HostCmd → HostCmd) : (d.updCmd i f).mport = d.mport := rfl
@[simp] theorem Dev.updCmd_acd (d : Dev) (i : Nat) (f : HostCmd → HostCmd) : (d.updCmd i f).acd = d.acd := rfl
@[simp] theorem Dev.updCmd_opt (d : Dev) (i : Nat) (f : HostCmd → HostCmd) : (d.updCmd i f).opt = d.opt := rfl
@[simp] theorem Dev.updCmd_cwq (d : Dev) (i : Nat) (f : HostCmd → HostCmd) : (d.updCmd i f).cwq = d.cwq := rfl
@[simp] theorem Dev.updCmd_badHost (d : Dev) (i : Nat) (f : HostCmd → HostCmd) : (d.updCmd i f).badHost = d.badHost := rfl
@[simp] theorem Dev.updCmd_scrubLine (d : Dev) (i : Nat) (f : HostCmd → HostCmd) : (d.updCmd i f).scrubLine = d.scrubLine := rfl
@[simp] theorem Dev.updCmd_rst (d : Dev) (i : Nat) (f : HostCmd → HostCmd) : (d.updCmd i f).rst = d.rst := rfl
@[simp] theorem Dev.updCmd_vlt (d : Dev) (i : Nat) (f : HostCmd → HostCmd) : (d.updCmd i f).vlt = d.vlt := rfl
@[simp] theorem Dev.updCmd_mgmt (d : Dev) (i : Nat) (f : HostCmd → HostCmd) : (d.updCmd i f).mgmt = d.mgmt := rfl

@[simp] theorem Dev.emit_emitted (d : Dev) (e : Emit) : (d.emit e).emitted = d.emitted ++ [e] := rfl
@[simp] theorem Dev.emit_reg (d : Dev) (e : Emit) (a : Nat) : (d.emit e).reg a = d.reg a := rfl
@[simp] theorem State.tick_pending (s : State) : s.tick.pending = s.pending := rfl
@[simp] theorem State.tick_mem (s : State) : s.tick.mem = s.mem := rfl
@[simp] theorem State.tick_reg (s : State) (a : Nat) : s.tick.dev.reg a = s.dev.reg a := rfl
@[simp] theorem runState_pending (s : State) (f : Dev → Dev) : (runState s f).pending = s.pending := rfl
@[simp] theorem runState_mem (s : State) (f : Dev → Dev) : (runState s f).mem = (runDev f s.dev).emitted.foldl applyHbm s.mem := rfl
@[simp] theorem runState_dev (s : State) (f : Dev → Dev) : (runState s f).dev = runDev f s.dev := rfl
theorem lift_next (s : State) (f : Dev → Dev) : lift s f = .next (runState s f) := rfl

end Sys2Proof.Machine
end

