-- ==== Sys2Proof/Laws/Memory.lean ====
section
/-!
SUPPORT. Buffer memory's host area: reading after writing, and that every operation keeps the canonical form.
-/
namespace Sys2Proof.Machine

/-- An address below every listed one reads 0. -/
theorem Memory.read_below (m : Memory) (a : Nat) (h : ∀ c ∈ m, a < c.1) : Memory.read m a = 0 := by
  induction m with
  | nil => rfl
  | cons c m ih =>
    obtain ⟨k, v⟩ := c
    have hk : a < k := h (k, v) (by simp)
    have : k ≠ a := by omega
    simp [Memory.read, this, ih fun c hc => h c (by simp [hc])]

/-- The canonical form of a list is that of its tail, with its head below it and not zero. -/
theorem Memory.wf_cons (k : Nat) (v : Byte) (m : Memory) :
    Memory.wf ((k, v) :: m) ↔ (∀ c ∈ m, k < c.1) ∧ v ≠ 0 ∧ Memory.wf m := by
  simp only [Memory.wf, List.pairwise_cons, List.mem_cons, forall_eq_or_imp]
  tauto

/-- Addresses after a write are the old ones and the one written. -/
theorem Memory.write_keys (m : Memory) (a : Nat) (b : Byte) (c : Host.Cell) (h : c ∈ Memory.write m a b) : c.1 = a ∨ ∃ d ∈ m, d.1 = c.1 := by
  induction m with
  | nil =>
    by_cases hb : b = 0
    · simp [Memory.write, hb] at h
    · simp only [Memory.write, hb, if_false, List.mem_singleton] at h
      exact .inl (by rw [h])
  | cons d m ih =>
    obtain ⟨k, v⟩ := d
    simp only [Memory.write] at h
    split at h
    · split at h
      · exact .inr ⟨c, h, rfl⟩
      · rcases List.mem_cons.1 h with rfl | h
        · exact .inl rfl
        · exact .inr ⟨c, h, rfl⟩
    · split at h
      · split at h
        · exact .inr ⟨c, List.mem_cons_of_mem _ h, rfl⟩
        · rename_i hk _
          rcases List.mem_cons.1 h with rfl | h
          · exact .inl hk.symm
          · exact .inr ⟨c, List.mem_cons_of_mem _ h, rfl⟩
      · rcases List.mem_cons.1 h with rfl | h
        · exact .inr ⟨_, List.mem_cons_self, rfl⟩
        · rcases ih h with h | ⟨d, hd, e⟩
          · exact .inl h
          · exact .inr ⟨d, List.mem_cons_of_mem _ hd, e⟩

/-- A write keeps the canonical form. -/
theorem Memory.write_wf (m : Memory) (a : Nat) (b : Byte) (h : Memory.wf m) : Memory.wf (Memory.write m a b) := by
  induction m with
  | nil =>
    by_cases hb : b = 0
    · simp [Memory.write, Memory.wf, hb]
    · rw [Memory.write, if_neg hb]
      exact ⟨List.pairwise_singleton .., fun c hc => by rw [List.mem_singleton.1 hc]; exact hb⟩
  | cons d m ih =>
    obtain ⟨k, v⟩ := d
    obtain ⟨h1, h2, h3⟩ := (Memory.wf_cons k v m).1 h
    simp only [Memory.write]
    split
    · split
      · exact h
      · rename_i hk hb
        refine (Memory.wf_cons a b _).2 ⟨fun c hc => ?_, hb, h⟩
        rcases List.mem_cons.1 hc with rfl | hc
        · exact hk
        · exact Nat.lt_trans hk (h1 c hc)
    · split
      · split
        · exact h3
        · rename_i hb
          exact (Memory.wf_cons k b m).2 ⟨h1, hb, h3⟩
      · rename_i hlt hne
        refine (Memory.wf_cons k v _).2 ⟨fun c hc => ?_, h2, ih h3⟩
        rcases Memory.write_keys m a b c hc with e | ⟨d, hd, e⟩
        · omega
        · exact e ▸ h1 d hd

/-- A byte that was written reads as written. -/
theorem Memory.read_write_same (m : Memory) (a : Nat) (b : Byte) (h : Memory.wf m) : Memory.read (Memory.write m a b) a = b := by
  induction m with
  | nil =>
    by_cases hb : b = 0
    · simp [Memory.write, Memory.read, hb]
    · rw [Memory.write, if_neg hb]
      simp [Memory.read]
  | cons d m ih =>
    obtain ⟨k, v⟩ := d
    obtain ⟨h1, h2, h3⟩ := (Memory.wf_cons k v m).1 h
    simp only [Memory.write]
    split
    · rename_i hk
      split
      · rename_i hb
        rw [hb]
        refine Memory.read_below _ a fun c hc => ?_
        rcases List.mem_cons.1 hc with rfl | hc
        · exact hk
        · exact Nat.lt_trans hk (h1 c hc)
      · simp [Memory.read]
    · split
      · rename_i hk
        split
        · rename_i hb
          rw [hb]
          exact Memory.read_below _ a fun c hc => hk ▸ h1 c hc
        · simp [Memory.read, hk]
      · rename_i hk
        have : k ≠ a := fun e => hk e.symm
        simp [Memory.read, this, ih h3]

/-- A write leaves every other byte. -/
theorem Memory.read_write_ne (m : Memory) (a c : Nat) (b : Byte) (h : Memory.wf m) (hne : c ≠ a) :
    Memory.read (Memory.write m a b) c = Memory.read m c := by
  have hne' : a ≠ c := fun e => hne e.symm
  induction m with
  | nil =>
    by_cases hb : b = 0
    · simp [Memory.write, Memory.read, hb]
    · rw [Memory.write, if_neg hb]
      simp [Memory.read, hne']
  | cons d m ih =>
    obtain ⟨k, v⟩ := d
    obtain ⟨h1, h2, h3⟩ := (Memory.wf_cons k v m).1 h
    simp only [Memory.write]
    split
    · split
      · rfl
      · simp [Memory.read, hne']
    · split
      · rename_i hk
        have hkc : k ≠ c := hk ▸ hne'
        split <;> simp [Memory.read, hkc]
      · simp only [Memory.read, ih h3]

/-- Writing bytes keeps the canonical form. -/
theorem Memory.writeBytes_wf (m : Memory) (a : Nat) (bs : List Byte) (h : Memory.wf m) : Memory.wf (Memory.writeBytes m a bs) := by
  induction bs generalizing m a with
  | nil => exact h
  | cons b bs ih => exact ih _ _ (Memory.write_wf m a b h)

/-- Bytes outside those written are left. -/
theorem Memory.read_writeBytes_outside (m : Memory) (a c : Nat) (bs : List Byte) (h : Memory.wf m) (hc : c < a ∨ a + bs.length ≤ c) :
    Memory.read (Memory.writeBytes m a bs) c = Memory.read m c := by
  induction bs generalizing m a with
  | nil => rfl
  | cons b bs ih =>
    simp only [List.length_cons] at hc
    rw [Memory.writeBytes, ih _ _ (Memory.write_wf m a b h) (by omega), Memory.read_write_ne m a c b h (by omega)]

/-- Bytes that were written read as written. -/
theorem Memory.read_writeBytes_inside (m : Memory) (a i : Nat) (bs : List Byte) (h : Memory.wf m) (hi : i < bs.length) :
    Memory.read (Memory.writeBytes m a bs) (a + i) = bs.getD i 0 := by
  induction bs generalizing m a i with
  | nil => exact absurd hi (Nat.not_lt_zero i)
  | cons b bs ih =>
    cases i with
    | zero =>
      show Memory.read (Memory.writeBytes (Memory.write m a b) (a + 1) bs) a = b
      rw [Memory.read_writeBytes_outside _ _ _ _ (Memory.write_wf m a b h) (by omega), Memory.read_write_same m a b h]
    | succ i =>
      have hlt : i < bs.length := by simpa using hi
      rw [Memory.writeBytes, show a + (i + 1) = a + 1 + i by omega, ih _ _ _ (Memory.write_wf m a b h) hlt]
      rfl

/-! ### Check bytes -/

/-- The metadata bytes of a line lie above the internal addresses. -/
theorem le_metaAt (line : Nat) : 2 ^ 48 ≤ metaAt line := by unfold metaAt; omega

/-- Fresh check bytes keep the canonical form. -/
theorem Memory.seal_wf (m : Memory) (line : Nat) (h : Memory.wf m) : Memory.wf (Memory.seal m line) := Memory.writeBytes_wf _ _ _ h

/-- Fresh check bytes leave every internal address. -/
theorem Memory.read_seal (m : Memory) (line a : Nat) (h : Memory.wf m) (ha : a < 2 ^ 48) : Memory.read (Memory.seal m line) a = Memory.read m a :=
  Memory.read_writeBytes_outside _ _ _ _ h (.inl (Nat.lt_of_lt_of_le ha (le_metaAt line)))

/-- Fresh check bytes of some lines keep the canonical form and leave every internal address. -/
theorem Memory.foldl_seal (ls : List Nat) (m : Memory) (h : Memory.wf m) :
    Memory.wf (ls.foldl Memory.seal m) ∧ ∀ a < 2 ^ 48, Memory.read (ls.foldl Memory.seal m) a = Memory.read m a := by
  induction ls generalizing m with
  | nil => exact ⟨h, fun _ _ => rfl⟩
  | cons l ls ih =>
    obtain ⟨h1, h2⟩ := ih (Memory.seal m l) (Memory.seal_wf m l h)
    rw [List.foldl_cons]
    refine ⟨h1, fun a ha => ?_⟩
    rw [h2 a ha, Memory.read_seal m l a h ha]

/-- A store keeps the canonical form. -/
theorem Memory.store_wf (m : Memory) (a : Nat) (bs : List Byte) (h : Memory.wf m) : Memory.wf (Memory.store m a bs) :=
  (Memory.foldl_seal _ _ (Memory.writeBytes_wf m a bs h)).1

/-- A store leaves every internal address outside the bytes stored. -/
theorem Memory.read_store_outside (m : Memory) (a c : Nat) (bs : List Byte) (h : Memory.wf m) (hc : c < a ∨ a + bs.length ≤ c) (hi : c < 2 ^ 48) :
    Memory.read (Memory.store m a bs) c = Memory.read m c :=
  ((Memory.foldl_seal _ _ (Memory.writeBytes_wf m a bs h)).2 c hi).trans (Memory.read_writeBytes_outside m a c bs h hc)

/-- Stored bytes read as stored. -/
theorem Memory.read_store_inside (m : Memory) (a i : Nat) (bs : List Byte) (h : Memory.wf m) (hi : i < bs.length) (ha : a + i < 2 ^ 48) :
    Memory.read (Memory.store m a bs) (a + i) = bs.getD i 0 :=
  ((Memory.foldl_seal _ _ (Memory.writeBytes_wf m a bs h)).2 _ ha).trans (Memory.read_writeBytes_inside m a i bs h hi)

/-- What a command sends to the host area keeps the canonical form. -/
theorem applyHbm_wf (m : Memory) (e : Emit) (h : Memory.wf m) : Memory.wf (applyHbm m e) := by
  cases e with
  | hbm a bs => simp only [applyHbm]; exact Memory.store_wf m a bs h
  | hbmZero => exact ⟨List.Pairwise.nil, fun _ hc => absurd hc List.not_mem_nil⟩
  | _ => exact h

end Sys2Proof.Machine
end

