-- ==== Sys2Proof/Laws/Registers.lean ====
section
/-!
SUPPORT. Sparse maps, bit ranges and registers: reading back what was set, and what setting one register or field leaves alone.
-/
namespace Sys2Proof

/-! ### Bit ranges -/

/-- The bits of a word after a bit range is replaced: the new ones inside the range, the old ones outside. -/
theorem setBits_testBit (v hi lo x i : Nat) (h : lo ≤ hi) :
    (setBits v hi lo x).testBit i = if lo ≤ i ∧ i ≤ hi then x.testBit (i - lo) else v.testBit i := by
  have hv : v = 2 ^ lo * (2 ^ (hi + 1 - lo) * (v / 2 ^ lo / 2 ^ (hi + 1 - lo)) + (v / 2 ^ lo) % 2 ^ (hi + 1 - lo)) + v % 2 ^ lo := by
    rw [Nat.div_add_mod, Nat.div_add_mod]
  have hs : setBits v hi lo x =
      2 ^ lo * (2 ^ (hi + 1 - lo) * (v / 2 ^ lo / 2 ^ (hi + 1 - lo)) + x % 2 ^ (hi + 1 - lo)) + v % 2 ^ lo := by
    simp only [setBits, bitsOf, Nat.shiftRight_eq_div_pow]
    generalize x % 2 ^ (hi + 1 - lo) = y
    generalize hq : v / 2 ^ lo / 2 ^ (hi + 1 - lo) = q at hv ⊢
    generalize hm : v / 2 ^ lo % 2 ^ (hi + 1 - lo) = m at hv ⊢
    generalize v % 2 ^ lo = r at hv ⊢
    generalize 2 ^ lo = a at hv ⊢
    generalize 2 ^ (hi + 1 - lo) = b at hv ⊢
    have e1 : a * (b * q + m) = a * (b * q) + a * m := Nat.mul_add ..
    have e2 : a * (b * q + y) = a * (b * q) + a * y := Nat.mul_add ..
    have e3 : m * a = a * m := Nat.mul_comm ..
    have e4 : y * a = a * y := Nat.mul_comm ..
    omega
  have hlow : v % 2 ^ lo < 2 ^ lo := Nat.mod_lt _ (Nat.two_pow_pos _)
  rw [hs, Nat.testBit_two_pow_mul_add _ hlow, Nat.testBit_two_pow_mul_add _ (Nat.mod_lt _ (Nat.two_pow_pos _))]
  simp only [Nat.testBit_mod_two_pow, Nat.testBit_div_two_pow]
  by_cases h1 : i < lo
  · have : ¬(lo ≤ i ∧ i ≤ hi) := by omega
    simp [h1, this]
  · by_cases h2 : i ≤ hi
    · have h3 : i - lo < hi + 1 - lo := by omega
      have h4 : lo ≤ i ∧ i ≤ hi := by omega
      simp [h1, h3, h4]
    · have h3 : ¬ (i - lo < hi + 1 - lo) := by omega
      have h4 : ¬(lo ≤ i ∧ i ≤ hi) := by omega
      have h5 : i - lo - (hi + 1 - lo) + (hi + 1 - lo) + lo = i := by omega
      simp [h1, h3, h4, h5]

/-- A bit of a bit range. -/
theorem bitsOf_testBit (v hi lo i : Nat) : (bitsOf v hi lo).testBit i = (decide (i < hi + 1 - lo) && v.testBit (lo + i)) := by
  simp [bitsOf, Nat.testBit_mod_two_pow, Nat.testBit_shiftRight]

/-- Reading back the range that was replaced. -/
theorem bitsOf_setBits_same (v hi lo x : Nat) (h : lo ≤ hi) : bitsOf (setBits v hi lo x) hi lo = x % 2 ^ (hi + 1 - lo) := by
  apply Nat.eq_of_testBit_eq
  intro i
  rw [bitsOf_testBit, setBits_testBit _ _ _ _ _ h, Nat.testBit_mod_two_pow]
  by_cases h1 : i < hi + 1 - lo
  · have : lo ≤ lo + i ∧ lo + i ≤ hi := by omega
    simp [h1, this]
  · simp [h1]

/-- A range that shares no bit with the one replaced keeps its value. -/
theorem bitsOf_setBits_disjoint (v hi lo x hi' lo' : Nat) (h : lo ≤ hi) (hd : hi' < lo ∨ hi < lo') :
    bitsOf (setBits v hi lo x) hi' lo' = bitsOf v hi' lo' := by
  apply Nat.eq_of_testBit_eq
  intro i
  rw [bitsOf_testBit, bitsOf_testBit, setBits_testBit _ _ _ _ _ h]
  by_cases h1 : i < hi' + 1 - lo'
  · have : ¬(lo ≤ lo' + i ∧ lo' + i ≤ hi) := by omega
    simp [h1, this]
  · simp [h1]

/-- A bit range below bit 64 is the same in a number and in its low 64 bits. -/
theorem bitsOf_mod_two_pow (v hi lo : Nat) (h : hi < 64) : bitsOf (v % 2 ^ 64) hi lo = bitsOf v hi lo := by
  apply Nat.eq_of_testBit_eq
  intro i
  rw [bitsOf_testBit, bitsOf_testBit, Nat.testBit_mod_two_pow]
  by_cases h1 : i < hi + 1 - lo
  · have : lo + i < 64 := by omega
    simp [h1, this]
  · simp [h1]

/-- Reading back a replaced range of a 64-bit value. -/
theorem DWord.bits_withBits_same (v : DWord) (hi lo x : Nat) (h : lo ≤ hi) (h64 : hi < 64) :
    (v.withBits hi lo x).bits hi lo = x % 2 ^ (hi + 1 - lo) := by
  rw [DWord.bits, DWord.withBits, BitVec.toNat_ofNat, bitsOf_mod_two_pow _ _ _ h64, bitsOf_setBits_same _ _ _ _ h]

/-- A range apart from the replaced one. -/
theorem DWord.bits_withBits_disjoint (v : DWord) (hi lo x hi' lo' : Nat) (h : lo ≤ hi) (h64 : hi' < 64) (hd : hi' < lo ∨ hi < lo') :
    (v.withBits hi lo x).bits hi' lo' = v.bits hi' lo' := by
  rw [DWord.bits, DWord.withBits, BitVec.toNat_ofNat, bitsOf_mod_two_pow _ _ _ h64, bitsOf_setBits_disjoint _ _ _ _ _ _ h hd, DWord.bits]

namespace Machine

/-! ### Sparse maps -/

theorem AMap.get_erase_same {α : Type} (m : AMap α) (a : Nat) : AMap.get (AMap.erase m a) a = none := by
  induction m with
  | nil => rfl
  | cons c m ih =>
    obtain ⟨k, v⟩ := c
    by_cases h : k = a <;> simp [AMap.erase, AMap.get, h, ih]

theorem AMap.get_erase_ne {α : Type} (m : AMap α) (a b : Nat) (h : b ≠ a) : AMap.get (AMap.erase m a) b = AMap.get m b := by
  induction m with
  | nil => rfl
  | cons c m ih =>
    obtain ⟨k, v⟩ := c
    by_cases h1 : k = a
    · subst h1
      have : k ≠ b := fun e => h e.symm
      simp [AMap.erase, AMap.get, ih, this]
    · simp [AMap.erase, AMap.get, h1, ih]

theorem AMap.get_put_same {α : Type} (m : AMap α) (a : Nat) (x : α) : AMap.get (AMap.put m a x) a = some x := by
  induction m with
  | nil => simp [AMap.put, AMap.get]
  | cons c m ih =>
    obtain ⟨k, v⟩ := c
    by_cases h1 : k = a
    · simp [AMap.put, h1, ih]
    · by_cases h2 : a < k <;> simp [AMap.put, AMap.get, h1, h2, ih]

theorem AMap.get_put_ne {α : Type} (m : AMap α) (a b : Nat) (x : α) (h : b ≠ a) : AMap.get (AMap.put m a x) b = AMap.get m b := by
  have h' : a ≠ b := fun e => h e.symm
  induction m with
  | nil => simp [AMap.put, AMap.get, h']
  | cons c m ih =>
    obtain ⟨k, v⟩ := c
    by_cases h1 : k = a
    · subst h1
      simp [AMap.put, AMap.get, ih, h']
    · by_cases h2 : a < k
      · simp [AMap.put, AMap.get, h1, h2, h', AMap.get_erase_ne _ _ _ h]
      · simp [AMap.put, AMap.get, h1, h2, ih]

/-! ### Registers -/

/-- A register that was set reads as set. -/
@[simp] theorem Dev.reg_setReg_same (d : Dev) (a : Nat) (v : DWord) : (d.setReg a v).reg a = v := by
  by_cases h : v = regInitOf a
  · simp [Dev.reg, Dev.setReg, h, AMap.get_erase_same]
  · simp [Dev.reg, Dev.setReg, h, AMap.get_put_same]

/-- Setting a register leaves every other one. -/
theorem Dev.reg_setReg_ne (d : Dev) (a b : Nat) (v : DWord) (h : b ≠ a) : (d.setReg a v).reg b = d.reg b := by
  by_cases hv : v = regInitOf a
  · simp [Dev.reg, Dev.setReg, hv, AMap.get_erase_ne _ _ _ h]
  · simp [Dev.reg, Dev.setReg, hv, AMap.get_put_ne _ _ _ _ h]

/-- A field's range has its bits in order and within 64. -/
def FldOk (f : Fld) : Prop := f.lo ≤ f.hi ∧ f.hi < 64

/-- A field that was set reads as set, cut to its width. -/
theorem Dev.gi_pi_same (d : Dev) (f : Fld) (i x : Nat) (h : FldOk f) : (d.pi f i x).gi f i = x % 2 ^ (f.hi + 1 - f.lo) := by
  simp [Dev.gi, Dev.pi, DWord.bits_withBits_same _ _ _ _ h.1 h.2]

/-- Setting a field leaves every field of another register. -/
theorem Dev.gi_pi_other (d : Dev) (f g : Fld) (i j x : Nat) (h : g.base + j * g.stride ≠ f.base + i * f.stride) :
    (d.pi f i x).gi g j = d.gi g j := by
  simp [Dev.gi, Dev.pi, Dev.reg_setReg_ne _ _ _ _ h]

/-- Setting a field leaves the fields of the same register that share no bit with it. -/
theorem Dev.gi_pi_apart (d : Dev) (f g : Fld) (i j x : Nat) (hf : FldOk f) (hg : FldOk g)
    (hb : g.base + j * g.stride = f.base + i * f.stride) (hd : g.hi < f.lo ∨ f.hi < g.lo) : (d.pi f i x).gi g j = d.gi g j := by
  simp [Dev.gi, Dev.pi, hb, DWord.bits_withBits_disjoint _ _ _ _ _ _ hf.1 hg.2 hd]

/-- Setting a field leaves every other register. -/
theorem Dev.reg_pi_other (d : Dev) (f : Fld) (i x a : Nat) (h : a ≠ f.base + i * f.stride) : (d.pi f i x).reg a = d.reg a := by
  simp [Dev.pi, Dev.reg_setReg_ne _ _ _ _ h]

theorem Dev.g_p_same (d : Dev) (f : Fld) (x : Nat) (h : FldOk f) : (d.p f x).g f = x % 2 ^ (f.hi + 1 - f.lo) := Dev.gi_pi_same d f 0 x h

theorem Dev.g_p_other (d : Dev) (f g : Fld) (x : Nat) (h : g.base ≠ f.base) : (d.p f x).g g = d.g g :=
  Dev.gi_pi_other d f g 0 0 x (by simpa using h)

theorem Dev.g_p_apart (d : Dev) (f g : Fld) (x : Nat) (hf : FldOk f) (hg : FldOk g) (hb : g.base = f.base)
    (hd : g.hi < f.lo ∨ f.hi < g.lo) : (d.p f x).g g = d.g g := Dev.gi_pi_apart d f g 0 0 x hf hg (by simpa using hb) hd

theorem Dev.reg_p_other (d : Dev) (f : Fld) (x a : Nat) (h : a ≠ f.base) : (d.p f x).reg a = d.reg a :=
  Dev.reg_pi_other d f 0 x a (by simpa using h)

/-- A field is below its width. -/
theorem Dev.g_lt (d : Dev) (f : Fld) : d.g f < 2 ^ (f.hi + 1 - f.lo) := Nat.mod_lt _ (Nat.two_pow_pos _)

/-- A saturating counter never falls. -/
theorem Dev.inc_counts (d : Dev) (f : Fld) (h : FldOk f) : (d.inc f).g f = min (d.g f + 1) (2 ^ (f.hi + 1 - f.lo) - 1) := by
  have hp : 0 < 2 ^ (f.hi + 1 - f.lo) := Nat.two_pow_pos _
  rw [Dev.inc, Dev.incBy, Dev.g_p_same d f _ h, fldMax]
  exact Nat.mod_eq_of_lt (by omega)

end Machine

end Sys2Proof
end

