-- ==== Sys2Proof/Laws/Lift.lean ====
section
/-!
SUPPORT. What every command shares: it answers a next state, keeps the queue, and changes the host area only by what it sends there; and the
next state of a command that sends neither into the host area nor to the vault.
-/
namespace Sys2Proof.Machine

/-- Something sent that neither stores into the host area nor accesses the vault. -/
def Emit.plain : Emit → Bool
  | .hbm _ _ => false
  | .hbmZero => false
  | .vault _ _ => false
  | _ => true

/-- The device as a command finds it: nothing sent yet. -/
def State.fresh (s : State) : Dev := { s.dev with emitted := [] }

@[simp] theorem State.fresh_emitted (s : State) : s.fresh.emitted = [] := rfl
@[simp] theorem State.fresh_reg (s : State) (a : Nat) : s.fresh.reg a = s.dev.reg a := rfl
@[simp] theorem State.fresh_g (s : State) (f : Fld) : s.fresh.g f = s.dev.g f := rfl
@[simp] theorem State.fresh_on (s : State) (f : Fld) : s.fresh.on f = s.dev.on f := rfl

/-- Plain output leaves the host area. -/
theorem foldl_plain (es : List Emit) (m : Memory) (h : es.all Emit.plain = true) : es.foldl applyHbm m = m := by
  induction es generalizing m with
  | nil => rfl
  | cons e es ih =>
    simp only [List.all_cons, Bool.and_eq_true] at h
    rw [List.foldl_cons, ih _ h.2]
    cases e <;> first | rfl | exact absurd h.1 (by simp [Emit.plain])

/-- Plain output is no vault access. -/
theorem any_vault_plain (es : List Emit) (h : es.all Emit.plain = true) : es.any Emit.isVault = false := by
  induction es with
  | nil => rfl
  | cons e es ih =>
    simp only [List.all_cons, Bool.and_eq_true] at h
    rw [List.any_cons, ih h.2]
    cases e <;> first | rfl | exact absurd h.1 (by simp [Emit.plain])

/-- A command whose output is plain: the device after its operation, and nothing else. -/
theorem lift_plain (s : State) (f : Dev → Dev) (h : (f s.fresh).emitted.all Emit.plain = true) :
    lift s f = .next { s with dev := f s.fresh } := by
  have hv := any_vault_plain _ h
  have hr : runDev f s.dev = f s.fresh := by
    show (if (f s.fresh).emitted.any Emit.isVault then _ else f s.fresh) = _
    rw [hv]; rfl
  have hm := foldl_plain _ s.mem h
  rw [lift_next]
  show Host.Outcome.next (State.mk s.pending ((runDev f s.dev).emitted.foldl applyHbm s.mem) (runDev f s.dev)) = _
  rw [hr, hm]

/-- Every command answers a next state, by one operation on the device. -/
theorem exec_lift (c : Instr) (s : State) : ∃ f : Dev → Dev, exec c s = .next (runState s f) := by
  cases c <;> exact ⟨_, rfl⟩

end Sys2Proof.Machine
end

