-- ==== Sys2Proof/Tests/Slice0.lean ====
section
/-!
SUPPORT. Small tests: ill-formed commands are refused by the check that names them, results that the spec's own examples and standard check
values give, and for each statement states that meet its hypotheses, clause by clause.
-/
namespace Sys2Proof.Tests

open Sys2Proof.Machine

set_option maxRecDepth 10000
set_option Elab.async false

/-! ### Well-formedness: an ill-formed command for each check -/

/-- A one-block host command on port A, queue 1. -/
def io : HostIo := ⟨false, 1, 7, 1, 0, 1, false, false, 0, 0, 0, 0, []⟩

theorem test_wf_accesses :
    (Instr.registerWrite .portA 2 0).problem = some .offset ∧ (Instr.unalignedAccess .portA 4 true 4).problem = some .aligned ∧
    (Instr.clearingCounterWrite .mgmt 3 0).problem = some .counter ∧ (Instr.bar4Read false 0 0).problem = some .length ∧
    (Instr.excCheckpointDurable 7).problem = some .copies ∧ (Instr.bufUncorrectableLine (72 * 2 ^ 30) 0 false (List.replicate 72 0) .freeSet .rewritten).problem = some .address ∧
    (Instr.bufUncorrectableLine 0 4 false (List.replicate 72 0) .freeSet .rewritten).problem = some .source ∧ (Instr.mirrorAck (2 ^ 64)).problem = some .sequence := by
  decide +kernel

theorem test_wf_host_commands :
    (Instr.write { io with nlb := 0 } [] []).problem = some .hostCommand ∧ (Instr.write io [] []).problem = some .blocks ∧
    (Instr.write io [0] [[], []]).problem = some .metadata ∧ (Instr.datasetManagement io true []).problem = some .ranges ∧
    (Instr.keepAlive false (2 ^ 16)).problem = some .identifier ∧ (Instr.nvmeSqDoorbell false (2 ^ 16) 0).problem = some .queue ∧
    (Instr.createIoSq false 1 1 2 1 4).problem = some .priority ∧ (Instr.createIoCq false 1 1 2 (2 ^ 16) true).problem = some .vector ∧
    (Instr.identify false 1 256 0 0).problem = some .page ∧ (Instr.getFeatures false 1 256 0 0 0).problem = some .feature ∧
    (Instr.firmwareCommit false 1 8 0).problem = some .word := by
  decide +kernel

theorem test_wf_blocks :
    (Instr.destageSettleExpiry 64 0).problem = some .stripe ∧ (Instr.keySwitch (2 ^ 32)).problem = some .nsid ∧
    (Instr.keySlotErased 1024).problem = some .keySlot ∧ (Instr.diePllLock 2).problem = some .die ∧ (Instr.regionHoldExpiry 8).problem = some .region ∧
    (Instr.clusterHoldExpiry 32).problem = some .cluster ∧ (Instr.unitFault 256 false).problem = some .unit ∧
    (Instr.fabWatchWrite .mgmt 256).problem = some .mask ∧ (Instr.chnStart .mgmt 512).problem = some .channel ∧
    (Instr.chnSemWrite .mgmt 0 4 0).problem = some .semaphore ∧ (Instr.sqEnable .mgmt 1024).problem = some .sq ∧
    (Instr.cqEnable .mgmt 256).problem = some .cq ∧ (Instr.blockResetExit 4 0 true).problem = some .block := by
  decide +kernel

theorem test_wf_ports :
    (Instr.flr false 2).problem = some .function ∧ (Instr.hostCompletion false (2 ^ 14) .abort).problem = some .tag ∧
    (Instr.portPllLockLoss 14).problem = some .clock ∧ (Instr.memberLinkDown 48 []).problem = some .link ∧
    (Instr.memberSurpriseRemoval 0 [1, 2, 3, 4, 5]).problem = some .downstream ∧ (Instr.memberQuiet 2048).problem = some .member ∧
    (Instr.mbrFormat .mgmt (2 ^ 16) false).problem = some .ordinal ∧ (Instr.slotPowerOn .mgmt false 48).problem = some .slot ∧
    (Instr.quiet (2 ^ 64)).problem = some .pools ∧ (Instr.thermalSample []).problem = some .readings ∧ (Instr.read io).wf = true := by
  decide +kernel

theorem test_wf_lengths :
    (Instr.patrolScrub false [] .freeSet .rewritten).problem = some .length ∧ (Instr.memberAerError 0 [] 256 0 false none).problem = some .function ∧
    (Instr.peerWindowRequest false (2 ^ 64) 1).problem = some .address ∧ (Instr.peerWindowRequest false 0 0).problem = some .length ∧
    (Instr.key 1 0 1 (2 ^ 576)).problem = some .length ∧ (Instr.key 3 0 1 0).problem = some .word := by
  decide +kernel

/-! ### Results that the spec or a standard gives -/

/-- The bytes of the string 123456789. -/
def digits : List Byte := (List.range 9).map fun i => BitVec.ofNat 8 (0x31 + i)

/-- The check value of CRC-32C (Castagnoli) for 123456789. -/
theorem test_crc32c_check : crc32c digits = 0xE3069283 := by decide +kernel

/-- 0x80 times 2 in GF(2^8) with the polynomial 0x11D is 0x1D (table 2-2). -/
theorem test_gf8_reduces : (gfMul 8 0x80 2) = 0x1D := by decide +kernel

/-! ### States for the statements -/

/-- The device after reset with some fields set, and then changed. -/
def tDev (xs : List (Fld × Nat)) (f : Dev → Dev := id) : Dev := f (xs.foldl (fun (d : Dev) x => d.p x.1 x.2) Dev.reset)

/-- The machine with that device, nothing waiting and nothing in memory. -/
def tSt (xs : List (Fld × Nat)) (f : Dev → Dev := id) : State := ⟨[], [], tDev xs f⟩

theorem tSt_commands : (tSt []).dev.commands .mgmt := by unfold Dev.commands; decide +kernel

/-- The state after a command. -/
def after (i : Instr) (s : State) : State := match exec i s with | .next t => t | _ => s

/-- Port B up with its PF1 taking requests. -/
def portBUp : State := tSt [] fun d => d.updPort true fun p => { p with up := true, pf1 := { p.pf1 with mse := true } }

/-- The example of chapter 19: port B, not primary, tries to set NO_SLEEP. -/
theorem test_ignored_write_counts :
    let t := after (.registerWrite .portB 0x60008 0x8001F402) portBUp
    t.dev.reg 0x60008 = 0x1F402 ∧ t.dev.reg 0x10008 = 1 ∧ t.dev.reg 0x10010 = 0x4000000000060008 := by decide +kernel

/-- The example of chapter 19: writing back the value read is not counted. -/
theorem test_write_back_not_counted : (after (.registerWrite .portB 0x60008 0x1F402) portBUp).dev.reg 0x10008 = 0 := by decide +kernel

/-- The example of chapter 19: port B reads GCS_STATUS. -/
theorem test_status_names_requester : (after (.lowWordRead .portB 0x10004) portBUp).dev.emitted = [.reply 1] := by decide +kernel

/-! ### Hypotheses of the statements: the queue, reset and register accesses -/

theorem witness_QueueIsFifo : ∃ t, step { State.reset with pending := [.mbxNop] } = .next t := ⟨_, rfl⟩

theorem witness_StepKeepsMemoryCanonical : State.reset.mem.wf ∧ ∃ t, step { State.reset with pending := [.mbxNop] } = .next t :=
  ⟨by decide +kernel, _, rfl⟩

theorem witness_StepStoresOnlyWhereSent :
    State.reset.mem.wf ∧ ∃ t, step { State.reset with pending := [.mbxNop] } = .next t ∧ Emit.hbmZero ∉ t.dev.emitted ∧
      ∀ (b : Nat) (bs : List Byte), Emit.hbm b bs ∈ t.dev.emitted → 5 < b ∨ b + bs.length ≤ 5 := by
  have e : (runDev (fun d => d.mbxNop) State.reset.dev).emitted = [] := by decide +kernel
  refine ⟨by decide +kernel, runState { State.reset with pending := [] } fun d => d.mbxNop, rfl, ?_, ?_⟩ <;> simp [e]

theorem witness_WriteIsFieldByField : (regTable.any fun r => r.fields.any fun f => f.lo == f.hi && r.base == 0x60008) = true := by decide +kernel

theorem witness_WriteIsFieldByField_plain :
    ∃ r, placeOf .mgmt 0x1000C = .reg r false ∧ (tSt []).dev.reachesAt .mgmt 0x1000C = true ∧ 0x1000C % 4 = 0 ∧ r.desc.width ≠ 64 ∧ r.home ≠ 0x10008 ∧
      r.desc.base < 0x100000 ∧ r.desc.base ≠ Reg.MBX_CMD_GO.base ∧ r.desc.base ≠ Reg.CHN_CTRL_START.base ∧
      ∀ (d : Dev) (old w : Nat), d.regAct .mgmt r old w = d :=
  ⟨_, rfl, by decide +kernel, rfl, by decide +kernel, by decide +kernel, by decide +kernel, by decide +kernel, by decide +kernel, fun _ _ _ => rfl⟩

theorem witness_WriteIsFieldByField_mailbox :
    let w : Word := 0x80030010
    let d := tDev [(Reg.MBX_STATUS_CORE_UP, 1)]
    d.mgmtUp = true ∧ d.on Reg.MBX_STATUS_BUSY = false ∧ w.toNat.testBit 31 = true ∧ d.mbxAllowed 0xFF = false ∧ d.mbxAllowed 0 = true := by
  decide +kernel

theorem witness_LowWordWriteLoadsLatch :
    (tSt []).dev.reachesAt .mgmt 0x20008 = true ∧ 0x20008 % 4 = 0 ∧
      (match placeOf .mgmt 0x20008 with | .reg r low => low && decide (r.desc.base < 0x100000) | _ => false) = true := by decide +kernel

theorem witness_HighWordWriteCommits :
    ∃ r, placeOf .mgmt 0x2000C = .reg r false ∧ (tSt []).dev.reachesAt .mgmt 0x2000C = true ∧ 0x2000C % 4 = 0 ∧ r.desc.width = 64 ∧
      r.home ≠ 0x10010 ∧ (tSt []).dev.regCommits .mgmt r = true ∧ (tDev [(Reg.ARM_STATUS_MAQ_STATE, 1)]).regCommits .mgmt r = false ∧
      ∀ (d : Dev) (old w : Nat), d.regAct .mgmt r old w = d :=
  ⟨_, rfl, by decide +kernel, rfl, by decide +kernel, by decide +kernel, by decide +kernel, by decide +kernel, fun _ _ _ => rfl⟩

theorem witness_RefusedWriteIsCounted :
    ∃ r, placeOf .mgmt 0x10000 = .reg r false ∧ (tSt []).dev.reachesAt .mgmt 0x10000 = true ∧ r.desc.width ≠ 64 ∧ r.home ≠ 0x10008 ∧
      r.desc.base < 0x100000 ∧ r.desc.base ≠ Reg.MBX_CMD_GO.base ∧ r.desc.base ≠ Reg.CHN_CTRL_START.base ∧
      (let d := (tSt []).dev
       let bad := fun (w : Nat) => r.desc.violated (d.regEnabled r) (d.regMay .mgmt r) (d.regView .mgmt r) w ||
         (d.regMay .mgmt r && d.regRefuses r (d.reg r.home).toNat w)
       bad (d.reg 0x10000).toNat = false ∧ bad ((d.reg 0x10000).toNat + 1) = true) ∧
      ∀ (d : Dev) (old w : Nat), d.regAct .mgmt r old w = d :=
  ⟨_, rfl, by decide +kernel, by decide +kernel, by decide +kernel, by decide +kernel, by decide +kernel, by decide +kernel, by decide +kernel,
    fun _ _ _ => rfl⟩

theorem witness_RefusedWriteIsCounted_unreached : (tSt []).dev.reaches .mgmt = true ∧ (tSt []).dev.reaches .portB = false := by decide +kernel

theorem witness_ClearingCountersClear : (tSt []).dev.reaches .mgmt = true ∧ (tSt []).dev.writesGlobal .mgmt = true := by decide +kernel

theorem witness_ReadsReturnCommittedValues :
    (tSt []).dev.reachesAt .mgmt 0x20008 = true ∧ (tSt []).dev.reachesAt .portB 0x20008 = false ∧ placeOf .mgmt 0x30000 ≠ .reserved ∧
      placeOf .mgmt 0x1FFF0 = .reserved ∧
      (match placeOf .mgmt 0x20008 with | .reg r low => low && decide (r.desc.base ≠ Reg.MBR_GPIO_IN_PINS.base) | _ => false) = true ∧
      (match placeOf .mgmt 0x2000C with | .reg r low => !low && decide (r.desc.width = 64) | _ => false) = true ∧
      (match placeOf .mgmt 0x210028 with | .reg r low => !low && decide (r.desc.width ≠ 64) | _ => false) = true ∧
      (match placeOf .mgmt 0x1000C with | .reg r low => !low && decide (r.desc.width ≠ 64) | _ => false) = true := by decide +kernel

/-! ### Hypotheses of the statements: the armature -/

/-- Member `i` of the sample armature, on link `i` of group 0. -/
def aMember (i : Nat) : ArmMember := ⟨0, i, 0, [0xFF, 0xFF, 0xFF, 0xFF], 1, BitVec.ofNat 128 (i + 1), 2 ^ 20, i, i, i, false, false⟩

/-- An RS8 pool of 2 + 1 fragments of 16 KiB over members 0 to 2. -/
def aPool : PoolCfg :=
  { code := ⟨.rs8, 2, 1, 0, 0, 0⟩, fragLog2 := 14, plinth := false, groups := 1, stripes := 8,
    extents := (List.range 3).map fun m => ⟨m, 8, 0, 2⟩, rows := [[0, 1, 2]], spareLevel := 0, maxPerDomain := 1, reclaim := false,
    spareFraction := 0, primary := 0, clusters := 0xFFFFFFFF }

/-- A namespace of four stripes. -/
def aNs : ArmNs := ⟨1, 0, 0, 4⟩

/-- A sample armature of epoch 1. -/
def aArm : Armature := ⟨1, 9, 1024, (List.range 4).map aMember, [some aPool], [], [aNs], [3, 3, 3, 3, 3, 3], []⟩

/-- An online member. -/
def aMbr : Mbr := { Mbr.blank with st := .online }

/-- The fields of a journal in RUN with a ring of 1,024 slots and 1,000 payload blocks, and the metadata area of a large package. -/
def aFlds : List (Fld × Nat) :=
  [(Reg.JNL_STATUS_STATE, 2), (Reg.JNL_HDR_SLOTS_COUNT, 1024), (Reg.JNL_PAY_BLOCKS_COUNT, 1000), (Reg.JNL_HEAD_SEQ_SEQ, 8),
   (Reg.JNL_TAIL_SEQ_SEQ, 9), (Reg.BUF_CONFIG_PA_GIB, 4), (Reg.BUF_CONFIG_HOST_GIB, 8)]

/-- The sample device: the armature active, its members online, the journal in RUN. -/
def aDev (xs : List (Fld × Nat)) (f : Dev → Dev := id) : Dev :=
  tDev (aFlds ++ xs) fun d => f { d with arm := { d.arm with active := some aArm }, mbrs := List.replicate 4 aMbr }

/-- The sample machine. -/
def aSt (xs : List (Fld × Nat)) (f : Dev → Dev := id) : State := ⟨[], [], aDev xs f⟩

theorem aDev_calm : (aSt []).dev.calm := by unfold Dev.calm; decide +kernel

theorem aDev_commands : (aSt []).dev.commands .mgmt := by unfold Dev.commands; decide +kernel

theorem witness_ArmLoadAndDiscard_load :
    let d := aDev [(Reg.ARM_SRC_LEN_LEN, 64), (Reg.ARM_SRC_ADDR_ADDR, 40 * 2 ^ 30 / 8)]
    d.steward = true ∧ d.maq = 0 ∧ d.g Reg.ARM_SRC_LEN_LEN = 64 ∧ d.inHostArea d.armSrc 64 = true := by decide +kernel

theorem witness_ArmLoadAndDiscard_length :
    let d := aDev [(Reg.ARM_SRC_LEN_LEN, 63), (Reg.ARM_STATUS_MAQ_STATE, 4)]
    d.steward = true ∧ d.maq = 4 ∧ d.g Reg.ARM_SRC_LEN_LEN < 64 := by decide +kernel

theorem witness_ArmLoadAndDiscard_busy :
    (aDev [(Reg.ARM_STATUS_MAQ_STATE, 5)]).maq = 5 ∧ (aDev [(Reg.ARM_STATUS_MAQ_STATE, 1)]).maq = 1 ∧
      (aDev [(Reg.ARM_STATUS_MAQ_STATE, 5)]).steward = true := by decide +kernel

theorem witness_ArmLoadAndDiscard_outside :
    let d := aDev [(Reg.ARM_SRC_LEN_LEN, 64)]
    d.steward = true ∧ d.maq = 0 ∧ d.inHostArea d.armSrc 64 = false ∧
      (aDev [(Reg.ACD_STATUS_STATE, 2), (Reg.ACD_STATUS_STEWARD, 0)]).steward = false := by decide +kernel

/-- An image of length 64 whose magic is wrong. -/
def badImg : List Byte := List.replicate 64 0

theorem witness_ArmCopyEndValidates_bad :
    let d := aDev [(Reg.ARM_SRC_LEN_LEN, 64), (Reg.ARM_STATUS_MAQ_STATE, 1)]
    d.maq = 1 ∧ d.loadImage (fun _ => 0) true badImg = (true, badImg) ∧ badImg.length = d.g Reg.ARM_SRC_LEN_LEN ∧
      (match validateImage (d.valCtx 64) badImg with | .error e => e.code == 0x0101 | .ok _ => false) = true := by decide +kernel

theorem witness_ArmCopyEndValidates_copy :
    let base := 40 * 2 ^ 30
    let d := aDev [(Reg.ARM_SRC_LEN_LEN, 64), (Reg.ARM_STATUS_MAQ_STATE, 1), (Reg.ARM_CTRL_SRC_INTERNAL, 1), (Reg.ARM_SRC_ADDR_ADDR, base / 8)]
      fun d => { d with badHost := [base / 64] }
    d.maq = 1 ∧ (d.loadImage (fun _ => 0) true []).1 = false ∧ (aDev [(Reg.ARM_STATUS_MAQ_STATE, 2)]).maq ≠ 1 := by decide +kernel

theorem witness_ArmPlinthWriteEnds :
    let d := aDev [(Reg.ARM_STATUS_MAQ_STATE, 5)] fun d => { d with arm := { d.arm with maquette := some aArm, commitStage := 2 } }
    d.arm.maquette = some aArm ∧ d.maq = 5 ∧ d.arm.commitStage = 2 := by decide +kernel

/-- A number's bytes, lowest first. -/
def le (n v : Nat) : List Byte := (List.range n).map fun i => BitVec.ofNat 8 (v / 256 ^ i)

/-- A section with its 16-byte header, padded to 8 bytes (table 3-3). -/
def sect (typ qual count esize : Nat) (body : List Byte) : List Byte :=
  let b := le 2 typ ++ le 1 1 ++ le 1 qual ++ le 4 ((16 + body.length + 7) / 8 * 8) ++ le 4 count ++ le 4 esize ++ body
  b ++ List.replicate ((b.length + 7) / 8 * 8 - b.length) 0

/-- The sections of an image with three members and one plinth pool, MIRROR with three copies of 1 MiB fragments (tables 3-4 to 3-8), and
where `ns` says so a second pool, RS8 of 2 + 1 fragments, with one namespace. -/
def imageSecs (ns : Bool) : List Byte :=
  let only := fun (xs : List Byte) => if ns then xs else []
  sect 1 0xFF 3 64 ((List.range 3).flatMap fun i => le 2 i ++ le 1 0 ++ le 1 i ++ le 4 0 ++ le 4 0xFFFFFFFF ++ le 4 1 ++ le 16 (i + 1) ++
    le 8 65536 ++ le 2 i ++ le 2 i ++ le 2 i ++ le 2 0 ++ le 16 0) ++
  sect 2 0xFF (if ns then 2 else 1) 64 (le 1 0 ++ le 1 3 ++ le 2 1 ++ le 3 0 ++ le 1 3 ++ le 1 20 ++ le 1 1 ++ le 2 3 ++ le 4 1 ++ le 8 133 ++ le 40 0 ++
    only (le 1 1 ++ le 1 0 ++ le 2 2 ++ le 1 1 ++ le 3 0 ++ le 1 14 ++ le 1 0 ++ le 2 3 ++ le 4 1 ++ le 8 8 ++ le 40 0)) ++
  sect 3 0 3 24 ((List.range 3).flatMap fun i => le 2 i ++ le 2 0 ++ le 4 133 ++ le 8 16 ++ le 8 0) ++
  only (sect 3 1 3 24 ((List.range 3).flatMap fun i => le 2 i ++ le 2 0 ++ le 4 8 ++ le 8 34064 ++ le 8 0)) ++
  sect 4 0 1 8 (le 2 0 ++ le 2 1 ++ le 2 2 ++ le 2 0xFFFF) ++ only (sect 4 1 1 8 (le 2 0 ++ le 2 1 ++ le 2 2 ++ le 2 0xFFFF)) ++
  sect 5 0xFF (if ns then 2 else 1) 16 (le 2 0 ++ le 1 1 ++ le 13 0 ++ only (le 2 1 ++ le 1 1 ++ le 13 0)) ++
  sect 6 0xFF (if ns then 2 else 1) 8 (le 4 0 ++ le 4 1 ++ only (le 4 1 ++ le 4 1)) ++ sect 7 0xFF 0 4 [] ++
  sect 8 0xFF (if ns then 1 else 0) 32 (only (le 4 1 ++ le 4 1 ++ le 8 0 ++ le 8 4 ++ le 8 0)) ++
  sect 9 0xFF 6 4 ((List.range 6).flatMap fun g => le 1 g ++ le 1 3 ++ le 2 0)

/-- The header of table 3-2 for given sections, with a given check. -/
def imageHead (ns : Bool) (epoch crc : Nat) : List Byte :=
  le 4 0x314D5241 ++ le 2 0x100 ++ le 2 64 ++ le 4 epoch ++ le 4 (64 + (imageSecs ns).length) ++ le 4 (if ns then 11 else 9) ++ le 4 0 ++ le 16 77 ++
    le 4 3 ++ le 4 (if ns then 2 else 1) ++ le 4 8 ++ le 8 0 ++ le 4 crc

/-- The whole image of an epoch, with or without the second pool and its namespace. -/
def imageOf (ns : Bool) (epoch : Nat) : List Byte :=
  imageHead ns epoch (crc32c (imageHead ns epoch 0 ++ imageSecs ns)) ++ imageSecs ns

/-- The whole image of an epoch without namespaces. -/
def plinthImg (epoch : Nat) : List Byte := imageOf false epoch

/-- The layout that the image describes. -/
def plinthArm (epoch : Nat) : Armature :=
  match structurePhase (plinthImg epoch) with
  | .ok secs => decodeArmature (plinthImg epoch) secs
  | .error _ => aArm

/-- The device whose options allow four links a group, with 1 GiB for metadata. -/
def pDev (xs : List (Fld × Nat)) (f : Dev → Dev := id) : Dev :=
  tDev ((Reg.ARM_META_AVAIL_MIB, 1024) :: xs) fun d => f { d with opt := { d.opt with allowed := 0xFFFFFF } }

/-- The image written from tables 3-2 to 3-8 passes the three phases of validation. -/
theorem test_image_is_valid :
    (match validateImage ((pDev []).valCtx (plinthImg 1).length) (plinthImg 1) with
      | .ok a => decide (a.epoch = 1 ∧ a.members.length = 3 ∧ a.plinthPool = some 0) | .error _ => false) = true := by decide +kernel

/-- One changed byte is found by the check of the header. -/
theorem test_image_crc :
    (match validateImage ((pDev []).valCtx (plinthImg 1).length) ((plinthImg 1).set 100 0x5A) with
      | .ok _ => false | .error e => e.code == 0x0105) = true := by decide +kernel

theorem witness_ArmCopyEndValidates_good :
    let d := pDev [(Reg.ARM_SRC_LEN_LEN, (plinthImg 1).length), (Reg.ARM_STATUS_MAQ_STATE, 1)]
    d.maq = 1 ∧ (plinthImg 1).length = d.g Reg.ARM_SRC_LEN_LEN ∧ d.maqKeysWait = false ∧
      (match validateImage (d.valCtx (plinthImg 1).length) (plinthImg 1) with | .ok a => (d.addedNs a).isEmpty | .error _ => false) = true := by
  decide +kernel

theorem witness_ArmCopyEndValidates_namespace :
    let img := imageOf true 1
    let d := pDev [(Reg.ARM_SRC_LEN_LEN, img.length), (Reg.ARM_STATUS_MAQ_STATE, 1)]
    d.maq = 1 ∧ (match validateImage (d.valCtx img.length) img with | .ok a => d.addedNs a == [1] | .error _ => false) = true := by
  decide +kernel

theorem witness_ArmCommitSwitchesEpoch_commit :
    let d := pDev [(Reg.ARM_STATUS_MAQ_STATE, 3)] fun d =>
      { d with arm := { d.arm with active := some (plinthArm 1), maquette := some (plinthArm 2) } }
    d.maq = 3 ∧ d.on Reg.ARM_STATUS_DRAINING = false ∧ d.steward = true ∧ d.nvm.erases = [] ∧ d.mirroring = false ∧
      d.arm.active.isSome = true ∧ commitErr (d.valCtx (plinthArm 2).image.length) (plinthArm 2) = none := by decide +kernel

/-- The epoch after the sample armature's. -/
def nextArm : Armature := { aArm with epoch := 2 }

theorem witness_ArmCommitSwitchesEpoch_switch :
    let d := aDev [(Reg.ARM_STATUS_MAQ_STATE, 5)] fun d => { d with arm := { d.arm with maquette := some nextArm, commitStage := 3 } }
    d.maq = 5 ∧ d.arm.maquette = some nextArm ∧ d.arm.commitStage = 3 ∧ d.fab.rowWrites = [] ∧ d.sameModes nextArm := by
  unfold Dev.sameModes; decide +kernel

theorem witness_ArmCommitSwitchesEpoch_waits :
    let w : RowWrite := ⟨[(⟨0, 0, 2, 0⟩, 1)], .none⟩
    let d := aDev [(Reg.ARM_STATUS_MAQ_STATE, 5)] fun d =>
      { d with arm := { d.arm with maquette := some nextArm, commitStage := 3 }, fab := { d.fab with rowWrites := [w] } }
    d.rowsPending nextArm.epoch = true ∧ ∀ w ∈ d.fab.rowWrites, w.left ≠ [] := by decide +kernel

theorem witness_ArmCommitSwitchesEpoch_drain :
    let o : Armature := { aArm with epoch := 0 }
    let d := fun (on : Bool) => aDev [] fun d =>
      let d : Dev := { d with arm := { d.arm with draining := some o } }
      { d with fab := { d.fab with regions := d.fab.regions.map fun r => { r with power := if on then .on else .off } } }
    (d true).arm.draining = some o ∧ (d true).drainCount = 0 ∧ (d true).nvm.erases = [] ∧ (d true).fab.rowWrites = [] ∧ (d true).arm.commitStage ≠ 4 ∧
      o.lines ≠ [] ∧ (∃ r < 8, (d true).powered r = true) ∧ ∀ r < 8, (d false).powered r = false := by decide +kernel

theorem witness_CheckpointTriggersStart :
    let a := plinthArm 1
    let run : CkptRun := ⟨8, [], true, [], [], 0, PDir.blank, false⟩
    let d := fun (busy : Bool) => aDev [(Reg.JNL_HDR_SLOTS_COUNT, 15)] fun d =>
      { d with arm := { d.arm with active := some a, plinth := { d.arm.plinth with dir := { PDir.blank with seq := 1 } } },
               jnl := { d.jnl with recs := [⟨8, .excInsert, false, 8, 1, 0, 0, 1, 1, 0, 0, 0, [], [], true, false, false, 0⟩],
                                   ckpt := if busy then some run else none } }
    a.plinthCfg.isSome = true ∧ (d false).running = true ∧ (d false).steward = true ∧ (d false).jnl.ckpt = none ∧ (d true).jnl.ckpt = some run ∧
      (d false).arm.plinth.dir.seq ≠ 0 ∧ (d false).g Reg.JNL_HDR_SLOTS_COUNT < 16 * (d false).metaRecs.length := by decide +kernel

theorem witness_CheckpointDurableRetires :
    let d := fun (done : Bool) => aDev [] fun d => { d with jnl := { d.jnl with ckpt := some ⟨8, [], done, [], [], 0, PDir.blank, false⟩ } }
    (d false).jnl.ckpt = some ⟨8, [], false, [], [], 0, PDir.blank, false⟩ ∧ (d true).jnl.ckpt = some ⟨8, [], true, [], [], 0, PDir.blank, false⟩ ∧
      ((d true).jnl.recs.map (·.seq)).Nodup ∧ ((d true).acd.adopted.map (·.seq)).Nodup := by decide +kernel

theorem witness_BufferInitAndClear :
    let d := tDev [(Reg.RST_STATUS_OPT_VALID, 1)] fun d => { d with rst := { d.rst with step := 2 } }
    d.rst.reach = 5 ∧ d.rst.step = 2 ∧ d.on Reg.RST_STATUS_OPT_VALID = true ∧ d.vlt.chosen = none := by decide +kernel

/-- Errors in the first `n` bytes of a line and its check bytes. -/
def errs (n : Nat) : List Byte := (List.range 72).map fun i => if i < n then BitVec.ofNat 8 (7 * i + 1) else 0

/-- The stored 72 bytes with errors. -/
def hit (st err : List Byte) : List Byte := (List.range 72).map fun i => st.getD i 0 ^^^ err.getD i 0

/-- A line of data with the check bytes that the generator polynomial gives. -/
def okLine : List Byte :=
  let b : List Byte := (List.range 64).map fun i => BitVec.ofNat 8 (3 * i + 5)
  b ++ rsCheck b

/-- R167: each root of the generator polynomial is a root of a line's codeword. -/
theorem test_rs_codeword : rsSyndromes okLine = List.replicate 8 0 := by decide +kernel

/-- R168: up to four wrong bytes are corrected; five in these places are not. -/
theorem test_rs_corrects : rsDecode (hit okLine (errs 4)) = some okLine ∧ rsDecode (hit okLine (errs 5)) = none := by decide +kernel

theorem witness_LineErrorsAreRecorded_line :
    let d := aDev [(Reg.BUF_STATUS_INIT_DONE, 1)]
    let m : Memory := []
    let st := m.line72 (d.hostBase / 64)
    d.area d.hostBase = .host ∧ d.hostBase < d.hbmTop ∧ d.badHost.contains (d.hostBase / 64) = false ∧ m.wf ∧
      rsDecode (hit st (errs 1)) = some st ∧ st ≠ hit st (errs 1) ∧ rsDecode (hit st (errs 5)) = none ∧ rsDecode (hit st []) = some (hit st []) := by
  decide +kernel

theorem witness_LineErrorsAreRecorded_repair :
    let r : JRec := ⟨8, .excInsert, false, 8, 1, 0, 0, 1, 1, 0, 0, 0, [], [], true, false, false, 0⟩
    let d := aDev [] fun d => { d with jnl := { d.jnl with fixing := [8], recs := [r] } }
    8 ∈ d.jnl.fixing ∧ d.jnl.fixing.contains 7 = false ∧ d.jnl.recs.find? (·.seq = 8) = some r ∧ r.retired = false ∧ d.recRanges r = [] := by
  decide +kernel

theorem witness_LineErrorsAreRecorded_scrub :
    let d := fun (n : Nat) => aDev [(Reg.BUF_STATUS_INIT_DONE, 1)] fun d => { d with scrubLine := n, rst := { d.rst with reach := 0 } }
    let last := (aDev []).hbmTop / 64 - 1
    (∀ n ∈ [0, last], (d n).on Reg.BUF_STATUS_SCRUB_PAUSED = false ∧ (d n).on Reg.BUF_STATUS_INIT_DONE = true ∧ (d n).rst.reach = 0 ∧
      (d n).badHost.contains (d n).scrubLine = false ∧ 64 * (d n).scrubLine < (d n).hbmTop ∧
      (let w := hit (Memory.line72 [] (d n).scrubLine) []; rsDecode w = some w)) ∧
    64 * ((d 0).scrubLine + 1) < (d 0).hbmTop ∧ (d last).hbmTop ≤ 64 * ((d last).scrubLine + 1) := by decide +kernel

/-! ### Hypotheses of the statements: the write path -/

/-- Port A up, its controller ready, with a command waiting in I/O queue 1. -/
def hostUp (d : Dev) : Dev :=
  let d := d.updPort false fun p => { p with up := true, pf0 := { p.pf0 with bme := true, mse := true } }
  { d with ctlA := { d.ctlA with en := true, rdy := true, sqs := [⟨0, 0, 16, 0, 0, 0⟩, ⟨1, 1, 16, 0, 1, 0⟩],
                                 cqs := [⟨0, 16, 0, 0, 0, true, []⟩, ⟨1, 16, 0, 0, 0, true, []⟩] } }

/-- The same with the command waiting in the admin queue. -/
def adminUp (d : Dev) : Dev :=
  let d := hostUp d
  { d with ctlA := { d.ctlA with sqs := [⟨0, 0, 16, 0, 1, 0⟩, ⟨1, 1, 16, 0, 0, 0⟩] } }

/-- A record of one block in namespace 1. -/
def aRec (seq : Nat) (typ : RecType) (blocks : List Block) : JRec :=
  ⟨seq, typ, false, seq, 1, 0, 1, 1, 1, 0, 0, 0, blocks, [], true, false, false, 0⟩

/-- A host command under way. -/
def aCmd (id : Nat) (k : HKind) : HostCmd := io.toCmd id k false 1

/-- A member command of one block of stripe 0 of pool 0, fragment 0. -/
def aMcmd (id : Nat) (k : MKind) (u : MUser) (op : Nat) : MCmd := ⟨id, 0, k, .outstanding, u, 0, 0, 0, 1, 0, 1, false, [⟨op, 0, 0⟩], [], [], none, false, 0⟩

/-- An operation on stripe 0 of pool 0. -/
def anOp (id : Nat) (k : OpKind) (ph : Phase) : Op :=
  ⟨id, k, 0, 0, 1, ph, 0, 0, [], [], [], [], 8, 0, [], false, false, [], none, 0, [], 0, 0, [], false⟩

theorem witness_HostWritesAdmitRecords :
    let d := aDev [] hostUp
    d.nvm.erases = [] ∧ d.acd.transfers = [] ∧ d.mgmt.waiting = [] ∧ d.fetchable false 1 = true ∧ d.nsHeld 1 = false ∧
      d.rangeError 1 0 1 = none ∧ d.nsPool 1 = some (aNs, aPool) ∧ AMap.get d.nvm.fmts 1 = none ∧ 0 % aPool.stripeBlocks + 1 ≤ aPool.stripeBlocks ∧
      d.jnl.waiting = [] ∧ d.running = true ∧ d.mirroring = false ∧ 1 ≤ d.freeSlots ∧ 1 ≤ d.freePay ∧ d.head + 1 < 2 ^ 64 ∧
      (∀ x ∈ d.cmds, x.id ≠ d.nextId) := by decide +kernel

theorem witness_HostWritesAdmitRecords_data :
    let d := aDev [] hostUp
    let h := { io with xtsFaults := [0] }
    (∀ i < io.nlb, i ∉ io.xtsFaults) ∧ (∀ k b, ([5] : List Block)[k]? = some b → d.writePiError io k b (([] : List (List Byte)).getD k []) = none) ∧
      0 ∈ h.xtsFaults ∧ 0 < h.nlb ∧ h.cid < tunnelCid := by
  have e : AMap.get (aDev [] hostUp).nvm.fmts 1 = none := by decide +kernel
  refine ⟨by decide, fun k b _ => ?_, by decide, by decide, by decide⟩
  simp [Dev.writePiError, io, e]

theorem witness_HostWritesAdmitRecords_held :
    (aDev [] fun d => hostUp { d with keys := { d.keys with switching := [1] } }).nsHeld 1 = true ∧
      (aDev []).fetchable false 1 = false ∧ (aDev [] hostUp).rangeError 1 100 1 = some .lbaOutOfRange ∧
      (aDev [] hostUp).nsError 2 = some .invalidNamespaceOrFormat := by decide +kernel

theorem witness_HostWritesAdmitRecords_ranges :
    let d := aDev [] hostUp
    let rs : List (Nat × Nat) := [(0, 3), (1, 0), (2, 8)]
    d.nsError 1 = none ∧ rs.length ≤ 256 ∧ (∀ r ∈ rs, r.1 + r.2 ≤ d.nsCapacity 1) ∧ (∃ r ∈ rs, r.2 ≠ 0) := by decide +kernel

/-- R318: a mismatch of the two encryption engine copies fails the write and admits nothing. -/
theorem test_write_mismatch :
    let t := after (.write { io with xtsFaults := [0] } [5] []) (aSt [] hostUp)
    t.dev.head = 8 ∧ t.dev.jnl.recs = [] ∧ t.dev.emitted.contains (.cpl false 1 7 .dataTransferError false 0) = true := by decide +kernel

/-- R194, R195: a host write of one block becomes one record, and no completion is sent yet. -/
theorem test_write_admits :
    (let t := after (.write io [5] []) (aSt [] hostUp); t.dev.head = 9 ∧ t.dev.jnl.recs.length = 1 ∧ t.dev.emitted = []) ∧
    (let t := after (.writeZeroes io) (aSt [] hostUp); t.dev.jnl.recs.map (fun r => (r.typ, r.len, r.blocks)) = [(.zero, 1, [])]) := by decide +kernel

theorem witness_GroupsAdmitPublishCommit_admit :
    let w : WaitGroup := ⟨[aRec 0 .zero []], .other⟩
    let d := aDev [] fun d => { d with jnl := { d.jnl with waiting := [w] } }
    let full := aDev [(Reg.JNL_HDR_SLOTS_COUNT, 0)] fun d => { d with jnl := { d.jnl with waiting := [w] } }
    d.jnl.waiting = [w] ∧ d.mirroring = false ∧ d.fits w.recs = true ∧ d.running = true ∧ d.head + w.recs.length < 2 ^ 64 ∧
      full.fits w.recs = false := by decide +kernel

theorem witness_GroupsAdmitPublishCommit_publish :
    let g : JGroup := ⟨8, 1, .host 5, false, false⟩
    let c := fun (fua : Bool) (left : Nat) => { aCmd 5 .write with fua := fua, groupsLeft := left }
    let d := fun (fua : Bool) (left st : Nat) => aDev [(Reg.ACD_STATUS_STATE, st)] fun d =>
      hostUp { d with jnl := { d.jnl with groups := [g], recs := [aRec 8 .zero []] }, cmds := [c fua left] }
    (∀ k ∈ [(false, 1), (true, 1), (false, 2)], (d k.1 k.2 0).cmds.filter (·.id = 5) = [c k.1 k.2] ∧ (c k.1 k.2).cid < tunnelCid ∧
      (c k.1 k.2).detached = false) ∧
    g.committed = false ∧ g.published = false ∧ ((d false 1 0).jnl.groups.map (·.first)).Nodup ∧ g ∈ (d false 1 0).jnl.groups ∧
      (d false 1 0).mirrored g = true ∧ (d false 1 2).mirrored g = false ∧ (∃ r ∈ (d true 1 0).jnl.recs, r.first = 8 ∧ r.retired = false) ∧
      (∀ x ∈ (d false 1 0).jnl.groups, x ≠ g → x.published = true → x.committed = true) := by decide +kernel

theorem witness_GroupsAdmitPublishCommit_mirror :
    let g : JGroup := ⟨8, 1, .host 5, true, false⟩
    let d := aDev [(Reg.ACD_STATUS_STATE, 2)] fun d => hostUp { d with jnl := { d.jnl with groups := [g] }, cmds := [aCmd 5 .write] }
    d.mirroring = true ∧ d.peerLive = true ∧ g.first + g.count - 1 ≤ 8 ∧ g.published = true ∧ (aDev []).peerLive = false := by decide +kernel

theorem canPost_up (xs : List (Fld × Nat)) (h : (aDev xs hostUp).canSend false 0 = true ∧ (aDev xs hostUp).postStopped = false)
    (e : (aDev xs hostUp).ctlA = (hostUp Dev.reset).ctlA) : (aDev xs hostUp).canPost false 1 ∧ (aDev xs hostUp).canPost false 0 := by
  have a : (aDev xs hostUp).ctl false = (hostUp Dev.reset).ctlA := e
  refine ⟨⟨⟨1, 1, 16, 0, 1, 0⟩, ⟨1, 16, 0, 0, 0, true, []⟩, ?_, ?_, rfl, rfl, h.1, h.2⟩,
    ⟨⟨0, 0, 16, 0, 0, 0⟩, ⟨0, 16, 0, 0, 0, true, []⟩, ?_, ?_, rfl, rfl, h.1, h.2⟩⟩ <;> rw [a] <;> decide

theorem witness_canPost : (aDev [] hostUp).canPost false 1 ∧ (aDev [] hostUp).canPost false 0 :=
  canPost_up [] (by decide +kernel) (by decide +kernel)

theorem witness_DrydownAndLocks_idle :
    (aDev [(Reg.JNL_DRY_CFG_IDLE_US, 0)]).g Reg.JNL_DRY_CFG_IDLE_US = 0 ∧
    (let d := aDev [(Reg.JNL_DRY_CFG_IDLE_US, 5)]; d.g Reg.JNL_DRY_CFG_IDLE_US ≠ 0 ∧ d.running = true ∧ d.nonOperational = false) ∧
    (let d := aDev [] fun d => { d with jnl := { d.jnl with recs := [aRec 8 .zero []] } }
     d.hasRecords 0 0 = true ∧ d.jnl.settled.contains (0, 0) = false) ∧
    (let d := aDev [(Reg.JNL_TAIL_SEQ_SEQ, 8)]; d.tail ≤ d.head) ∧ (aDev []).head < (aDev []).tail := by decide +kernel

theorem witness_DrydownAndLocks_start :
    let d := aDev [(Reg.JNL_TAIL_SEQ_SEQ, 8), (Reg.JNL_DRY_LIMITS_MAX_INFLIGHT, 4)] fun d =>
      { d with jnl := { d.jnl with recs := [aRec 8 .zero []], settled := [(0, 0)], idle := true } }
    d.nextStripe = some (0, 0) ∧ d.drydown = true ∧ (d.ops.filter (·.kind == .destage)).length < min 4096 (max 1 (d.g Reg.JNL_DRY_LIMITS_MAX_INFLIGHT)) := by
  decide +kernel

theorem witness_DrydownAndLocks_held :
    let d := aDev [] fun d => { d with ops := [anOp 7 (.degraded 5) .held], jnl := { d.jnl with recs := [aRec 8 .zero []] } }
    d.nextStripe = some (0, 0) ∧ d.drydown = false ∧ (d.running && d.ops.any fun o => o.phase == .held && o.pool == 0 && o.stripe == 0) = true := by
  decide +kernel

theorem witness_DrydownAndLocks_grant :
    let l : Lock := ⟨0, 0, true, [], [(7, false)]⟩
    let d := aDev [] fun d => { d with locks := [l], ops := [anOp 7 (.degraded 5) .waitLock] }
    (d.locks.find? fun x => x.pool == l.pool && x.stripe == l.stripe) = some l ∧ l.grantable = true ∧
      d.op 7 = some (anOp 7 (.degraded 5) .waitLock) ∧ d.pool 0 = some aPool ∧ ({ l with holders := [3] } : Lock).grantable = false := by decide +kernel

theorem witness_DrydownAndLocks_destage :
    let l : Lock := ⟨0, 0, true, [], [(7, true)]⟩
    let o := anOp 7 .destage .waitLock
    let d := aDev [] fun d => { d with locks := [l], ops := [o], jnl := { d.jnl with recs := [aRec 8 .zero []], groups := [⟨8, 1, .other, true, true⟩] } }
    l.grantable = true ∧ d.op 7 = some o ∧ o.pass2 = false ∧ o.recs = [] ∧ o.arecs = [] ∧ (d.opPool { o with epoch := d.epoch }).isSome = true ∧
      (d.jnl.recs.filter fun r => !r.retired && !r.lost && !r.typ.isMeta && r.pool == 0 && r.stripe == 0 && d.published r) ≠ [] := by decide +kernel

theorem witness_ReadsAndReplay_read :
    let d := aDev [] fun d => hostUp { d with jnl := { d.jnl with recs := [aRec 8 .write [5]], groups := [⟨8, 1, .other, true, true⟩] } }
    let l := aDev [] fun d => hostUp { d with jnl := { d.jnl with recs := [{ aRec 8 .write [5] with lost := true }], lost := [⟨1, 0, 1, false, 8⟩] } }
    d.journalBlock 1 0 = some (.cipher 5) ∧ d.fetchable false 1 = true ∧ d.rangeError 1 0 1 = none ∧ d.nsHeld 1 = false ∧ d.readHeld io = false ∧
      (d.nsPool 1).isSome = true ∧ l.journalBlock 1 0 = some .lost ∧ l.readHeld io = false ∧
      d.hostPiError (aCmd d.nextId .read) 0 = none := by decide +kernel

theorem witness_ReadsAndReplay_slow :
    let d := aDev [] fun d => { d with mcmds := [aMcmd 3 .read (.host 5) 0], cmds := [aCmd 5 .read], mbrs := [{ aMbr with st := .suspect }] }
    d.mcmd 3 = some (aMcmd 3 .read (.host 5) 0) ∧ d.cmd 5 = some (aCmd 5 .read) ∧ (d.mbr 0).st = .suspect ∧
      (aCmd 5 .read).raced.contains 3 = false := by decide +kernel

/-- Row 0 of a degraded read that wants fragment 0. -/
def aRow : RowWork := ⟨0, .decode, [], [0], [], [], [], [], false, false, 0, true⟩

theorem witness_ReadsAndReplay_staging :
    let o := { anOp 7 (.degraded 5) .reading with rows := [aRow] }
    let d := fun (n : Nat) => aDev [] fun d =>
      { d with ops := [o], mbrs := { aMbr with st := .failed } :: List.replicate 3 aMbr,
               fab := { d.fab with clusters := d.fab.clusters.map fun c => { c with staged := n } } }
    (∀ n ∈ [0, stagingBlocks], (d n).op 7 = some o ∧ (d n).opPool o = some aPool ∧ (d n).rowNeeds aPool o aRow = some [1, 2] ∧
      ((d n).heldRows 0 0).contains 0 = false) ∧
    o.kind.rowByRow = true ∧ (o.rows.find? fun x => !x.ready) = some aRow ∧ o.row 0 = some aRow ∧ aRow.waits = true ∧ aRow.asked = [] ∧
      ((d 0).cluster 0).staged + (d 0).decodeNeed aPool o aRow ≤ stagingBlocks ∧
      stagingBlocks < ((d stagingBlocks).cluster 0).staged + (d stagingBlocks).decodeNeed aPool o aRow ∧
      (∀ f ∈ [1, 2], ((d 0).readLoc aPool o f).isSome = true) := by decide +kernel

theorem witness_ReadsAndReplay_replay :
    let d := aDev [(Reg.JNL_STATUS_STATE, 1)]
    let r : PlinthRead := ⟨0, [], [], [], [], [], [], []⟩
    d.g Reg.JNL_STATUS_STATE = 1 ∧ (d.plinthRestore (d.plinthCopies [r])).replayReady [] = true ∧ d.jnl.cbValid = false ∧ d.ops = [] ∧
      (d.readPlinth []).jnl.jckpt.covered + 2 ^ 32 < 2 ^ 64 := by decide +kernel

theorem witness_ReadsAndReplay_control :
    let d := aDev [(Reg.JNL_STATUS_STATE, 1)] fun d => d.putTail 9
    d.g Reg.JNL_STATUS_STATE = 1 ∧ d.replayReady [] = true ∧ d.jnl.cbValid = true ∧ d.ops = [] := by decide +kernel

theorem witness_ReadsAndReplay_notReady :
    let d := aDev [(Reg.JNL_STATUS_STATE, 1)] fun d => { d with arm := { d.arm with active := some (plinthArm 1) } }
    d.replayReady [] = false := by decide +kernel

/-- The tag of a block passes the four checks of table 7-3 and gives its generation. -/
theorem test_tag_checks : checkTag aPool.code 0 0 0 false 5 (mkTag aPool.code 0 0 0 3 false false 5) = .good 3 false := by decide +kernel

theorem witness_MemberCompletions_read :
    let h := aCmd 5 .read
    let m := aMcmd 3 .read (.host 5) 0
    let d := aDev [] fun d => hostUp { d with mcmds := [m], cmds := [h] }
    d.mcmd 3 = some m ∧ m.refs = [⟨0, 0, 0⟩] ∧ m.pair = none ∧ d.poolOf h.epoch m.pool = some aPool ∧
      (d.checkBlock m aPool [5] [mkTag aPool.code 0 0 0 3 false false 5] [] 0 ⟨0, 0, 0⟩).res = .good 3 false ∧
      d.blockOwner h.epoch aPool 0 0 0 0 = some (1, 0) ∧ d.cmds.filter (·.id = 5) = [h] ∧ h.nlb = 1 ∧ h.got = [] ∧ 0 ∉ h.xtsFaults ∧
      h.detached = false ∧ d.isSlow m = false ∧ d.hostPiError h 0 = none ∧ d.mcmd 9 = none := by decide +kernel

/-- The sample device with the updates of tags in tag-sector mode on every member. -/
def tagArm : Armature := { aArm with members := aArm.members.map fun m => { m with tagSect := true } }

theorem witness_MemberCompletions_write :
    let m := aMcmd 3 .write .op 7
    let o := fun (ws : List Nat) => { anOp 7 .destage .writing with writes := ws }
    let d := fun (ws : List Nat) (a : Armature) => aDev [] fun d => { d with mcmds := [m], ops := [o ws], nextId := 10, arm := { d.arm with active := some a } }
    (∀ ws ∈ [[3], [3, 4]], ∀ a ∈ [aArm, tagArm], (d ws a).mcmd 3 = some m ∧ (d ws a).isSlow m = false ∧ m.refs ≠ [] ∧ (∀ b ∈ m.refs, b.op = 7) ∧
      (d ws a).ops.filter (·.id = 7) = [o ws] ∧ m.id < (d ws a).nextId ∧ 7 < (d ws a).nextId ∧ (d ws a).lostPending 7 = false) ∧
    (d [3] aArm).tagSect 0 = false ∧ (d [3] tagArm).tagSect 0 = true ∧ (o [3]).writes.filter (· ≠ 3) = [] ∧ (o [3, 4]).writes.filter (· ≠ 3) ≠ [] ∧
      (o [3]).skipped = [] ∧ 0 < m.count := by decide +kernel

theorem witness_MemberCompletions_noneHeld :
    (aDev [] fun d => { d with ops := [anOp 7 .destage .writing] }).noneHeld := by unfold Dev.noneHeld; decide +kernel

/-! ### Hypotheses of the statements: members, sillage, keys and the codec fabric -/

/-- The sample device with its member 0 changed. -/
def mDev (f : Mbr → Mbr) (xs : List (Fld × Nat) := []) : Dev := aDev xs fun d => { d with mbrs := f aMbr :: List.replicate 3 aMbr }

theorem witness_MemberTransitions :
    (let d := mDev id; 0 < d.mbrs.length ∧ 0 < d.memberTable.length ∧ d.steward = true ∧ d.running = true ∧ (d.mbr 0).st = .online) ∧
    ((mDev fun m => { m with st := .failed }).mbr 0).st = .failed ∧ ((mDev fun m => { m with st := .absent }).mbr 0).st = .absent ∧
    ((mDev fun m => { m with st := .suspect }).mbr 0).st = .suspect ∧ ((mDev fun m => { m with st := .rebuilding }).mbr 0).st = .rebuilding ∧
    (mDev id [(Reg.SIL_RETURN_ABSENT_FAIL_S, 1)]).g Reg.SIL_RETURN_ABSENT_FAIL_S ≠ 0 ∧
    ((mDev fun m => { m with awaitId := true }).mbr 0).awaitId = true := by decide +kernel

theorem witness_MemberTransitions_refused :
    (mDev id [(Reg.JNL_STATUS_STATE, 1)]).running = false ∧ (mDev id).memberTable.length ≤ 4 ∧ (mDev id).g Reg.SIL_RETURN_ABSENT_FAIL_S ≥ 0 ∧
      (mDev fun m => { m with matched := some 0 }).mbrs.any (·.matched.isSome) = true ∧
      (mDev id [(Reg.ACD_STATUS_STATE, 2), (Reg.ACD_STATUS_STEWARD, 0)]).steward = false := by decide +kernel

/-- One failed member of a code with one parity makes every stripe of it critical; where member 1 has exceeded its allowance, nothing starts. -/
theorem witness_SillageWork_start :
    let d := fun (busy : List Nat) => aDev [(Reg.SIL_SHARE_IDLE_FILL, 0)] fun d =>
      { d with mbrs := { aMbr with st := .failed } :: List.replicate 3 aMbr, sil := { d.sil with overUse := busy } }
    (d []).running = true ∧ ((d []).firstUnit (d []).criticalUnits).map (fun u => (u.kind, u.pool, (d []).unitFits u)) = some (.relocate, 0, true) ∧
      ((d [1]).firstUnit (d [1]).criticalUnits).map (fun u => (d [1]).unitFits u) = some false ∧
      (aDev [] fun d => d).running = true ∧ (aDev []).silRuns = true ∧ (aDev []).firstUnit (aDev []).criticalUnits = none := by decide +kernel

/-- A code with two parities: one failed member leaves its stripes degraded, not critical. -/
theorem witness_SillageWork_degraded :
    let p2 : PoolCfg := { aPool with code := ⟨.rs8, 1, 2, 0, 0, 0⟩ }
    let d := aDev [] fun d =>
      { d with mbrs := { aMbr with st := .failed } :: List.replicate 3 aMbr, arm := { d.arm with active := some { aArm with pools := [some p2] } } }
    d.firstUnit d.criticalUnits = none ∧ d.silRuns = true ∧ (d.firstUnit d.degradedUnits).map (fun u => (u.kind, u.pool, d.unitFits u)) = some (.relocate, 0, true) := by
  decide +kernel

/-- The share of a rotational member is of the time, that of another of its command limit. -/
theorem witness_SillageWork_use :
    let a := { aArm with members := aArm.members.map fun m => { m with rot := m.shelf == 0 } }
    let d := aDev [] fun d => { d with arm := { d.arm with active := some a } }
    d.rot 0 = true ∧ d.rot 1 = false ∧ d.mbrs.length = 4 := by decide +kernel

theorem witness_SillageWork_batch :
    let d := aDev [] fun d => { d with sil := { d.sil with gather := [(7, ⟨0, 0, 0, 3, 0, false, false⟩), (8, ⟨0, 1, 0, 3, 1, false, false⟩)] } }
    let runs := gatherRuns d.sil.gather
    runs.length = 1 ∧ d.jnl.waiting = [] ∧ d.running = true ∧ (∀ b ∈ runs, b.length ≤ 1024) ∧ runs.length ≤ d.freeSlots ∧
      (runs.map fun b => ceilDiv (b.length * 16) 4096).sum ≤ d.freePay ∧ d.head + runs.length < 2 ^ 64 := by decide +kernel

theorem witness_SillageWork_scrub :
    (aDev []).sil.scrubAt = none ∧ (aDev []).silPools = [(0, aPool)] ∧
      (aDev [(Reg.SIL_SCRUB_PERIOD_DAYS, 1)]).g Reg.SIL_SCRUB_PERIOD_DAYS ≠ 0 ∧ (aDev [(Reg.SIL_SCRUB_PERIOD_DAYS, 0)]).g Reg.SIL_SCRUB_PERIOD_DAYS = 0 := by
  decide +kernel

/-- A key slot of namespace 1. -/
def aKey (slot : Nat) (st : KeySt) (key : BitVec 512) : KeySlot := ⟨slot, st, 1, key, [], false, true, none, false⟩

/-- The key drawn is open, so either of the two clauses of the statement's draw holds, and no run says which. -/
theorem witness_KeySlotsMove :
    (let d := fun (st : Nat) => aDev [(Reg.ACD_STATUS_STATE, st)] fun d => { d with keys := ⟨[], [], 1, [(1, false)], []⟩ }
     (d 0).mirroring = false ∧ (d 0).keysOwn = true ∧ (d 2).mirroring = true ∧ (d 1).keysOwn = false ∧ (d 1).mirroring = false ∧
       ((d 0).keys.slots.map (·.slot)).Nodup ∧ (d 0).freeKeySlot = some 0 ∧ (d 0).hasNs 1 = true ∧
       ((d 0).keys.wantGen.find? fun w => !((d 0).keys.slots.any fun k => k.nsid == w.1 && k.st != .active)) = some (1, false)) ∧
    (let d := aDev [] fun d => { d with keys := ⟨[aKey 0 .active 1, aKey 1 .ready 2], [], 3, [], [1]⟩ }
     1 ∈ d.keys.switching ∧ d.nsBusy 1 = false ∧ (d.keys.slots.map (·.slot)).Nodup ∧ 2 ∉ d.keys.switching ∧
       (d.keys.slots.find? fun k => k.nsid == 1 && k.st == .ready) = some (aKey 1 .ready 2)) ∧
    (let d := aDev [] fun d => { d with keys := ⟨[aKey 1023 .destroying 1, { aKey 5 .destroying 1 with partnerDone := false }], [], 3, [], []⟩ }
     aKey 1023 .destroying 1 ∈ d.keys.slots ∧ (aKey 1023 .destroying 1).partnerDone = true ∧ d.nvm.erases = [] ∧
       ∀ o ∈ d.keys.slots, o.st = .destroying → o.erased = false ∨ o.partnerDone = false) := by
  decide +kernel

/-- R330: the switch makes the READY key the namespace's, and the old slot DESTROYING. -/
theorem test_key_switch :
    let t := after (.keySwitch 1) (aSt [] fun d => { d with keys := ⟨[aKey 0 .active 1, aKey 1 .ready 2], [], 3, [], [1]⟩ })
    t.dev.nsKey 1 = 2 ∧ (t.dev.keys.slots.map fun k => (k.slot, k.st)) = [(0, .destroying), (1, .active)] := by decide +kernel

/-- The sample device with region 0 on and its cluster 0 awake. -/
def fDev (f : Dev → Dev := id) : Dev :=
  aDev [] fun d => f { d with fab := { d.fab with regions := { Region.blank with power := .on } :: d.fab.regions.drop 1, pll := [true, false] } }

theorem witness_FabricItemsAndElb_dispatch :
    let o := anOp 7 (.degraded 5) .waitChannel
    let d := fDev fun d => { d with ops := [o] }
    d.fab.regions.length = 8 ∧ o.cluster < 32 ∧ d.op 7 = some o ∧ d.inService 0 = true ∧ d.powered (regionOf 0) = true ∧ d.nextItem o = true ∧
      (d.freeInternal 0).isSome = true ∧ (∃ k ∈ d.opKeys o, ∀ x ∈ (d.region (regionOf 0)).elb, x.2.key ≠ k) := by
  decide +kernel

theorem witness_FabricItemsAndElb_units :
    255 ∉ (aDev []).fab.retired ∧ (∃ v, v / 8 = 255 / 8 ∧ v ≠ 255 ∧ v < 256 ∧ v ∉ (aDev []).fab.retired) :=
  ⟨by decide +kernel, 248, by decide +kernel⟩

theorem witness_FabricItemsAndElb_fill :
    let k : RowKey := ⟨0, 0, 1, 0⟩
    let d := fun (poisoned : Bool) => fDev fun d => d.updRegion 0 fun x => { x with fills := [⟨k, poisoned, [], false⟩] }
    0 < (d true).fab.regions.length ∧ (((d true).region 0).fills.find? (·.key = k)) = some ⟨k, true, [], false⟩ ∧
      (((d false).region 0).fills.find? (·.key = k)) = some ⟨k, false, [], false⟩ ∧ ((d false).rowRecord k).isSome = true ∧
      ((fDev).region 0).fills.find? (·.key = k) = none ∧ (d false).fab.rowWrites = [] ∧ (d false).arm.commitStage ≠ 4 ∧
      (d false).rowRecord ⟨0, 0, 9, 0⟩ = none ∧ (d true).powered 0 = true ∧ (d true).powered 7 = false := by decide +kernel

theorem witness_FabricItemsAndElb_snoop :
    let k : RowKey := ⟨0, 0, 1, 0⟩
    let w : RowWrite := ⟨[(k, 0), (k, 1)], .none⟩
    let o := anOp 7 (.degraded 5) .waitElb
    let d := fun (ws : List RowWrite) => fDev fun d =>
      (({ d with ops := [o], fab := { d.fab with rowWrites := ws } } : Dev)).updRegion 0 fun x =>
        { x with elb := [(3, ⟨k, 0, []⟩), (4, ⟨⟨0, 0, 1, 1⟩, 0, []⟩)], fills := [⟨k, false, [7], false⟩] }
    ∀ ws ∈ [[], [w]], (d ws).powered 0 = true ∧ (d ws).arm.commitStage ≠ 4 ∧
      (∀ o ∈ (d ws).ops, o.phase = .waitElb → ((d ws).region (regionOf o.cluster)).awaits o.id = true) ∧
      ∀ w ∈ (d ws).fab.rowWrites, (k, 0) ∈ w.left ∧ 2 ≤ w.left.length ∧ (d ws).fab.rowWrites = [w] := by decide +kernel

theorem witness_FabricSleepsAndWakes :
    (fDev).noSleep = false ∧ (fDev).clusterBusy 31 = false ∧ 31 < (fDev).fab.clusters.length ∧
    (tDev [(Reg.FAB_SLEEP_NO_SLEEP, 1)]).noSleep = true ∧
    (let d := fun (bs : List BlockReset) => aDev [(Reg.FAB_WATCH_MASK, 0)] fun d =>
       { d with fab := { d.fab with regions := { Region.blank with power := .on } :: d.fab.regions.drop 1, pll := [true, false] },
                rst := { d.rst with blocks := bs } }
     (d []).quiescent 0 = true ∧ (d []).fab.regions.length = 8 ∧ (d []).fab.rowWrites = [] ∧ (d []).arm.commitStage ≠ 4 ∧ (d []).noSleep = false ∧
       (d []).regionInReset 0 = false ∧ (d [⟨22, 2, 0, false, false, []⟩]).regionInReset 0 = true ∧
       (d [⟨22, 2, 0, false, false, []⟩]).quiescent 0 = true ∧ (d []).quiescent 1 = false) ∧
    (let d := fDev fun d => d.updRegion 0 fun x => { x with power := .up }
     (d.region 0).power = .up ∧ d.fab.pll.getD (dieOf 0) false = true) ∧
    (let d := aDev [] fun d => { d with fab := { d.fab with pllLocking := [1] } }; 1 ∈ d.fab.pllLocking ∧ 0 ∉ d.fab.pllLocking ∧ 1 < d.fab.pll.length) := by
  decide +kernel

theorem witness_FabricSleepsAndWakes_wakes :
    let d := aDev [] fun d => { d with rst := { d.rst with reach := 0 } }
    (d.p Reg.FAB_WATCH_MASK 1).watchMay 0 = true ∧ (d.region 0).power = .off ∧ d.regionAllowed 0 = true ∧ d.regionLimit ≠ 0 := by decide +kernel

theorem witness_FabricSleepsAndWakes_errors :
    let d := fun (reach : Nat) (bs : List BlockReset) => aDev [] fun d => { d with rst := { d.rst with reach := reach, blocks := bs } }
    let b : BlockReset := ⟨20, 3, 0, false, false, []⟩
    (d 0 []).reachOf 20 = 3 ∧ (d 0 []).reachOf 22 = 2 ∧ (d 0 []).rst.reach = 0 ∧ (d 0 []).rst.blocks = [] ∧ (d 0 [b]).rst.blocks = [b] ∧
      2 ≤ b.level ∧ b.target = widerTarget 2 (widerTarget (homeLevel 22) 0 2) b.level ∧ (d 4 []).rst.reach ≠ 0 := by decide +kernel

/-! ### Hypotheses of the statements: channel programs and codec work queues -/

/-- Channel 0 runs a direct program from host memory in a powered region, its fetch in flight at port A; `xs` sets further fields of it. -/
def cDev (xs : List (Fld × Nat)) (f : Dev → Dev := id) : Dev :=
  fDev fun d =>
    let d := d.updPort false fun p => { p with up := true, pf1 := { p.pf1 with bme := true, mse := true }, tags := [⟨0, 1, .chnFetch 0, 32, false⟩] }
    f (((Reg.CHN_STATUS_STATE, 1) :: (Reg.CHN_CTRL_REC_HBM, 1) :: (Reg.CHN_PC_PC, 64) :: xs).foldl (fun (d : Dev) x => d.pi x.1 0 x.2) d)

/-- A word reads as an instruction. -/
def reads (w : BitVec 256) (i : ChInstr) : Bool := match decodeIns w with | .ok j => decide (j = i) | .error _ => false

/-- Channel 0 can run, and a fetch that brings the word delivers the instruction. -/
def given (d : Dev) (w : BitVec 256) (i : ChInstr) : Bool :=
  d.canRun 0 && d.insWord (fun _ => 0) 0 w == w && !d.fetchBad 0 w && reads w i

/-- The machine with it. -/
def cSt (xs : List (Fld × Nat)) (f : Dev → Dev := id) : State := ⟨[], [], cDev xs f⟩

/-- What `given` says is what the statements ask of a fetch. -/
theorem delivers_of_given (d : Dev) (w : BitVec 256) (i : ChInstr) (h : given d w i = true) : (State.mk [] [] d).delivers 0 w i := by
  have z : Memory.read [] = fun _ => 0 := by funext a; rfl
  simp only [given, Bool.and_eq_true, beq_iff_eq, Bool.not_eq_true'] at h
  obtain ⟨⟨⟨h1, h2⟩, h3⟩, h4⟩ := h
  refine ⟨h1, ?_, ?_⟩ <;> simp only [z, h2]
  · exact h3
  · unfold reads at h4
    split at h4
    · rename_i j e; rw [e, of_decide_eq_true h4]
    · cases h4

theorem witness_ChannelDecodeEncode :
    (ChInstr.loopBegin 4 0xFFFF 0xFFFF).wf = true ∧ (ChInstr.end_ (2 ^ 64 - 1)).wf = true ∧ (ChInstr.wait 3 0 255 1).wf = true ∧
      (ChInstr.move true 4 2 true true 2 3 1 3 63 (2 ^ 32 - 4096) (2 ^ 64 - 64) 0 (2 ^ 32 - 64) 64).wf = true := by decide +kernel

theorem witness_ChannelFlow :
    given (cDev []) 0x06#256 .nop = true ∧ given (cDev []) 0x03_00000000_00010003#256 (.loopBegin 1 0 3) = true ∧
    given (cDev []) 0x03_00000005_00010003#256 (.loopBegin 1 5 3) = true ∧ (cDev []).loopOn 0 1 = false ∧
    (let d := cDev [(Reg.CHN_STATUS_LOOPS, 1)]
     given d 0x03_00000005_00020003#256 (.loopBegin 2 5 3) = true ∧ d.loopOn 0 2 = false ∧ (∀ i < 2, 1 ≤ i → d.loopOn 0 i = true)) ∧
    (let d := cDev [(Reg.CHN_STATUS_LOOPS, 1), (loopCount 1, 2)]
     given d 0x10103#256 (.loopNext 1) = true ∧ d.loopOn 0 1 = true ∧ (∀ i < 5, 1 < i → d.loopOn 0 i = false) ∧
       d.gi (loopIndex 1) 0 + 1 < d.gi (loopCount 1) 0) ∧
    (let d := cDev [(Reg.CHN_STATUS_LOOPS, 1), (loopCount 1, 2), (loopIndex 1, 1)]
     given d 0x10103#256 (.loopNext 1) = true ∧ d.gi (loopCount 1) 0 ≤ d.gi (loopIndex 1) 0 + 1) ∧
    given (cDev []) 0x00000001_00000204#256 (.wait 2 0 1 0) = true ∧ given (cDev []) 0x204#256 (.wait 2 0 0 0) = true ∧
    given (cDev []) 0x00000005_00000304#256 (.wait 3 0 5 0) = true ∧ (cDev []).gi Reg.CHN_STATUS_COMPLETED_EARLY 0 = 0 ∧
    ((cDev []).cwq.chans.map (·.1)).Nodup ∧ ((cDev []).chan 0).wait = none ∧
    given (cDev []) 0x0105#256 (.signal 1 0 0 0) = true ∧ given (cDev []) 0x09_00000000_00000205#256 (.signal 2 0 0 9) = true := by decide +kernel

theorem witness_ChannelFlow_delivers : (cSt []).delivers 0 0x06#256 .nop := delivers_of_given _ _ _ (by decide +kernel)

theorem witness_ChannelFlow_expiry :
    let d := fun (k : Nat) => cDev [(Reg.CHN_STATUS_STATE, 2)] fun d => d.updChan 0 fun c => { c with wait := some ⟨k, 0, 5, 0⟩ }
    ((d 2).chan 0).wait = some ⟨2, 0, 5, 0⟩ ∧ ((d 3).chan 0).wait = some ⟨3, 0, 5, 0⟩ := by decide +kernel

/-- R413: LOOP NEXT before the last turn goes back to the body's start and counts. -/
theorem test_loop_next :
    let t := after (.loopNext 0 0x10103) (cSt [(Reg.CHN_STATUS_LOOPS, 1), (loopCount 1, 2)] fun d =>
      d.updChan 0 fun c => { c with starts := [32, 0, 0, 0] })
    t.dev.gi Reg.CHN_PC_PC 0 = 32 ∧ t.dev.gi (loopIndex 1) 0 = 1 := by decide +kernel

theorem witness_ChannelCounters :
    let d := fun (n : Nat) => cDev [] fun d => (d.pi (semReg 1) 1 n).pi Reg.CHN_LEVEL_VALUE 1 n
    let other := fun (amount : Nat) => cDev [] fun d =>
      { d with cwq := { d.cwq with waiters := [⟨1, some 1, 5, amount, none⟩] } }
    (∀ n ∈ [0, 7], given (d n) 0x00_00000007_00410004#256 (.wait 0 0x41 7 0) = true ∧ given (d n) 0x00_00000007_00010104#256 (.wait 1 1 7 0) = true ∧
      (d n).cwq.waiters = []) ∧
    (d 0).chInternal (localChan 0 0x41) = false ∧ localChan 0 0x41 = 1 ∧ (d 0).gi (semReg 1) 1 < 7 ∧ 7 ≤ (d 7).gi (semReg 1) 1 ∧
    7 ≤ (d 7).gi Reg.CHN_LEVEL_VALUE 1 ∧ given (d 0) 0x00_00000007_00410005#256 (.signal 0 0x41 7 0) = true ∧
    given (other 7) 0x00_00000007_00410005#256 (.signal 0 0x41 7 0) = true ∧ (other 7).cwq.waiters = [⟨1, some 1, 5, 7, none⟩] ∧
    7 ≤ min ((other 7).gi (semReg 1) 1 + 7) 0xFFFFFFFF ∧ (d 0).chInternal 0 = false ∧
    (cDev [(Reg.CHN_STATUS_INTERNAL, 1)]).chInternal 0 = true := by decide +kernel

theorem witness_ChannelCounters_commands : (cDev []).commands .mgmt := by unfold Dev.commands; decide +kernel

/-- R410: SIGNAL SEM adds to the semaphore of the named channel, saturating. -/
theorem test_signal_sem :
    let t := after (.signalSem 0 0x00_00000007_00410005) (cSt [] fun d => d.pi (semReg 1) 1 0xFFFFFFFE)
    t.dev.gi (semReg 1) 1 = 0xFFFFFFFF ∧ t.dev.gi Reg.CHN_PC_PC 0 = 96 := by decide +kernel

theorem witness_DirectPrograms_start :
    (let d := aDev []; d.chInternal 0 = false ∧ d.chState 0 = 0 ∧ d.gi Reg.CHN_CTRL_DIRECT 0 = 0) ∧
    (let d := (aDev []).pi Reg.CHN_CTRL_DIRECT 0 1; d.chInternal 0 = false ∧ d.chState 0 = 0 ∧ d.gi Reg.CHN_CTRL_DIRECT 0 = 1) := by decide +kernel

theorem witness_DirectPrograms_end :
    let idle := fun (d : Dev) => d.chInternal 0 == false && (d.chan 0).run.isNone && (d.chan 0).work.isNone && (d.chan 0).ending.isNone && d.chState 0 != 0
    let one := cDev [(Reg.CHN_STATUS_LOOPS, 1)]
    idle (cDev []) = true ∧ idle one = true ∧ (cDev []).gi Reg.CHN_CTRL_REC_HBM 0 = 1 ∧
    given (cDev []) 0x11223344556677880000000000000007#256 (.end_ 0x1122334455667788) = true ∧
    (cDev []).canRun 0 = true ∧ (cDev []).fetchBad 0 0x01000006#256 = false ∧ isRow 0x01000006#256 6 (fun _ => true) = true ∧
    isRow 0x01000006#256 7 (fun _ => true) = false ∧
    given one 0x03_00000005_00010003#256 (.loopBegin 1 5 3) = true ∧ one.loopOn 0 1 = true ∧
    given (cDev []) 0x03_00000005_00020003#256 (.loopBegin 2 5 3) = true ∧ (cDev []).loopOn 0 1 = false ∧
    given (cDev []) 0x10103#256 (.loopNext 1) = true := by decide +kernel

theorem witness_DirectPrograms_timeout :
    let d := cDev [(Reg.CHN_STATUS_STATE, 2)] fun d => d.updChan 0 fun c => { c with wait := some ⟨2, 0, 5, 8⟩ }
    d.chState 0 ≠ 0 ∧ (d.chan 0).wait = some ⟨2, 0, 5, 8⟩ ∧ (d.chan 0).run = none ∧ (d.chan 0).ending = none := by decide +kernel

/-- A program in HBM whose word lies in a line known bad. -/
theorem witness_DirectPrograms_line :
    let d := cDev [] fun d => { (d.pi Reg.CHN_CTRL_PROG_HBM 0 1).pi Reg.CHN_PC_PC 0 d.hostBase with badHost := [d.hostBase / 64] }
    d.canRun 0 = true ∧ d.fetchBad 0 0 = true := by decide +kernel

theorem witness_DirectPrograms_record :
    let d := cDev [(Reg.CHN_CTRL_REC_HBM, 0)]
    d.gi Reg.CHN_CTRL_REC_HBM 0 = 0 ∧ d.canSend d.primaryB 1 = true ∧ (d.chan 0).ending = none ∧ d.chState 0 ≠ 0 := by decide +kernel

theorem witness_ChannelTransfers_move :
    let d := cDev []
    given d 0x0000000000002000_0000000000001000_00001000_00010001#256 (.move false 0 0 false false 0 0 0 1 0 4096 0x1000 0x2000 0 0) = true ∧
    d.stageBad 0 1 (strided 0x1000 (d.loopAt 0 0) 0) 4096 = false ∧ d.stageBad 0 0 (strided 0x2000 (d.loopAt 0 0) 0) 4096 = false ∧
    2 ≤ d.freePages (chCluster 0) := by decide +kernel

/-- The table of a MAC of one source and one destination in HBM with coefficient 2 (R407). -/
def aMacTable : List Byte := le 8 0x1000 ++ le 8 1 ++ (le 8 0x2000 ++ le 8 1) ++ le 8 2

theorem witness_ChannelTransfers_mac :
    let d := cDev []
    (match decodeIns (encodeIns (.mac false 0 false false false 1 0 1 64 0x4000 0 0)) with
      | .ok (.mac _ _ _ _ _ n _ k len tab _ _) => decide (n = 1 ∧ k = 1 ∧ len = 64 ∧ tab = 0x4000) | _ => false) = true ∧
    d.canRun 0 = true ∧ d.macTable (fun _ => 0) 0 0 aMacTable = aMacTable ∧ aMacTable.length = macTableLen 1 1 false ∧
    (match readMacTable 1 1 false aMacTable with
      | .ok (s, t, rows) => decide (s = [⟨0x1000, 1, 0, 0, false⟩] ∧ t = [⟨0x2000, 1, 0, 0, false⟩] ∧ rows = [[2]]) | .error _ => false) = true ∧
    2 ≤ d.freePages (chCluster 0) ∧ d.unitsIn (chCluster 0) ≠ [] := by decide +kernel

/-- A plain MOVE of 64 bytes within the host area with its only unit in flight. -/
def aWork (d : Dev) : Work :=
  { mac := false, gf16 := false, len := 64, pi := 0, pacer := none, irqHalf := false, irqFull := false,
    srcs := [⟨1, d.hostBase, 3, false, false⟩], dsts := [⟨1, d.hostBase + 4096, 0, false, false⟩], rows := [],
    units := [⟨0, [], [], 0, 2⟩], next := 1, done := 0, backs := 0, after := [], halfSeen := false, stop := none }

theorem witness_ChannelTransfers_done :
    let d := cDev [] fun d => d.updChan 0 fun c => { c with work := some (aWork d) }
    (d.chan 0).work = some (aWork d) ∧ d.turn (chCluster 0) = some 0 ∧ d.badHost = [] ∧ d.cwq.waiters = [] ∧
      d.inHostArea d.hostBase 64 = true ∧ d.inHostArea (d.hostBase + 4096) 64 = true ∧ (cDev []).turn (chCluster 0) ≠ some 0 := by decide +kernel

/-- R413 to R415: an ABORT during a MOVE whose next unit has its data lets that unit complete. -/
theorem witness_DirectPrograms_stops :
    let d := cDev [] fun d => d.updChan 0 fun c => { c with work := some (aWork d) }
    (aWork d).stop = none ∧ (aWork d).units.takeWhile TUnit.ready ≠ [] ∧ (d.chan 0).ending = none ∧ d.chInternal 0 = false ∧ d.chState 0 ≠ 0 := by
  decide +kernel

/-- R380, table 9-3: the unit stores its source bytes with the 4-byte swap, and the PC advances. -/
theorem test_transfer_stores :
    let d := cDev [] fun d => d.updChan 0 fun c => { c with work := some (aWork d) }
    let t := after (.transferUnitDone 0) ⟨[], [(d.hostBase, 1), (d.hostBase + 1, 2)], d⟩
    (List.range 4).map (fun i => Memory.read t.mem (d.hostBase + 4096 + i)) = [0, 0, 2, 1] ∧ Memory.read t.mem d.hostBase = 1 ∧
      t.dev.gi Reg.CHN_PC_PC 0 = 96 := by
  decide +kernel

/-- Submission queue 3 of 16 entries is RUNNING with completion queue 2 of 16 entries, owned by port A, whose port may send. -/
def qDev (xs : List (Fld × Nat × Nat)) (f : Dev → Dev := id) : Dev :=
  fDev fun d =>
    let d := d.updPort false fun p => { p with up := true, pf1 := { p.pf1 with bme := true, mse := true } }
    let xs : List (Fld × Nat × Nat) := (Reg.CWQ_SQ_STATUS_STATE, 3, 1) :: (Reg.CWQ_SQ_CTRL_ENABLE, 3, 1) :: (Reg.CWQ_SQ_CTRL_CQ, 3, 2) ::
      (Reg.CWQ_CQ_CTRL_ENABLE, 2, 1) :: xs
    let d := xs.foldl (fun (d : Dev) x => d.pi x.1 x.2.1 x.2.2) d
    f { d with arm := { d.arm with active := some { aArm with routes := [(3, 0)] } } }

/-- The machine with it. -/
def qSt (xs : List (Fld × Nat × Nat)) (f : Dev → Dev := id) : State := ⟨[], [], qDev xs f⟩

/-- A valid entry with command identifier 9 and its program at 0x1000. -/
def anEntry : List Byte := le 1 1 ++ le 1 0 ++ le 2 9 ++ le 4 0 ++ le 8 0x1000 ++ le 48 0

theorem qDev_owns : (qDev []).ownsQueue .portA false 3 ∧ (qDev []).ownsQueue .mgmt true 2 := by
  refine ⟨⟨by decide +kernel, by decide, by decide +kernel⟩, ⟨by decide +kernel, by decide, rfl⟩⟩

theorem witness_CwqDoorbellsAndFetch :
    (let d := qDev []
     5 < 2 ^ 17 ∧ posOf 5 < d.sqSize 3 ∧
       ringUsed (d.gi Reg.CWQ_SQ_HEAD_INDEX 3) (d.gi Reg.CWQ_SQ_TAIL_INDEX 3) (d.sqSize 3) ≤ ringUsed (d.gi Reg.CWQ_SQ_HEAD_INDEX 3) 5 (d.sqSize 3) ∧
       ringUsed (d.gi Reg.CWQ_SQ_HEAD_INDEX 3) 5 (d.sqSize 3) ≤ d.sqSize 3 ∧ 2 ^ 17 ≤ (2 ^ 17 : Word).toNat) ∧
    (let d := qDev [(Reg.CWQ_CQ_TAIL_INDEX, 2, 1)]
     (d.cq 2).waiting = [] ∧ posOf 1 < d.cqSize 2 ∧
       ringUsed (d.gi Reg.CWQ_CQ_HEAD_INDEX 2) 1 (d.cqSize 2) ≤ ringUsed (d.gi Reg.CWQ_CQ_HEAD_INDEX 2) (d.gi Reg.CWQ_CQ_TAIL_INDEX 2) (d.cqSize 2)) ∧
    (let d := qDev [] fun d => d.updPort false fun p => { p with tags := [⟨0, 1, .sqFetch 3, 64, false⟩] }
     (d.findTag (.sqFetch 3)).isSome = true ∧ d.sqState 3 = 1 ∧ anEntry.length = 64 ∧ (d.sq 3).held = none) ∧
    (let d := qDev [] fun d => d.updSq 3 fun q => { q with dirty := true }
     (d.sq 3).dirty = true ∧ d.canSend (d.queueOwnerB false 3) 1 = true) ∧ ((qDev []).sq 3).dirty = false := by decide +kernel

/-- R442: an index beyond the ring changes nothing and is counted. -/
theorem test_doorbell :
    (after (.sqDoorbell .portA 3 5) (qSt [])).dev.gi Reg.CWQ_SQ_TAIL_INDEX 3 = 5 ∧
    (let t := after (.sqDoorbell .portA 3 (2 ^ 17)) (qSt [])
     t.dev.gi Reg.CWQ_SQ_TAIL_INDEX 3 = 0 ∧ t.dev.g Reg.GCS_IGNORED_WRITES_COUNT = 1) := by decide +kernel

theorem witness_CwqDoorbellsAndFetch_outcomes :
    let d := fun (st : Nat) (h : Option (Nat × Nat)) (tail : Nat) => qDev [(Reg.CWQ_SQ_STATUS_STATE, 3, st), (Reg.CWQ_SQ_TAIL_INDEX, 3, tail)] fun d =>
      (d.updPort false fun p => { p with tags := [⟨0, 1, .sqFetch 3, 64, false⟩] }).updSq 3 fun q => { q with held := h }
    (d 2 none 5).sqState 3 ≠ 1 ∧ ((d 2 none 5).findTag (.sqFetch 3)).isSome = true ∧ (qDev []).findTag (.sqFetch 3) = none ∧
    ((d 1 (some (9, 5)) 5).sq 3).held = some (9, 5) ∧ leAt anEntry 2 2 = 9 ∧
    ringBetween ((d 1 (some (9, 5)) 5).gi Reg.CWQ_SQ_HEAD_INDEX 3) 5 ((d 1 (some (9, 5)) 5).sq 3).arrive ((d 1 (some (9, 5)) 5).sqSize 3) = true ∧
    ((tDev []).canSend ((tDev []).queueOwnerB false 3) 1) = false := by decide +kernel

theorem witness_CwqEntriesRun_start :
    let bad := le 64 0
    let d := fun (e : List Byte) => qDev [] fun d => d.updSq 3 fun q => { q with fetched := [⟨0, e, false⟩], credit := 1 }
    (d anEntry).arbitrate.1 = some 3 ∧ (d anEntry).arbitrate.2.dispatchable 3 = some (⟨0, anEntry, false⟩, 0) ∧
      ((d anEntry).sq 3).fetched = [⟨0, anEntry, false⟩] ∧ entryError anEntry = none ∧ (qDev []).arbitrate.1 = none ∧
      ((d bad).arbitrate.1.bind (d bad).arbitrate.2.dispatchable) = some (⟨0, bad, false⟩, 0) ∧ (entryError bad).isSome = true ∧
      (d bad).gi Reg.CWQ_SQ_CTRL_CQ 3 = 2 ∧ (d bad).canSend ((d bad).queueOwnerB true 2) 1 = true ∧ (d bad).gi Reg.CWQ_CQ_CTRL_ENABLE 2 = 1 ∧
      (d bad).cqFull 2 = false ∧ ((d bad).cq 2).waiting = [] := by decide +kernel

/-- Channel 0 runs entry 0 of queue 3 from host memory, its fetch in flight. -/
def rDev (early : Nat := 0) : Dev :=
  qDev [(Reg.CHN_STATUS_STATE, 0, 1), (Reg.CHN_CTRL_REC_HBM, 0, 1), (Reg.CHN_STATUS_COMPLETED_EARLY, 0, early)] fun d =>
    let d := d.updPort false fun p => { p with tags := [⟨0, 1, .chnFetch 0, 32, false⟩] }
    (d.updChan 0 fun c => { c with run := some ⟨3, 0, 9, false, false, false⟩ }).updSq 3 fun q => { q with started := [(9, 0)], fetchAt := 1, arrive := 1 }

theorem witness_CwqEntriesRun_end :
    given rDev 0x07#256 (.end_ 0) = true ∧ given (rDev 1) 0x07#256 (.end_ 0) = true ∧ (rDev 1).gi Reg.CHN_STATUS_COMPLETED_EARLY 0 ≠ 0 ∧
      ((rDev 1).chan 0).run = some ⟨3, 0, 9, false, false, false⟩ ∧ ((cDev []).chan 0).run = none ∧ given (cDev []) 0x07#256 (.end_ 0) = true ∧ (rDev.chan 0).run = some ⟨3, 0, 9, false, false, false⟩ ∧
      rDev.gi Reg.CHN_STATUS_COMPLETED_EARLY 0 = 0 ∧ rDev.gi Reg.CWQ_SQ_CTRL_CQ 3 = 2 ∧ rDev.canSend (rDev.queueOwnerB true 2) 1 = true ∧
      rDev.gi Reg.CWQ_CQ_CTRL_ENABLE 2 = 1 ∧ rDev.cqFull 2 = false ∧ (rDev.cq 2).waiting = [] := by decide +kernel

theorem witness_CwqEntriesRun_abort :
    (rDev.sq 3).held = none ∧
    (let runs := fun (d : Dev) (cid : Nat) =>
       d.cwq.chans.find? fun x => x.2.ending.isNone && (match x.2.run with | some r => r.sq == 3 && r.cid == cid | none => false)
     (runs rDev 9).isSome = true ∧ runs rDev 8 = none ∧ ((rDev.sq 3).fetched.find? fun e => !e.removed && leAt e.bytes 2 2 == 8) = none ∧
       (∀ x ∈ (rDev.sq 3).started, x.1 ≠ 8) ∧ (∃ x ∈ (rDev.sq 3).started, x.1 = 9) ∧ runs (rDev.updChan 0 fun _ => Chan.idle) 9 = none ∧
       ((rDev.sq 3).fetched.find? fun e => !e.removed && leAt e.bytes 2 2 == 9) = none ∧ ((rDev.updSq 3 fun q => { q with held := some (1, 0) }).sq 3).held ≠ none ∧
       (let d := qDev [] fun d => d.updSq 3 fun q => { q with fetched := [⟨0, anEntry, false⟩] }
        runs d 9 = none ∧ ((d.sq 3).fetched.find? fun e => !e.removed && leAt e.bytes 2 2 == 9).isSome = true)) ∧
    (let d := qDev [(Reg.CWQ_SQ_TAIL_INDEX, 3, 5)]; d.sqState 3 = 1 ∧ (d.sq 3).arrive ≠ d.gi Reg.CWQ_SQ_TAIL_INDEX 3) ∧
    (qDev []).gi Reg.CWQ_SQ_TAIL_INDEX 3 = ((qDev []).sq 3).arrive := by decide +kernel

theorem witness_CwqEnableDisable :
    (let d := qDev [(Reg.CWQ_SQ_STATUS_STATE, 3, 0), (Reg.CWQ_SQ_CTRL_ENABLE, 3, 0)]
     d.sqState 3 ≠ 1 ∧ d.sqEnableError 3 = none ∧ d.cqInUse 2 = false) ∧
    (aDev []).sqEnableError 1023 = some 1 ∧ (aDev []).sqState 1023 ≠ 1 ∧ (qDev []).sqState 3 = 1 ∧ (qDev []).cqInUse 2 = true ∧
    (qDev [(Reg.CWQ_SQ_STATUS_STATE, 3, 3)]).sqState 3 = 3 ∧ (qDev [(Reg.CWQ_SQ_STATUS_STATE, 3, 2)]).sqState 3 = 2 ∧
    (let d := aDev []; d.gi Reg.CWQ_CQ_CTRL_ENABLE 255 = 0 ∧ d.store (d.queueOwnerB true 255) = [] ∧ d.outside (d.queueOwnerB true 255) = [] ∧
      ∀ x ∈ d.cwq.cqs, (d.cq x.1).waiting = []) ∧
    ((aDev []).cq 2).pending = 0 ∧ (((aDev []).updCq 2 fun q => { q with pending := 1 }).cq 2).pending ≠ 0 := by decide +kernel

/-- A completion of queue 3 for completion queue 2, of a queue without a channel. -/
def aCpl : CqCpl := ⟨2, 3, 9, 0, 0, 0, 0, 0, false, false, false, none⟩

/-- It is held for a disabled queue, whose port may send. -/
theorem witness_CwqEnableDisable_held :
    let d := fun (b : Bool) => (qDev [(Reg.CWQ_CQ_CTRL_ENABLE, 2, 0)] fun d => { d with cwq := { d.cwq with storeA := if b then [aCpl] else [] } })
    (d true).gi Reg.CWQ_CQ_CTRL_ENABLE 2 = 0 ∧ (d true).canSend ((d true).queueOwnerB true 2) 1 = true ∧ (d true).store false = [aCpl] ∧ aCpl.cq = 2 ∧ aCpl.chan = none ∧
      (d true).outside false = [] ∧ (∀ x ∈ (d true).cwq.cqs, ((d true).cq x.1).waiting = []) := by decide +kernel

/-- The moderation timer's vector is enabled and not masked. -/
theorem witness_CwqEnableDisable_timer :
    let d := qDev [(Reg.CWQ_CQ_CTRL_IEN, 2, 1)] fun d =>
      (d.updCq 2 fun q => { q with pending := 1 }).updPort false fun p => { p with pf1 := { p.pf1 with msixEn := true, table := [(0, ⟨0, 0, false⟩)] } }
    (d.cq 2).pending ≠ 0 ∧ d.gi Reg.CWQ_CQ_CTRL_IEN 2 ≠ 0 ∧ (d.port (d.queueOwnerB true 2)).pf1.msixEn = true ∧
      (d.port (d.queueOwnerB true 2)).pf1.msixMask = false ∧ ((AMap.get (d.port false).pf1.table (d.gi Reg.CWQ_CQ_CTRL_VECTOR 2)).getD ⟨0, 0, true⟩).masked = false ∧
      d.canSend (d.queueOwnerB true 2) 1 = true := by decide +kernel

/-- The other host port is no owner. -/
theorem witness_CwqEnableDisable_other :
    let d := qDev [] fun d => d.updPort true fun p => { p with up := true, pf1 := { p.pf1 with mse := true } }
    d.reaches .portB = true ∧ ¬ d.ownsQueue .portB false 3 ∧ ¬ d.ownsQueue .portB true 2 := by
  refine ⟨by decide +kernel, fun h => ?_, fun h => ?_⟩
  · exact absurd h.2.2 (by decide +kernel)
  · exact absurd h.2.2 (by decide +kernel)

/-! ### Hypotheses of the statements: the NVMe front end -/

/-- The sample device, with a command waiting in the admin queue, changed. -/
def nDev (xs : List (Fld × Nat)) (f : Dev → Dev := id) : Dev := aDev xs fun d => f (adminUp d)

theorem nDev_takes : (nDev []).adminTakes false := by
  refine ⟨by decide +kernel, ⟨0, 0, 16, 0, 1, 0⟩, ⟨0, 16, 0, 0, 0, true, []⟩, ?_, ?_, rfl, rfl, ?_, ?_⟩ <;> decide +kernel

/-- A catchable and an uncatchable command of queue 1. -/
def busyCmd (admitted : Bool) : HostCmd := { aCmd 5 .write with admitted := admitted }

theorem witness_IoQueuesComeAndGo :
    (let c := (nDev []).ctl false
     (1 ≤ 1023 ∧ 1023 ≤ 1023 ∧ 1023 ∉ c.cqs.map (·.id)) ∧ ¬(1 ≤ 1 ∧ 1 ≤ 1023 ∧ 1 ∉ c.cqs.map (·.id)) ∧ 1 ∈ c.cqs.map (·.id) ∧
       2 ∉ c.cqs.map (·.id) ∧ 1 ∈ c.sqs.map (·.cq) ∧ 1 ∈ c.sqs.map (·.id) ∧ 1 ∉ c.deleting.map (·.1) ∧
       (∀ x ∈ (nDev []).cmds, x.portB = false → x.sq = 1 → x.detached = true)) ∧
    (let d := nDev [] fun d => { d with ctlA := { d.ctlA with cqs := d.ctlA.cqs ++ [⟨2, 16, 0, 0, 0, true, []⟩] } }
     2 ∈ (d.ctl false).cqs.map (·.id) ∧ 2 ∉ (d.ctl false).sqs.map (·.cq)) ∧
    (let d := nDev [] fun d => { d with cmds := [busyCmd true] }
     (∃ x ∈ d.cmds, x.portB = false ∧ x.sq = 1 ∧ x.detached = false) ∧
       (∀ x ∈ d.cmds, x.portB = false → x.sq = 1 → x.detached = false → x.catchable = false)) := by decide +kernel

theorem witness_AdminQueriesAnswer :
    (nDev []).hasNs 1 = true ∧ (nDev []).cachePresent = true ∧ (nDev []).fetchable false 0 = true ∧
      0x0D ∉ [0x01, 0x02, 0x04, 0x06, 0x07, 0x08, 0x09, 0x0A, 0x0B, 0x0C, 0x11, 0xC0, 0xC1] := by decide +kernel

/-- R500: Identify of the active namespaces. -/
theorem test_identify_list :
    Emit.info false 7 "Identify" [("CNS", 2), ("NSID", 1)] ∈ (after (.identify false 7 2 0 0) (⟨[], [], nDev []⟩ : State)).dev.emitted := by
  decide +kernel

theorem witness_AbortEventsFlushDoorbells_abort :
    let caught := fun (d : Dev) => d.cmds.find? fun x => x.portB == false && x.sq == 1 && x.cid == 7 && !x.detached && x.catchable
    let d := nDev [] fun d => { d with cmds := [busyCmd false] }
    caught (nDev []) = none ∧ caught d = some (busyCmd false) ∧ d.cmds.filter (·.id = 5) = [busyCmd false] ∧ (d.ctl false).deleting = [] ∧
      d.ops = [] ∧ (d.ctl false).aers.length < 16 ∧ (d.ctl false).notices = [] ∧
      (∀ q ∈ (d.ctl false).sqs, ∀ r ∈ (d.ctl false).sqs, q.id = 1 → r.id = 0 → q.cq ≠ r.cq) := by decide +kernel

theorem witness_AbortEventsFlushDoorbells_aer :
    let d := nDev [] fun d => { d with ctlA := { d.ctlA with aers := [7] } }
    7 ∈ (d.ctl false).aers ∧ 7 < tunnelCid ∧ (∀ q ∈ (d.ctl false).cqs, q.id = 0 → ((q.tail + 1) % q.size + 1) % q.size ≠ q.head) ∧
      9 ∉ (d.ctl false).aers ∧ (aDev []).fetchable false 0 = false := by decide +kernel

theorem witness_AbortEventsFlushDoorbells_held :
    (aDev [] fun d => hostUp { d with keys := { d.keys with switching := [1] } }).nsHeld io.nsid = true ∧
      (aDev [] hostUp).nsHeld io.nsid = false ∧ (aDev [] hostUp).nsError 2 = some .invalidNamespaceOrFormat ∧ (2 : Nat) ≠ 0xFFFFFFFF := by decide +kernel

theorem witness_AbortEventsFlushDoorbells_notices :
    (let d := nDev [] fun d => { d with ctlA := { d.ctlA with notices := [(2, 0, 4)] } }
     (d.ctl false).notices = [(2, 0, 4)] ∧ (d.ctl false).aers.length < 16) ∧
    16 ≤ ((nDev [] fun d => { d with ctlA := { d.ctlA with aers := List.range 16 } }).ctl false).aers.length := by decide +kernel

theorem witness_AbortEventsFlushDoorbells_flush :
    (let d := aDev [] hostUp
     d.fetchable false io.sq = true ∧ io.nsid ≠ 0xFFFFFFFF ∧ d.nsError io.nsid = none ∧ d.cmds = [] ∧ d.cachePresent = true) ∧
    (let d := aDev [(Reg.JNL_TAIL_SEQ_SEQ, 8)] hostUp; d.cachePresent = true ∧ d.tail ≤ d.head) ∧
    (let d := aDev [(Reg.VLT_STATUS_HOLDUP_CERT, 1)] hostUp
     d.cachePresent = false ∧ d.fetchable false 1 = true ∧ (d.ctl false).deleting = []) := by decide +kernel

theorem witness_AbortEventsFlushDoorbells_post : (aDev [(Reg.VLT_STATUS_HOLDUP_CERT, 1)] hostUp).canPost false 1 :=
  (canPost_up [(Reg.VLT_STATUS_HOLDUP_CERT, 1)] (by decide +kernel) (by decide +kernel)).1

theorem witness_AbortEventsFlushDoorbells_bells :
    let q : NCq := ⟨1, 16, 0, 15, 0, true, [⟨1, 9, .success, 0⟩]⟩
    let d := aDev [] fun d => let d := hostUp d; { d with ctlA := { d.ctlA with cqs := [⟨0, 16, 0, 0, 0, true, []⟩, q] } }
    (aDev []).takesBar0 false = false ∧ d.takesBar0 false = true ∧ 1 ∉ (d.ctl false).deleting.map (·.1) ∧ q ∈ (d.ctl false).cqs ∧ 5 < q.size ∧
      ((d.ctl false).cqs.map (·.id)).Nodup ∧ (∀ r ∈ (d.ctl false).cqs, r.id ≠ q.id → r.held = []) ∧ (q.tail + 1) % q.size ≠ 5 ∧
      d.canSend false 0 = true ∧ d.postStopped = false := by decide +kernel

theorem witness_ControllerLifeCycle :
    (let d := aDev [(Reg.BUF_STATUS_INIT_DONE, 1)] fun d => { hostUp d with ctlA := NvmeCtl.blank }
     d.takesBar0 false = true ∧ (d.ctl false).en = false ∧ (d.ctl false).rdy = false ∧ (d.ctl false).cfs = false ∧ d.running = true ∧
       d.on Reg.BUF_STATUS_INIT_DONE = true ∧ d.heldNotReady = false) ∧
    (let d := aDev [(Reg.JNL_STATUS_STATE, 1)] fun d => let d := hostUp d; { d with ctlA := { d.ctlA with rdy := false } }
     (d.ctl false).en = true ∧ (d.ctl false).rdy = false ∧ d.heldNotReady = true) ∧
    (let d := aDev [(Reg.VLT_STATUS_HOLDUP_CERT, 1)] hostUp
     (d.ctl false).en = true ∧ (d.ctl false).rdy = true ∧ d.takesBar0 false = true ∧ (d.ctl false).shst = 0 ∧ d.cachePresent = false ∧ d.cmds = []) ∧
    (∃ x ∈ (aDev [] fun d => { hostUp d with cmds := [busyCmd true] }).cmds, x.portB = false ∧ x.detached = false) ∧
    (let d := aDev [] fun d => let d := hostUp d
       { d with ctlA := { d.ctlA with feats := [(0x0C, 1)], apst := List.replicate 32 0x6418 } }
     ((d.ctl false).feat 0x0C).toNat.testBit 0 = true ∧ apstEntry (d.ctl false).apst 0 = (100, 3)) ∧
    (((aDev [] hostUp).ctl false).feat 0x0C).toNat.testBit 0 = false := by decide +kernel

theorem witness_FirmwareFormatSanitize_images :
    (let d := nDev [(Reg.MBX_STATUS_CORE_UP, 1)] fun d =>
       { d with mgmt := { d.mgmt with act := some ⟨3, some (false, 9)⟩, slots := List.replicate 3 ⟨1, [], 0⟩, download := [(0, [1])] } }
     d.mgmt.act = some ⟨3, some (false, 9)⟩ ∧ (d.fw 3).st = 1 ∧ d.cmds = [] ∧ d.nvm.erases = []) ∧
    (let d := nDev [(Reg.MBX_STATUS_CORE_UP, 1)] fun d => { d with mgmt := { d.mgmt with download := [(0, [1])] } }
     d.fetchable false 0 = true ∧ d.on Reg.MBX_STATUS_CORE_UP = true ∧ d.mgmt.slots.length = 3 ∧ d.mgmt.pldm = none ∧ d.mgmt.act = none ∧
       downloaded d.mgmt.download ≠ []) := by decide +kernel

/-- A sanitize that waits. -/
def anErase : Erase := ⟨true, [1], 2, ⟨0, 0, false⟩, 0, false, 9, 0, 0, false, false, false, false, true⟩

theorem witness_FirmwareFormatSanitize_erasures :
    (let d := nDev []
     d.hasNs 1 = true ∧ d.hasNs 2 = false ∧ d.nvm.sanFailed = false ∧ d.solo = true ∧ d.armBusy = false ∧ d.acd.nsOps = [] ∧ d.nsBusy 1 = false ∧
       ((d.nsidsOwned true).filter fun n => n == 1) = [1] ∧ d.ops = []) ∧
    (let d := nDev [(Reg.ARM_STATUS_DRAINING, 1)]; d.armBusy = true ∧ d.solo = true) ∧
    (let d := nDev [] fun d => { d with nvm := { d.nvm with sanFailed := true, sanAuse := true } }
     d.nvm.sanFailed = true ∧ d.nvm.sanAuse = true ∧ d.fetchable false 0 = true) ∧
    (nDev [(Reg.MBX_STATUS_CORE_UP, 1)] fun d => { d with nvm := { d.nvm with erases := [anErase] } }).nvm.erases ≠ [] := by decide +kernel

theorem witness_FirmwareFormatSanitize_commands :
    (nDev []).on Reg.MBX_STATUS_CORE_UP = false ∧
    (let d := nDev [(Reg.MBX_STATUS_CORE_UP, 1)]
     d.sanitizing = false ∧ d.mgmt.pldm = none ∧ d.nvm.erases = [] ∧ d.mgmt.act = none ∧ (∀ x ∈ d.cmds, x.detached = true)) ∧
    (nDev [(Reg.MBX_STATUS_CORE_UP, 1)] fun d => { d with nvm := { d.nvm with erases := [{ anErase with waiting := false }] } }).sanitizing = true ∧
    (nDev [(Reg.MBX_STATUS_CORE_UP, 1)] fun d => { d with mgmt := { d.mgmt with pldm := some ⟨3, [], 0⟩ } }).mgmt.pldm ≠ none ∧
    (∃ x ∈ (nDev [] fun d => { d with cmds := [busyCmd true] }).cmds, x.detached = false) := by decide +kernel

theorem witness_AdminQueriesAnswer_notFetched : (aDev []).fetchable false 0 = false ∧ (aDev [(Reg.VLT_STATUS_HOLDUP_CERT, 1)] hostUp).cachePresent = false ∧
    featSaveable 0x33 = none ∧ (∃ q ∈ ((nDev []).ctl false).cqs, q.id ≠ 0) := by decide +kernel

theorem witness_AdminQueriesAnswer_tunnel : tunnelCid ≤ tunnelCid + 1 ∧ (nDev []).solo = true ∧ (nDev []).activating = false := by decide +kernel

theorem witness_ControllerLifeCycle_more :
    (∃ x ∈ (aDev [] fun d => { hostUp d with cmds := [busyCmd false] }).cmds, x.portB = false ∧ x.detached = false ∧
      ∀ o ∈ (aDev []).ops, o.kind ≠ .degraded x.id) ∧
    (let d := aDev [(Reg.JNL_TAIL_SEQ_SEQ, 8)] hostUp; (d.ctl false).shst = 0 ∧ d.cachePresent = true ∧ d.tail ≤ d.head) ∧
    ((aDev [] fun d => let d := hostUp d; { d with ctlA := { d.ctlA with shst := 2 } }).ctl false).shst ≠ 0 := by decide +kernel

/-! ### Hypotheses of the statements: the host ports -/

/-- The sample device with port A up and PF1 taking memory accesses; window entry 0 maps to the first 4 MiB of the host area, both ways. -/
def wDev (f : Dev → Dev := id) : Dev :=
  aDev [(Reg.BUF_STATUS_INIT_DONE, 1)] fun d =>
    f ((d.updPort false fun p => { p with up := true, pf1 := { p.pf1 with bme := true, mse := true } }).setReg 0x201000
      (BitVec.ofNat 64 (d.hostBase + 3)))

/-- The machine with it. -/
def wSt (f : Dev → Dev := id) : State := ⟨[], [], wDev f⟩

theorem witness_WindowAndRom :
    (aDev []).takesPf1 false = false ∧ (wDev).takesPf1 false = true ∧ (wDev).translate false (2 ^ 30 - 1) false = none ∧
    (wDev).translate false (2 ^ 30 - 1) true = none ∧ (wDev).translate false 0x3FFFFF false = some ((wDev).hostBase + 0x3FFFFF) ∧
    (wDev).translate false 0 true = some (wDev).hostBase ∧ (wDev).badRead (wDev).hostBase 64 = false ∧ (wDev).badHost = [] ∧
    (wDev).inHostArea (wDev).hostBase 64 = true ∧
    (((wDev fun d => d.updFn false 1 fun f => { f with cfg := [(0x30, 1)] }).port false).pf1.cfgAt 0x30).toNat.testBit 0 = true := by decide +kernel

/-- R543: bytes written through the window read back through it. -/
theorem test_window_reads_back :
    let t := after (.bar4Write false 8 [1, 2] false) wSt
    (List.range 4).map (fun i => Memory.read t.mem ((wDev).hostBase + 7 + i)) = [0, 1, 2, 0] ∧
      (after (.bar4Read false 7 4) t).dev.emitted = [.replyBytes [0, 1, 2, 0]] := by decide +kernel

theorem witness_FunctionsAreConfigured :
    ((aDev []).port false).up = false ∧
    (let d := aDev [] fun d => d.updPort false fun p => { p with up := true }
     (d.port false).up = true ∧ d.on Reg.BUF_STATUS_INIT_DONE = false) ∧
    ((wDev).port false).up = true ∧ (wDev).on Reg.BUF_STATUS_INIT_DONE = true ∧ 0x3C ∉ [0x04, 0x44, 0x50, 0x78, 0x104] ∧
    (0x02 : Word).toNat.testBit 1 = true ∧ (0x02 : Word).toNat.testBit 2 = false ∧ (wDev).cwq = Cwq.blank ∧
    (((wDev).port false).fn 1).bme = true ∧ (wDev).maq ≠ 1 ∧ (((wDev).port false).fn 1).pba = [] ∧ ((wDev).port false).waiting = [] ∧
    (∀ q ∈ ((wDev).ctl false).cqs, q.held = []) ∧ (wDev).cwq.cqs = [] := by decide +kernel

/-- A tag of PF1 that nobody waits for. -/
def aTag (q : Bool) : TagUse := ⟨5, 1, .none, 64, q⟩

/-- The device with tag 5 of port A in use. -/
def tagDev (t : TagUse) : Dev := wDev fun d => d.updPort false fun p => { p with tags := [t] }

/-- The same with completion timeouts of both functions disabled. -/
def noTimeout (d : Dev) : Dev :=
  let f := fun (x : Fn) => { x with cfg := [(0x98, 16)] }
  (d.updFn false 0 f).updFn false 1 f

theorem witness_CompletionsAndPortResets :
    (wDev).tagUse false 5 = none ∧ (tagDev (aTag true)).tagUse false 5 = some (aTag true) ∧
    (tagDev (aTag false)).tagUse false 5 = some (aTag false) ∧ ((tagDev (aTag true)).port false).waiting = [] ∧
    (tagDev (aTag true)).timeoutOff false 1 = false ∧ (noTimeout (tagDev (aTag true))).timeoutOff false 1 = true ∧
    (let d := noTimeout (tagDev (aTag false)); d.tagUse false 5 = some (aTag false) ∧ d.timeoutOff false 1 = true) ∧
    (let w := { aWork (wDev) with units := [⟨0, [(0, 0)], [], 0, 2⟩] }
     let d := (tagDev ⟨5, 1, .chnSrc 0 0 0 0, 64, false⟩).updChan 0 fun c => { c with work := some w }
     d.tagUse false 5 = some ⟨5, 1, .chnSrc 0 0 0 0, 64, false⟩ ∧ AMap.get d.cwq.chans 0 = some (d.chan 0) ∧ (d.chan 0).work = some w) ∧
    (let d := aDev [] hostUp; d.timeoutOff false 0 = false ∧ (d.ctl false).rdy = true) ∧
    (wDev).reachOf 2 = 6 ∧ (wDev).reachOf 3 = 6 ∧ (wDev).cwq = Cwq.blank ∧ (wDev).maq ≠ 1 ∧
    (wDev fun d => { d with rst := { d.rst with reach := 0 } }).rst.reach = 0 := by decide +kernel

theorem witness_CompletionsAndPortResets_discard :
    let t : TagUse := ⟨5, 1, .discard, 64, false⟩
    (tagDev t).tagUse false 5 = some t ∧ ((tagDev t).port false).waiting = [] ∧
      (wDev fun d => { d with rst := { d.rst with reach := 5 } }).rst.reach ≠ 0 := by decide +kernel

theorem witness_CompletionsAndPortResets_calm : (wDev).calm := by unfold Dev.calm; decide +kernel

theorem witness_FunctionsAreConfigured_moderated :
    let d := wDev fun d => (d.updCq 2 fun q => { q with pending := 1 }).updPort false fun p => { p with pf1 := { p.pf1 with msixEn := true } }
    d.moderated false = [2] ∧ (d.port false).pf1.msixEn = true ∧ (d.port false).pf1.msixMask = false ∧ (wDev).moderated false = [] := by decide +kernel

/-- A line known bad in the window. -/
theorem witness_WindowAndRom_bad :
    let d := wDev fun d => { d with badHost := [d.hostBase / 64] }
    d.translate false 0 false = some d.hostBase ∧ d.badRead d.hostBase 64 = true := by decide +kernel

/-- R556: a completion of a quarantined tag frees it and is counted late. -/
theorem test_late_completion :
    let t := after (.hostCompletion false 5 (.good [])) ⟨[], [], tagDev (aTag true)⟩
    t.dev.tagUse false 5 = none ∧ t.dev.g (cplFld false).2.1 = 1 := by decide +kernel

/-! ### Hypotheses of the statements: the member ports -/

/-- The sample device whose member 0 is changed, with link 0 up. -/
def lDev (f : Mbr → Mbr) (g : Dev → Dev := id) (xs : List (Fld × Nat) := []) : Dev :=
  aDev xs fun d => g (Dev.updLink { d with mbrs := f aMbr :: List.replicate 3 aMbr } 0 fun x => { x with present := true, up := true })

theorem witness_MemberEscalation :
    (let c := aMcmd 9 .label .none 0
     let d := aDev [(Reg.SIL_FAIL_TIMEOUT_FAIL, 2)] fun d => { d with mbrs := { aMbr with st := .suspect } :: List.replicate 3 aMbr, mcmds := [c] }
     let e := d.updMbr 0 fun x => { x with window := x.window ++ [(d.now, .tmo)], lastHealthUs := d.now }
     0 < d.mbrs.length ∧ 0 < d.memberTable.length ∧ d.mcmd 9 = some c ∧ 1 ≤ d.abortLimit 0 ∧ (d.mbr 0).st = .suspect ∧ e.failCause 0 = none ∧
       (∀ y ∈ d.mcmds, y.id ≠ d.nextId)) ∧
    (let c := { aMcmd 9 .read .none 0 with phase := .held }
     let d := aDev [] fun d => { d with mcmds := [c] }
     d.mcmd 9 = some c ∧ (d.mbr 0).resetting = 0 ∧ (∀ y ∈ d.mcmds, y.member = 0 → y.phase ≠ .outstanding)) ∧
    ((mDev fun m => { m with resetting := 1 }).mbr 0).resetting = 1 ∧
    (let d := lDev fun m => { m with resetting := 2, matched := some 0 }
     d.mcmds = [] ∧ (d.mbr 0).resetting = 2 ∧ (d.mbr 0).st.active = true ∧ 0 < d.mport.links.length ∧ d.membersBelow 0 [] = [0] ∧
       (d.link 0).up = true ∧ (d.link 47).up = false ∧ d.log.droppedSince = 0 ∧ d.log.tail.length < 4096) ∧
    (let d := mDev fun m => { m with st := .retired, matched := some 0 }; (d.mbr 0).matched.isSome = true ∧ (d.mbr 0).st = .retired) := by
  decide +kernel

theorem witness_MemberEscalation_errors :
    let d := mDev fun m => { m with st := .suspect, matched := some 0 }
    let e := d.updMbr 0 fun x => { x with window := x.window ++ [(d.now, .err)], lastHealthUs := d.now }
    e.failCause 0 = none ∧ (d.mbr 0).matched.isSome = true ∧ d.mcmds = [] ∧ (d.mbr 0).st.active = true ∧ d.log.tail.length < 4095 ∧
      (4 : Nat).testBit 2 = true ∧ (1 : Nat).testBit 2 = false ∧ (mDev id).calm := by unfold Dev.calm; decide +kernel

theorem witness_MemberEscalation_reset :
    let c := { aMcmd 9 .read .none 0 with phase := .held }
    let d := aDev [] fun d => { d with mcmds := [c], mbrs := { aMbr with resetting := 1 } :: List.replicate 3 aMbr }
    (d.mbr 0).resetting ≠ 0 ∧ (∀ y ∈ d.mcmds, y.member ∈ d.ctlMembers 0 → y.phase = .held → y.kind = .read) ∧
      (∀ y ∈ d.mcmds, y.member ∈ d.ctlMembers 0 → y.phase ≠ .outstanding) ∧
      (aDev [(Reg.ACD_STATUS_STATE, 2), (Reg.ACD_STATUS_STEWARD, 0)]).steward = false := by decide +kernel

/-- A discovered namespace on link 1 of group 0, with the label of member 1. -/
def aDisc (nguid : Nat) : Disc :=
  ⟨0, 1, 0, [0xFF, 0xFF, 0xFF, 0xFF], 12, 0xFFFF, 1, BitVec.ofNat 128 nguid, 2 ^ 20, 16, false, false, 4096, ⟨2, 0, 0, 16, true, 16, true, true, true⟩,
    (aDev []).labelBytes aArm 1, 4, 20000, 9⟩

theorem witness_ArrivalAndSlots_links :
    (let d := aDev [(Reg.MBR_PWR_CFG_AUTO, 0)]; d.linkExists 0 = true ∧ d.mport.links.length = 48 ∧ d.membersBelow 0 [] = []) ∧
    (let d := aDev [(Reg.MBR_PWR_CFG_AUTO, 1)]
     (d.g Reg.MBR_SLOT_PWR_ON).testBit 0 = false ∧ d.g Reg.MBR_PWR_CFG_AUTO = 1 ∧ d.mport.slotQueue = [] ∧ d.mport.batching = false ∧
       (d.link 0).up = false ∧ d.linkExists 48 = false) ∧
    (let d := aDev [] fun d => { d with mport := { d.mport with enumLeft := [3] } }; 3 ∈ d.mport.enumLeft ∧ (∀ k ∈ d.mport.enumLeft, k = 3)) ∧
    (let d := tDev []; d.arm.active = none ∧ (∀ y ∈ d.disc, y.same (aDisc 1) = false) ∧ d.disc.length < 4096) ∧
    (let d := aDev []
     d.identify (aDisc 2) = (0, 1) ∧ 1 < d.mbrs.length ∧ (d.mbr 1).st = .online ∧ (d.mbr 1).awaitId = false ∧ (d.mbr 1).labelPending = false) := by
  decide +kernel

theorem witness_ArrivalAndSlots_rest :
    (lDev id).mport.fmt = none ∧ ((lDev id).link 0).up = true ∧ (lDev id).disc[0]? = none ∧
    (let d := aDev [] fun d => { d with mport := { d.mport with fmt := some (0, true) } }; d.mport.fmt = some (0, true)) ∧
    (let d := aDev [] fun d => { d with disc := [aDisc 9] }; d.disc[0]? = some (aDisc 9) ∧ (aDisc 9).status = 12 ∧ d.mport.fmt = none) ∧
    (let d := tDev []; d.linkExists 0 = true ∧ d.memberTable = [] ∧ d.mport.links.length = 48 ∧ d.linkExists 47 = false) ∧
    (((aDev []).memberTable[0]?).map (·.globalLink) = some 0 ∧ ((aDev []).mbr 0).st.active = true ∧ (aDev []).linkExists 0 = true) ∧
    (let d := aDev [] fun d => { d with mport := { d.mport with batching := true, slotQueue := [(false, 47)] } }
     d.mport.batching = true ∧ d.mport.slotQueue = [(false, 47)]) ∧
    (let d := tDev [(Reg.RST_STATUS_OPT_VALID, 1)] fun d => { d with mport := { d.mport with mperst := true } }
     d.mport.mperst = true ∧ d.mport.slotQueue = [] ∧ d.on Reg.RST_STATUS_OPT_VALID = true) := by decide +kernel

theorem witness_ArrivalAndSlots_arrival :
    let d := fun (reach : Nat) (x : Mbr) => aDev [] fun d => { d with rst := { d.rst with reach := reach }, mbrs := x :: List.replicate 3 aMbr }
    let w := { aMbr with resetting := 2, matched := some 0 }
    (d 0 aMbr).groupsUp = true ∧ (d 5 aMbr).groupsUp = false ∧ ((d 5 aMbr).link 0).up = false ∧ (d 0 w).membersBelow 0 [] = [0] ∧
      ((d 0 w).mbr 0).resetting = 2 ∧ (d 0 w).mcmds = [] := by decide +kernel

theorem witness_ArrivalAndSlots_list :
    let c := { aMcmd 9 .read .none 0 with phase := .held }
    let a := aMcmd 10 (.abort 9) .none 0
    (let d := aDev [] fun d => { d with mcmds := [c, a] }; d.mcmd 9 = some c ∧ (∃ a ∈ d.mcmds, a.kind = .abort 9) ∧ ∀ y ∈ d.mcmds, y.kind ≠ .abort 8) ∧
    (let at_ := 40 * 2 ^ 30
     let d := aDev [(Reg.MBR_DISC_ADDR_ADDR, at_ / 64)] fun d => { d with disc := [aDisc 9] }
     d.badHost = [] ∧ d.inHostArea at_ d.discBytes.length = true ∧ d.g Reg.MBR_DISC_ADDR_ADDR * 64 = at_) ∧
    (aDev [] fun d => { d with disc := [aDisc 9] }).inHostArea 0 64 = false := by decide +kernel

theorem witness_ArrivalAndSlots_switch :
    let a := { aArm with members := aArm.members.map fun m => { m with hops := 1 } }
    let d := aDev [] fun d => { d with arm := { d.arm with active := some a }, mbrs := List.replicate 4 { aMbr with st := .failed } }
    (∃ x, d.memberTable[0]? = some x ∧ x.hops ≠ 0) ∧ (∀ x ∈ d.mbrs, x.st.active = false) ∧ d.memberTable.length ≤ 4 ∧ d.mport.slotQueue = [] ∧
      d.mport.batching = false := by
  refine ⟨⟨_, rfl, by decide⟩, ?_⟩; decide +kernel

/-! ### Hypotheses of the statements: the accord -/

/-- The sample device in an accord state, its ring empty, both peer links up. -/
def pAcd (state : Nat) (xs : List (Fld × Nat) := []) (f : Dev → Dev := id) : Dev :=
  aDev ((Reg.ACD_STATUS_STATE, state) :: (Reg.ACD_STATUS_LINKS_UP, 3) :: xs) f

theorem witness_AccordLossAndLinks :
    (aDev []).solo = true ∧ (pAcd 2).solo = false ∧ (pAcd 2).peerLive = true ∧ (pAcd 2).acdState ≠ 1 ∧ (pAcd 2).acd.mute = false ∧
    (let d := aDev [(Reg.ACD_STATUS_STATE, 1)]; d.acdState = 1 ∧ d.peerLive = true ∧ d.g Reg.ACD_STATUS_LINKS_UP = 0 ∧ d.acd.mute = false) ∧
    (pAcd 2).acd.peer = none ∧ (pAcd 2).acd.lossDeclared = false ∧ (pAcd 2).maq ≠ 5 ∧
    (pAcd 2 [(Reg.ACD_STATUS_ROLE, 0)]).role = 0 ∧ (pAcd 2 [(Reg.ACD_STATUS_ROLE, 1)]).role = 1 ∧
    (pAcd 2).g Reg.ACD_STATUS_FENCE_IN = 0 ∧ (pAcd 2).g Reg.ACD_STATUS_FENCE_OUT = 0 ∧
    (let d := pAcd 1 [(Reg.ACD_STATUS_MIRROR_VALID, 1)]; d.acdState = 1 ∧ d.mirrorValid = true ∧ d.acd.fenced = false) ∧
    (pAcd 1 [] fun d => { d with acd := { d.acd with mute := true } }).acd.mute = true ∧
    (let d := pAcd 1 [] fun d => { d with acd := { d.acd with peer := some ⟨0, 0, 0, 0, 4⟩ } }
     d.mirrorValid = false ∧ d.acd.peer = some ⟨0, 0, 0, 0, 4⟩ ∧ (4 : Nat).testBit 2 = true) ∧
    (pAcd 3 [(Reg.ACD_STATUS_FENCE_OUT, 1)]).on Reg.ACD_STATUS_FENCE_OUT = true := by decide +kernel

theorem witness_FenceMovesOwnership :
    (let d := pAcd 2 [(Reg.ACD_STATUS_ROLE, 1)] fun d => { d with acd := { d.acd with holdoff := true } }
     d.role = 1 ∧ d.acd.holdoff = true ∧ d.acd.fenced = false ∧ d.acdState ≠ 0 ∧ d.acdState ≠ 4) ∧
    (pAcd 2 [] fun d => { d with acd := { d.acd with fenced := true } }).acd.fenced = true ∧
    (let d := pAcd 2 [] fun d => { d with rst := { d.rst with reach := 0 } }
     d.role = 0 ∧ d.g Reg.ACD_STATUS_FENCE_OUT = 0 ∧ d.acdState = 2 ∧ d.rst.reach = 0 ∧ d.rst.pendingCold = false ∧ d.rst.journalLive = false ∧
       d.reachOf 12 = 4) ∧
    (pAcd 4 [] fun d => { d with rst := { d.rst with fencedBit := true } }).rst.fencedBit = true ∧
    ((aDev []).rst.fencedBit = false ∧ 12 ∉ (aDev []).rst.active) ∧
    (let d := pAcd 3 [(Reg.ACD_STATUS_FENCE_OUT, 1)] fun d => { d with mbrs := [] }
     d.acdState = 3 ∧ d.on Reg.ACD_STATUS_FENCE_OUT = true ∧ d.acd.fenceInPlace = false ∧ d.acd.mirror = [] ∧ d.keys.slots = [] ∧
       d.jnl.groups = [] ∧ d.mbrs = []) ∧
    (let d := pAcd 3; d.on Reg.ACD_STATUS_ADOPTED = false ∧ d.acd.mute = false ∧ d.peerLive = true ∧ d.g Reg.ACD_STATUS_LINKS_UP ≠ 0) ∧
    (pAcd 3 [(Reg.ACD_STATUS_ADOPTED, 1)]).on Reg.ACD_STATUS_ADOPTED = true := by decide +kernel

/-- A JOIN of role 1 with the sample's sizes and identity. -/
def aJoin (role : Nat) : JoinMsg := ⟨role, 0, 4, 1, 9, crc32c [], crc32c [], 0⟩

theorem witness_AccordMessages_join :
    (let d := pAcd 1
     d.peerLive = true ∧ d.acd.txWait = [] ∧ d.ringSpace 16 = true ∧ d.acdState = 1 ∧ d.on Reg.ACD_STATUS_FENCE_OUT = false ∧
       d.joinError (aJoin 0) = some 1 ∧ d.joinError (aJoin 1) = none ∧ (aJoin 1).head ≤ d.head ∧ d.acd.joinSeen = false ∧ d.acd.mute = false ∧
       d.freeKeySlot = some 0 ∧ d.hasNs 2 = false ∧ d.keys.slots = []) ∧
    peerAllowed 4 false 0x100000000 64 = true ∧ peerAllowed 4 false 0 64 = false ∧ peerAllowed 4 true 0x20000 4 = false ∧
    (let d := pAcd 1 [] fun d => { d with acd := { d.acd with joinSeen := true } }
     d.acd.joinSeen = true ∧ d.acdState = 1 ∧ d.on Reg.ACD_STATUS_STEWARD = false) ∧
    (let d := pAcd 2 [] fun d => { d with keys := ⟨[aKey 0 .empty 1, aKey 1 .destroying 2], [], 3, [], []⟩ }
     (d.keys.slots.map (·.slot)).Nodup ∧ (aKey 0 .empty 1).st = .empty ∧ d.hasNs 1 = true ∧ (aKey 1 .destroying 2).erased = false) := by
  decide +kernel

theorem witness_AccordMessages_rest :
    ((pAcd 2).on Reg.ACD_STATUS_STEWARD = false ∧ 0 < (pAcd 2).mbrs.length) ∧
    (let d := pAcd 2 [(Reg.ACD_STATUS_STEWARD, 1)]; d.on Reg.ACD_STATUS_STEWARD = true ∧ (d.mbr 0).st.active = true ∧ d.mcmds = []) ∧
    (let d := pAcd 2 [] fun d => { d with acd := { d.acd with txWait := [⟨6, [1]⟩], txSlots := 5 } }
     d.acd.txWait = [⟨6, [1]⟩] ∧ d.acd.txSlots % 2 ^ 32 = 5 % 2 ^ 32) ∧
    (let d := pAcd 2 [] fun d => { d with acd := { d.acd with ackedIn := 7 } }
     d.acdState = 2 ∧ d.acd.ackedIn ≠ 0 ∧ 8 = d.acd.ackedIn + 1 ∧ d.acd.doorbells = [] ∧ d.on Reg.ACD_STATUS_FENCE_OUT = false ∧
       (∀ r ∈ d.acd.mirror ++ [aRec 8 .zero []], r.typ.isMeta = false ∧ 1 ≤ r.seq ∧ d.acd.mirrorTail ≤ r.seq)) ∧
    (let d := pAcd 2 [] fun d => { d with jnl := { d.jnl with recs := [aRec 8 .zero []] } }
     aRec 8 .zero [] ∈ d.jnl.recs ∧ (d.jnl.recs.map (·.seq)).Nodup) := by decide +kernel

theorem witness_AccordTransfersAndCommits_transfers :
    (let d := pAcd 2 [(Reg.ACD_OWN_POOLS, 1)]
     d.mirroring = true ∧ (1 : DWord).toNat &&& d.g Reg.ACD_OWN_POOLS = 1 ∧ d.arm.active.map (·.plinthPool) = some none ∧
       1 &&& d.acd.anaChange = 0 ∧ d.acd.transfers = [] ∧ d.poolSettled 1 = true ∧ d.acd.mirror = [] ∧ d.acd.adopted = []) ∧
    (pAcd 2 [(Reg.ACD_OWN_POOLS, 1)] fun d => { d with jnl := { d.jnl with recs := [aRec 8 .zero []] } }).poolSettled 1 = false ∧
    (pAcd 3).mirroring = false ∧
    (let d := pAcd 2 [] fun d => { d with acd := { d.acd with transfers := [⟨1, true, 2⟩] } }
     d.acd.transfers = [⟨1, true, 2⟩] ∧ d.poolWrites 1 = false ∧ d.nvm.erases = [] ∧ d.mgmt.waiting = [] ∧ d.jnl.lost = []) ∧
    (pAcd 2 [] fun d => { d with acd := { d.acd with transfers := [⟨1, true, 4⟩] } }).acd.transfers = [⟨1, true, 4⟩] := by decide +kernel

theorem witness_AccordTransfersAndCommits_commits :
    crc32c [] ≠ 1 ∧
    (let d := pDev [(Reg.ACD_STATUS_STATE, 2)]
     d.peerLive = true ∧ d.acd.txWait = [] ∧ d.ringSpace 16 = true ∧
       (match validateImage (d.valCtx (plinthImg 1).length) (plinthImg 1) with | .ok _ => true | .error _ => false) = true) ∧
    (let d := pAcd 2 [] fun d => { d with acd := { d.acd with joined := true } }; d.acd.joined = true ∧ d.maq ≠ 5) ∧
    (let d := pAcd 2 [(Reg.ARM_STATUS_MAQ_STATE, 5)] fun d => { d with arm := { d.arm with commitStage := 1, maquette := some aArm } }
     d.maq = 5 ∧ d.arm.commitStage = 1 ∧ d.arm.maquette = some aArm) ∧
    ((pAcd 2).acd.staged = none ∧ (pAcd 2).cwq.sqs = []) ∧
    (let d := pAcd 2 [] fun d => { d with acd := { d.acd with staged := some { aArm with epoch := 2 } } }
     d.acd.staged = some { aArm with epoch := 2 } ∧ d.epoch ≠ 2 ∧ d.disc = [] ∧ d.ops = [] ∧ d.cwq.sqs = [] ∧
       d.sameModes { aArm with epoch := 2 }) := by unfold Dev.sameModes; decide +kernel

/-- A Format NVM of this package whose own part is done. -/
def aFormat : Erase := ⟨false, [1], 0, ⟨1, 0, false⟩, 3, false, 9, 0, 0, false, false, false, false, false⟩

theorem witness_AccordTransfersAndCommits_pools :
    (pAcd 2 [(Reg.ARM_STATUS_DRAINING, 1)]).armBusy = true ∧
    (let d := pAcd 2 [] fun d => hostUp { d with nvm := { d.nvm with erases := [aFormat] }, acd := { d.acd with nsOps := [⟨false, 1, 1, .success⟩] } }
     d.nvm.erases = [aFormat] ∧ d.arm.zeroing = [] ∧ d.acd.nsOps.map (fun w => (w.sanitize, w.left)) = [(false, 1)] ∧ aFormat.cid < tunnelCid ∧
       d.canSend false 0 = true ∧ d.postStopped = false) := by decide +kernel

theorem witness_AccordLossAndLinks_more :
    (let d := fun (out : Nat) => pAcd 2 [(Reg.ACD_STATUS_ROLE, 0), (Reg.ACD_STATUS_FENCE_IN, 1), (Reg.ACD_STATUS_FENCE_OUT, out)]
     (d 0).role = 0 ∧ (d 0).g Reg.ACD_STATUS_FENCE_IN = 1 ∧ (d 0).g Reg.ACD_STATUS_FENCE_OUT = 0) ∧
    (let d := pAcd 2 [] fun d => { d with acd := { d.acd with peer := some ⟨7, 9, 0, 0, 0⟩ } }
     d.acd.peer = some ⟨7, 9, 0, 0, 0⟩ ∧ d.peerLive = true) ∧
    (pAcd 1 [(Reg.JNL_STATUS_STATE, 3)]).peerLive = false ∧ (pAcd 1 [(Reg.ACD_STATUS_LINKS_UP, 0)]).g Reg.ACD_STATUS_LINKS_UP = 0 ∧
    (let d := pAcd 2 [(Reg.ARM_STATUS_MAQ_STATE, 5)] fun d => { d with arm := { d.arm with commitStage := 1 } }
     d.maq = 5 ∧ d.arm.commitStage = 1 ∧ d.acdState = 2 ∧ d.acd.lossDeclared = false) ∧
    (let d := pAcd 1 [] fun d => { d with acd := { d.acd with mute := true } }
     ¬ (d.acdState ≠ 1 ∨ d.acd.fenced = true ∨ d.acd.mute = false ∨ d.peerLive = false ∨ d.g Reg.ACD_STATUS_LINKS_UP = 0)) := by decide +kernel

theorem witness_FenceMovesOwnership_more :
    (let d := fun (i : Nat) => pAcd 2 [(Reg.ACD_STATUS_ROLE, 1), (Reg.ACD_STATUS_FENCE_IN, i)] fun d => { d with acd := { d.acd with holdoff := true } }
     (d 0).g Reg.ACD_STATUS_FENCE_IN = 0 ∧ (d 0).g Reg.ACD_STATUS_FENCE_OUT = 0 ∧ (d 1).g Reg.ACD_STATUS_FENCE_IN = 1) ∧
    (let d := pAcd 3 [(Reg.ACD_STATUS_ROLE, 1), (Reg.ACD_STATUS_FENCE_OUT, 1)] fun d => { d with rst := { d.rst with reach := 0 } }
     d.role = 1 ∧ d.on Reg.ACD_STATUS_FENCE_OUT = true ∧ d.rst.reach = 0 ∧ d.rst.pendingCold = false) ∧
    (let d := pAcd 3 [(Reg.ACD_STATUS_FENCE_OUT, 1)] fun d =>
       { d with mbrs := [], acd := { d.acd with mirror := [aRec 8 .zero []], mirrorTail := 1 } }
     d.acd.mirror ≠ [] ∧ (∀ r ∈ d.acd.mirror, r.typ.isMeta = false) ∧ d.mirrorKeep.1 = [aRec 8 .zero []]) ∧
    (pAcd 3 [] fun d => { d with acd := { d.acd with fenceInPlace := true } }).acd.fenceInPlace = true ∧ (aDev []).acdState = 0 ∧
    (pAcd 3 [] fun d => { d with acd := { d.acd with mute := true } }).acd.mute = true ∧
    (pAcd 3 [(Reg.ACD_STATUS_FENCE_OUT, 1)]).role = 0 := by decide +kernel

theorem witness_AccordMessages_key :
    ∃ w key, unwrapKey (pAcd 2).acd.transport (leBytes 72 w) = some key := by
  have h : (wrapKey (pAcd 2).acd.transport 5).length = 72 := by decide +kernel
  exact ⟨leNat (wrapKey _ 5), 5, by rw [Laws.leBytes_leNat_of _ _ h]; exact Laws.unwrapKey_wrapKey _ _⟩

theorem witness_AccordMessages_badKey :
    (pAcd 2).freeKeySlot = some 0 ∧ ∃ w, unwrapKey (pAcd 2).acd.transport (leBytes 72 w) = none := by
  refine ⟨by decide +kernel, ?_⟩
  obtain ⟨b, n, h⟩ := Laws.exists_unwrapKey_none (pAcd 2).acd.transport
  exact ⟨leNat b, by rw [Laws.leBytes_leNat_of _ _ n]; exact h⟩

theorem witness_AccordMessages_more :
    (pAcd 4).peerLive = false ∧ peerOffset 0 = none ∧ peerOffset (peerBase + 0x100000000) = some 0x100000000 ∧ (pAcd 2).solo = false ∧
    (let d := pAcd 1 [] fun d => { d with acd := { d.acd with mute := true } }; d.acd.mute = true ∧ d.joinError (aJoin 1) = none) ∧
    (let d := pAcd 3; d.acdState = 3 ∧ d.on Reg.ACD_STATUS_FENCE_OUT = false ∧ (4 : Nat).testBit 2 = true) ∧
    (let d := pAcd 3 [] fun d => { d with acd := { d.acd with joinSeen := true } }; d.acd.joinSeen = true ∧ d.acdState = 3) ∧
    (let k := aKey 3 .active 1
     let d := pAcd 2 [] fun d => { d with keys := ⟨[k], [], 3, [], []⟩ }
     d.keys.slots.find? (·.copyOf 9 1) = some k ∧ k.st ≠ .destroying ∧ (∀ x ∈ d.keys.slots, x.copyOf 9 2 = false) ∧ (d.keys.slots.map (·.slot)).Nodup) ∧
    (let d := pAcd 2 [] fun d => { d with keys := ⟨[{ aKey 0 .destroying 2 with erased := true }], [], 3, [], []⟩ }
     ∀ k ∈ d.keys.slots, k.st = .destroying ∧ k.erased = true) ∧
    (let m : PeerMsg := ⟨6, [1, 2]⟩
     let d := fun (n : Nat) => pAcd 2 [] fun d => { d with acd := { d.acd with txWait := [m], txSlots := n } }
     ({ d 5 with acd := { (d 5).acd with rxAck := 5 } } : Dev).ringSpace m.slots = true ∧
       ({ d 300 with acd := { (d 300).acd with rxAck := 5 } } : Dev).ringSpace m.slots = false) := by decide +kernel

theorem witness_AccordMessages_doorbell :
    (let d := pAcd 1 [] fun d => { d with acd := { d.acd with ackedIn := 7, keyxDone := true } }
     d.acd.keyxDone = true ∧ d.acdState = 1 ∧ d.on Reg.ACD_STATUS_STEWARD = false ∧ d.jnl.groups = [] ∧ d.acd.ackedIn ≠ 0 ∧ d.acd.ackedIn + 1 < 9) ∧
    (pAcd 2 [(Reg.ACD_STATUS_FENCE_OUT, 1)]).on Reg.ACD_STATUS_FENCE_OUT = true ∧
    (pAcd 2).jnl.recs.find? (·.seq = 8) = none := by decide +kernel

theorem witness_AccordTransfersAndCommits_owner :
    (let d := pAcd 2 [] fun d => { d with acd := { d.acd with mirror := [aRec 8 .zero []] } }
     d.mirroring = true ∧ (∀ r ∈ d.acd.mirror, r.seq ≤ d.head) ∧ (d.acd.mirror.filter fun r => !r.retired && !r.typ.isMeta && (1 : Nat).testBit r.pool) ≠ [] ∧
       (d.acd.mirror.filter fun r => !r.retired && !r.typ.isMeta && (2 : Nat).testBit r.pool) = []) ∧
    (let d := pAcd 2 [] fun d =>
       { d with acd := { d.acd with transfers := [⟨1, true, 2⟩] }, mcmds := [aMcmd 3 .write .none 0] }
     d.poolWrites 1 = true ∧ d.acd.transfers = [⟨1, true, 2⟩]) ∧
    ¬ ((1 : DWord).toNat &&& (pAcd 2 [(Reg.ACD_OWN_POOLS, 0)]).g Reg.ACD_OWN_POOLS = 1) := by decide +kernel

theorem witness_AccordTransfersAndCommits_stage :
    (let d := pDev [(Reg.ACD_STATUS_STATE, 2)]
     (match validateImage (d.valCtx badImg.length) badImg with | .ok _ => false | .error _ => true) = true ∧ crc32c badImg = crc32c badImg) ∧
    (let d := pAcd 2 [] fun d => { d with acd := { d.acd with staged := some { aArm with epoch := 3 } } }
     d.acd.staged = some { aArm with epoch := 3 } ∧ d.fab.rowWrites = [] ∧ d.arm.commitStage ≠ 4 ∧ (3 : Nat) ≠ 2) ∧
    (pAcd 2).jnl.lost = [] ∧ (pAcd 2 [(Reg.ARM_STATUS_DRAINING, 1)]).nvm.erases = [] ∧ (pAcd 4).peerLive = false := by decide +kernel

theorem witness_AccordTransfersAndCommits_calm : (pAcd 2).calm ∧ (pAcd 2).commands .mgmt := by
  unfold Dev.calm Dev.commands; decide +kernel

/-! ### Hypotheses of the statements: power loss and the vault -/

/-- A notice of power loss. -/
def aLog : LogRec := ⟨1, 0, 1, 0x1303, 2, []⟩

/-- The sample device out of reset, with a live journal. -/
def vDev (xs : List (Fld × Nat)) (f : Dev → Dev := id) : Dev :=
  aDev xs fun d => f { d with rst := { d.rst with reach := 0, stretch := false, pinLow := false, journalLive := true } }

theorem witness_VaultKeepsTheJournal_seal :
    (let d := vDev [] hostUp
     d.on Reg.VLT_STATUS_RESTORED = false ∧ d.rst.journalLive = true ∧ d.g Reg.JNL_STATUS_STATE ≠ 3 ∧ d.rst.reach ≠ 5 ∧ d.ctlA.en = true ∧
       d.ctlA.shutdown = false ∧ d.ctlB.en = false) ∧
    (vDev [(Reg.VLT_STATUS_RESTORED, 1)]).on Reg.VLT_STATUS_RESTORED = true ∧ (aDev []).rst.journalLive = false ∧ (aDev []).ctlA.en = false := by
  decide +kernel

theorem witness_VaultKeepsTheJournal_dump :
    (let d := vDev [(Reg.VLT_STATUS_DUMPING, 1)]
     d.on Reg.VLT_STATUS_DUMPING = true ∧ d.rst.pendingCold = false ∧ d.cwq = Cwq.blank) ∧
    (vDev []).on Reg.VLT_STATUS_DUMPING = false ∧
    (let d := vDev [(Reg.JNL_STATUS_STATE, 3), (Reg.FAB_WATCH_MASK, 0)] fun d => { d with vlt := { d.vlt with dumpDone := true, pwrLow := false } }
     d.nvm.erases = [] ∧ d.acd.transfers = [] ∧ d.mgmt.waiting = [] ∧ d.vlt.dumpDone = true ∧ d.vlt.pwrLow = false ∧ d.rst.reach = 0 ∧
       d.g Reg.JNL_STATUS_STATE = 3 ∧ d.cwq = Cwq.blank ∧ ∀ r < 8, d.watched r = false) ∧
    (vDev []).vlt.dumpDone = false := by decide +kernel

theorem witness_VaultKeepsTheJournal_commands :
    (let d := vDev [(Reg.VLT_STATUS_P_MISMATCH, 1), (Reg.JNL_STATUS_STATE, 0)]
     d.reaches .mgmt = true ∧ d.writesGlobal .mgmt = true ∧ d.on Reg.VLT_STATUS_P_MISMATCH = true ∧ d.rst.reach = 0 ∧
       d.on Reg.RST_STATUS_OPTIONS_DEFAULTED = false ∧ d.on Reg.MBX_STATUS_RECOVERY = false ∧ d.g Reg.JNL_STATUS_STATE = 0) ∧
    (vDev []).on Reg.VLT_STATUS_P_MISMATCH = false ∧ (vDev []).log.tail = [] ∧
    (vDev [] fun d => { d with log := { d.log with tail := [aLog] } }).log.tail ≠ [] := by decide +kernel

theorem witness_VaultKeepsTheJournal_cold :
    let d := vDev [(Reg.VLT_STATUS_DUMPING, 1)] fun d => { d with rst := { d.rst with pendingCold := true } }
    d.on Reg.VLT_STATUS_DUMPING = true ∧ d.rst.pendingCold = true ∧ (vDev [(Reg.VLT_STATUS_DUMPING, 1)]).rst.pendingCold = false := by decide +kernel

/-- A dump's trailer names the chunk table's CRC, its length and its milliseconds; the new generation is the other one. -/
theorem test_dump_generation :
    let t := after (.dump 5 2) ⟨[], [], vDev [(Reg.VLT_STATUS_DUMPING, 1)]⟩
    (t.dev.gen (1 - (vDev []).newestGen)).num = 1 ∧ t.dev.vlt.retired = 2 ∧ t.dev.vlt.dumpDone = true := by decide +kernel

/-! ### Hypotheses of the statements: resets -/

/-- The sample device out of reset, its journal not live. -/
def oDev (xs : List (Fld × Nat)) (f : Dev → Dev := id) : Dev := vDev xs fun d => f { d with rst := { d.rst with journalLive := false } }

/-- The reach fuses with WARM for PB_PERST_N and the watchdog, and block levels widened to COLD for source 13. -/
def reachFuse (s c : Nat) (d : Dev) : Dev :=
  let tab := (List.range 25).map fun i => if i = s then c else defaultReach.getD i 0
  { d with regs := AMap.put (AMap.put (AMap.put d.regs 0x24001C (BitVec.ofNat 64 (reachBits tab % 2 ^ 32))) 0x240020
      (BitVec.ofNat 64 (reachBits tab / 2 ^ 32 % 2 ^ 32))) 0x240024 (BitVec.ofNat 64 (reachBits tab / 2 ^ 64)) }

theorem witness_ResetSourcesBeginTheirReset_fuses :
    (∀ s ∈ [1, 4, 8, 9, 10, 11, 13, 14, 15, 16, 17], (oDev [] (reachFuse s 4)).reachOf s = 4 ∧ (oDev [] (reachFuse s 5)).reachOf s = 5) ∧
    (∀ s ∈ [4, 9], (oDev [] (reachFuse s 6)).reachOf s = 6) ∧ (∀ s ∈ [21, 23, 24], (oDev []).reachOf s < 4) := by decide +kernel

theorem witness_ResetSourcesBeginTheirReset_begins :
    (let d := oDev []; d.rst.reach = 0 ∧ d.rst.pendingCold = false ∧ d.rst.pinLow = false ∧ d.rst.journalLive = false ∧ d.rst.blocks = []) ∧
    (let d := vDev [(Reg.ACD_STATUS_STATE, 2)] fun d => { d with opt := { d.opt with flags := 4 } }
     d.opt.flags.testBit 2 = true ∧ d.solo = false ∧ d.rst.journalLive = true ∧ d.reaches .mgmt = true ∧ d.writesGlobal .mgmt = true) ∧
    (oDev [(Reg.MBX_STATUS_BUSY, 1)]).on Reg.MBX_STATUS_BUSY = true ∧ (aDev []).rst.pinLow = true ∧ (aDev []).opt.flags.testBit 2 = false ∧
    ¬ (13 ≤ 21 ∧ 21 ≤ 17) ∧ (0 : Nat) ≠ 0x5EA1 := by decide +kernel

/-- A package reset of a reach, held or its exit at a step. -/
def hDev (reach step : Nat) (f : Dev → Dev := id) : Dev :=
  oDev [] fun d => f { d with rst := { d.rst with reach := reach, step := step, active := [10], seen := [10], pinLow := true } }

theorem witness_ExitOptionsAndBlockResets_exit :
    (let d := hDev 4 0 fun d => { d with rst := { d.rst with stretch := true } }
     d.rst.reach ≠ 0 ∧ d.rst.step = 0 ∧ d.rst.stretch = true) ∧
    (∀ x ∈ [(4, 0), (5, 0), (5, 3)], let d := hDev x.1 x.2
      d.rst.pendingCold = false ∧ d.on Reg.VLT_STATUS_DUMPING = false ∧ d.rst.stretch = false ∧ d.holding = false ∧ d.ops = [] ∧
        d.rst.reach = x.1 ∧ d.rst.step = x.2) ∧
    (hDev 4 0 fun d => { d with rst := { d.rst with active := [1] } }).holding = true ∧ (oDev []).rst.reach = 0 ∧
    (hDev 5 0 fun d => { d with rst := { d.rst with pendingCold := true } }).rst.pendingCold = true := by decide +kernel

/-- An option block with a sequence number and flags, its SN blank and its SUBNQN the letter a. -/
def optBlock (seq flags : Nat) : List Byte :=
  let o : Opts := ⟨[], seq, 0x1D7A, 0x2048, flags, 0, 4, 8, 0, 0x00FFFFFF, 0, 0, 0, List.replicate 20 0x20, 0x61 :: List.replicate 255 0⟩
  o.bytes ++ leBytes 4 (crc32c o.bytes)

theorem test_option_block_good : goodCopy (optBlock 3 0) = true ∧ optCheck (optBlock 3 0) = none ∧ (optBlock 3 0).length = 4096 := by decide +kernel

theorem witness_ExitOptionsAndBlockResets_options :
    let d := hDev 5 2 fun d => { d with rst := { d.rst with loading := true }, vlt := { d.vlt with optA := optBlock 3 0 } }
    d.rst.loading = true ∧ (false && goodCopy d.vlt.optA) = false ∧ goodCopy d.vlt.optA = true ∧ goodCopy d.vlt.optB = false ∧
      (optsOf d.vlt.optA (d.g Reg.GCS_SERIAL_SERIAL)).flags.testBit 2 = false ∧ (oDev []).rst.loading = false := by decide +kernel

/-- The sample device with one block reset. -/
def bDev (b : BlockReset) (f : Dev → Dev := id) : Dev := fDev fun d =>
  f { d with rst := { d.rst with reach := 0, blocks := [b] }, fab := { d.fab with pll := [true, true], trainFails := [0, 0] } }

theorem witness_ExitOptionsAndBlockResets_commands :
    (let d := oDev []
     d.reaches .mgmt = true ∧ d.writesGlobal .mgmt = true ∧ d.blockRefused 0 256 = true ∧ d.blockRefused 0 255 = false ∧ d.rst.reach = 0 ∧
       d.rst.blocks = [] ∧ d.blockAt 1 2 = none ∧ d.reachOf 19 = 3 ∧ d.reachOf 20 = 3) ∧
    (∀ x ∈ [(0, 255, 256), (1, 31, 32), (2, 7, 8), (3, 1, 2)], (oDev []).blockRefused x.1 x.2.1 = false ∧ (oDev []).blockRefused x.1 x.2.2 = true) := by
  decide +kernel

theorem witness_ExitOptionsAndBlockResets_blocks :
    (let d := bDev ⟨18, 1, 0, false, false, []⟩
     d.rst.blocks = [⟨18, 1, 0, false, false, []⟩] ∧ d.ops = [] ∧ d.cwq = Cwq.blank ∧ d.blockIdle ⟨18, 1, 0, false, false, []⟩ = true) ∧
    (let d := bDev ⟨18, 1, 0, false, false, []⟩ fun d =>
       { d with ops := [{ anOp 7 .destage .reading with cluster := 0, channel := 3 }], mcmds := [aMcmd 1 .read .op 7] }
     d.blockIdle ⟨18, 1, 0, false, false, []⟩ = false) ∧
    (⟨20, 3, 1, false, true, []⟩ : BlockReset).held = true ∧ (⟨18, 1, 0, false, false, []⟩ : BlockReset).held = false ∧
    (let d := bDev ⟨20, 3, 1, false, true, []⟩
     d.rst.blocks = [⟨20, 3, 1, false, true, []⟩] ∧ d.fab.pll.getD 1 false = true ∧ 1 < d.fab.trainFails.length ∧ ¬ 3 ≤ d.fab.trainFails.getD 1 0 + 1 ∧
       d.rst.reach = 0 ∧ d.reachOf 20 = 3 ∧ d.ops = []) ∧
    (bDev ⟨20, 3, 1, false, true, []⟩ fun d => { d with fab := { d.fab with trainFails := [0, 2], pll := [true, true] } }).fab.trainFails.getD 1 0 + 1 = 3 ∧
    (bDev ⟨20, 3, 1, false, true, []⟩ fun d => { d with fab := { d.fab with pll := [true, false] } }).fab.pll.getD 1 false = false := by decide +kernel

theorem witness_ResetSourcesBeginTheirReset_recorded :
    (let b : BlockReset := ⟨20, 3, 0, false, false, []⟩
     let d := oDev [] fun d => { d with rst := { d.rst with blocks := [b] } }
     d.rst.blocks = [b] ∧ d.reachOf 24 ≤ b.level ∧ b.level ≤ 3 ∧ b.target = widerTarget (homeLevel 24) 31 b.level - 1 ∧
       b.target = widerTarget (homeLevel 24) 15 b.level) ∧
    (hDev 4 0).rst.reach ≠ 0 ∧ (oDev [] fun d => { d with rst := { d.rst with pinFreeUs := 10 } }).now < 10 ∧
    (let d := vDev [] (reachFuse 11 5); d.reachOf 11 = 5 ∧ d.rst.journalLive = true ∧ d.rst.pinFreeUs ≤ d.now) := by decide +kernel

/-- Nothing waits on what a block's exit could let go on. -/
theorem witness_ExitOptionsAndBlockResets_quiet :
    (oDev []).calm ∧ (oDev []).fab.rowWrites = [] ∧ (oDev []).arm.commitStage ≠ 4 ∧ (oDev []).cwq.sqs = [] ∧ (oDev []).blockAt 1 2 = none := by
  unfold Dev.calm; decide +kernel

/-! ### Hypotheses of the statements: sensors and power -/

theorem witness_SensorsThrottleAndVoltage_rounds :
    (∀ v ∈ List.replicate 21 (400 : Int), v < 920) ∧ (∀ v ∈ List.replicate 21 (400 : Int), v ≤ 800) ∧ ¬ (∀ v ∈ [(919 : Int)], v ≤ 800) ∧
    ¬ (∀ v ∈ [(920 : Int)], v < 920) ∧
    (let d := oDev []; d.rst.reach = 0 ∧ d.rst.pendingCold = false ∧ 6 ∉ d.rst.active ∧ d.rst.journalLive = false ∧ d.g Reg.CPM_STATUS_LEVEL = 0) ∧
    (oDev [] (reachFuse 6 4)).reachOf 6 = 4 ∧ (oDev [(Reg.CPM_STATUS_LEVEL, 1)]).g Reg.CPM_STATUS_LEVEL ≠ 0 ∧
    (∀ v ∈ [1800], (oDev []).railRange 8 = (174600, 185400) ∧ 174600 ≤ v * 100) ∧ 1745 * 100 < ((oDev []).railRange 8).1 ∧
    ((oDev []).g Reg.SNS_RALARM_ALARM).testBit 12 = false ∧ ((oDev [(Reg.SNS_RALARM_ALARM, 4096)]).g Reg.SNS_RALARM_ALARM).testBit 12 = true ∧
    (oDev []).log.droppedSince = 0 ∧ (oDev []).log.tail.length < 4096 := by decide +kernel

theorem witness_SensorsThrottleAndVoltage_over :
    (let d := vDev [] (reachFuse 6 5)
     d.reachOf 6 = 5 ∧ d.rst.journalLive = true ∧ d.rst.reach = 0 ∧ d.rst.pendingCold = false ∧ 6 ∉ d.rst.active) ∧
    6 ∈ (oDev [] fun d => { d with rst := { d.rst with active := [6] } }).rst.active ∧
    (oDev []).log.tail.length < 4095 ∧ (oDev []).mgmt.vcdOld = none ∧
    (∃ x ∈ (oDev [] fun d => d.updRegion 0 fun x => { x with power := .up }).fab.regions, x.power ≠ .off) := by decide +kernel

theorem witness_SensorsThrottleAndVoltage_cap :
    (let cap := 1000 * (oDev [(Reg.CPM_PCAP_WATTS, 100)]).gClamp Reg.CPM_PCAP_WATTS 30 142
     cap < 100001 ∧ cap ≠ 142000 ∧ 95000 * 100 ≤ cap * 95 ∧ cap * 95 < 95001 * 100 ∧ 95001 ≤ cap) ∧
    (oDev []).mgmt.lowRuns < 9 ∧ (oDev [] fun d => { d with mgmt := { d.mgmt with lowRuns := 9 } }).mgmt.lowRuns = 9 ∧
    (oDev []).mgmt.avsStop = false ∧ (oDev [] fun d => { d with mgmt := { d.mgmt with avsStop := true } }).mgmt.avsStop = true ∧
    (oDev []).reaches .mgmt = true ∧ (oDev []).writesGlobal .mgmt = true := by decide +kernel

theorem witness_SensorsThrottleAndVoltage_need :
    (let d := oDev [(Reg.CPM_VCD_MV, 801)]; d.vcdNeed < d.g Reg.CPM_VCD_MV) ∧ (let d := oDev [(Reg.CPM_VCD_MV, 720)]; d.g Reg.CPM_VCD_MV ≤ d.vcdNeed) := by
  have h1 : (oDev [(Reg.CPM_VCD_MV, 801)]).g Reg.CPM_VCD_MV = 801 := by decide +kernel
  have h2 : (oDev [(Reg.CPM_VCD_MV, 720)]).g Reg.CPM_VCD_MV = 720 := by decide +kernel
  refine ⟨?_, ?_⟩
  · show Dev.vcdNeed _ < _
    rw [h1]; unfold Dev.vcdNeed; dsimp only; omega
  · show _ ≤ Dev.vcdNeed _
    rw [h2]; unfold Dev.vcdNeed; dsimp only; omega

/-! ### Hypotheses of the statements: the management core -/

/-- The mailbox runs a command with an argument and a length. -/
def xDev (op arg len : Nat) (f : Dev → Dev := id) : Dev :=
  oDev [(Reg.MBX_STATUS_BUSY, 1), (Reg.MBX_CMD_OPCODE, op), (Reg.MBX_ARG_VALUE, arg), (Reg.MBX_CMD_LEN, len), (Reg.MBX_STATUS_CORE_UP, 1)] f

theorem witness_MailboxCommandsEnd :
    (∀ op < 6, (xDev op 0 0).on Reg.MBX_STATUS_BUSY = true ∧ (xDev op 0 0).g Reg.MBX_CMD_OPCODE = op) ∧ (oDev []).on Reg.MBX_STATUS_BUSY = false ∧
    (∀ n ∈ [0, 1, 2, 3], (xDev 2 n 0).g Reg.MBX_ARG_VALUE = n) ∧ (xDev 2 0 0).vlt.optA.length ≤ 4096 ∧ (xDev 3 0 4095).g Reg.MBX_CMD_LEN ≠ 4096 ∧
    (let d := xDev 3 0 4096; d.g Reg.MBX_CMD_LEN = 4096 ∧ optCheck (d.mbxIn 4096) = some 0) ∧
    (xDev 5 1 0 fun d => { d with mgmt := { d.mgmt with act := some ⟨1, none⟩ } }).mgmt.act ≠ none ∧
    (let d := xDev 5 3 0 fun d => { d with mgmt := { d.mgmt with pldm := some ⟨3, [], 4096⟩ } }
     d.mgmt.act = none ∧ d.mgmt.pldm = some ⟨3, [], 4096⟩ ∧ d.g Reg.MBX_ARG_VALUE = 3) ∧
    (let d := xDev 5 1 0; d.mgmt.pldm = none ∧ d.g Reg.MBX_ARG_VALUE = 1) ∧ (xDev 5 4 0).g Reg.MBX_ARG_VALUE = 4 ∧ (aDev []).rst.reach = 5 ∧
    (oDev []).rst.reach ≠ 5 := by decide +kernel

theorem witness_MailboxCommandsEnd_options :
    let d := (List.range 17 ++ [64]).foldl (fun (d : Dev) i => d.pi Reg.MBX_BUF_DATA i (leAt (optBlock 3 0) (4 * i) 4)) (xDev 3 0 4096)
    d.g Reg.MBX_CMD_LEN = 4096 ∧ d.on Reg.MBX_STATUS_BUSY = true ∧ d.g Reg.MBX_CMD_OPCODE = 3 ∧ optCheck (d.mbxIn 4096) = none := by decide +kernel

/-- The sample device with its core up and an update of a slot. -/
def uDev (rom : Bool) (data : List Byte) (size : Nat) (slot : FwSlot) : Dev :=
  oDev [(Reg.MBX_STATUS_CORE_UP, if rom then 0 else 1), (Reg.MBX_STATUS_RECOVERY, if rom then 1 else 0)] fun d =>
    { d with mgmt := { d.mgmt with pldm := some ⟨2, data, size⟩, slots := [⟨0, [], 0⟩, slot, ⟨0, [], 0⟩], config := [(1, 2), (2, 5), (3, 64)] } }

theorem witness_ManagementBusAnswers_pldm :
    (oDev []).mgmtUp = false ∧ (oDev []).on Reg.MBX_STATUS_CORE_UP = false ∧ (oDev []).mgmt.pldm = none ∧
    (let d := xDev 0 0 0; d.mgmtUp = true ∧ d.mgmt.act = none ∧ d.mgmt.waiting = [] ∧ d.mgmt.pldm = none) ∧
    (∀ rom, let d := uDev rom [1] 3 ⟨2, [], 1⟩
      d.mgmtUp = true ∧ d.mgmt.pldm = some ⟨2, [1], 3⟩ ∧ ([1] : List Byte).length < 3 ∧ 2 ≤ d.mgmt.slots.length ∧
        (([1] : List Byte) ++ (([2] : List Byte).take 4096).take (3 - 1)).length < 3 ∧ (([1] : List Byte) ++ (([2, 3] : List Byte).take 4096).take (3 - 1)).length = 3 ∧
        d.on Reg.MBX_STATUS_RECOVERY = rom ∧ (d.fw 2).st ≠ 1) ∧
    (let d := uDev false [1] 1 ⟨1, [1], 1⟩; d.mgmt.pldm = some ⟨2, [1], 1⟩ ∧ (d.fw 2).st = 1) ∧
    (xDev 0 0 0 fun d => { d with mgmt := { d.mgmt with act := some ⟨1, none⟩ } }).mgmt.act ≠ none := by decide +kernel

theorem witness_ManagementBusAnswers_mi :
    (let d := uDev false [] 1 ⟨1, [1], 1⟩
     d.on Reg.MBX_STATUS_CORE_UP = true ∧ 1 ∈ d.cntlids ∧ 9 ∉ d.cntlids ∧ 4 ∈ d.msgTypes ∧ 7 ∉ d.msgTypes ∧
       (∀ i ∈ [1, 2, 3], ∃ v ∈ [2, 5, 64], AMap.get d.mgmt.config i = some v)) ∧
    (∀ x ∈ [(1, 1), (1, 3), (2, 9), (3, 64)], miConfigOk x.1 x.2 = true) ∧ (∀ x ∈ [(0, 0), (1, 0), (1, 4), (3, 63), (4, 1)], miConfigOk x.1 x.2 = false) ∧
    (let d := xDev 0 0 0 fun d => { d with mgmt := { d.mgmt with slots := [⟨1, [1], 1⟩] } }
     d.nvm.erases = [] ∧ d.mgmt.pldm = none ∧ (d.fw 1).st = 1) := by decide +kernel

theorem witness_MailboxCommandsEnd_select :
    (∀ n ∈ [0, 4, 5], n = 0 ∨ 3 < n) ∧ (∀ n ∈ [1, 3], (xDev 5 n 0).g Reg.MBX_ARG_VALUE = n) ∧
    (let d := xDev 5 2 0 fun d => { d with mgmt := { d.mgmt with pldm := some ⟨1, [], 4096⟩ } }
     d.mgmt.act = none ∧ d.g Reg.MBX_ARG_VALUE = 2 ∧ d.mgmt.pldm = some ⟨1, [], 4096⟩ ∧ 1 ≠ d.g Reg.MBX_ARG_VALUE) ∧
    (xDev 2 1 0).vlt.optA.length ≤ 4096 ∧ (xDev 2 2 0).vlt.optB.length ≤ 4096 := by decide +kernel

theorem witness_ManagementBusAnswers_sizes :
    (let d := xDev 0 0 0; d.mgmtUp = true ∧ d.mgmt.act = none ∧ d.mgmt.waiting = [] ∧ d.mgmt.pldm = none) ∧
    (∀ size ∈ [0, 4095, 0x10000001], size < 4096 ∨ 0x10000000 < size) ∧ (∀ size ∈ [4096, 0x10000000], 4096 ≤ size ∧ size ≤ 0x10000000) ∧
    (xDev 0 0 0 fun d => { d with mgmt := { d.mgmt with waiting := [(false, 0, 0, 1)] } }).mgmt.waiting ≠ [] ∧
    (let d := xDev 0 0 0
     ∀ i ∈ [1, 2, 3], AMap.get d.mgmt.config i = none) ∧
    (∀ arg ∈ [1, 254], 1 ≤ arg ∧ arg < 255) ∧ (∀ eid ∈ [0, 255], eid = 0 ∨ 255 ≤ eid) := by decide +kernel

end Sys2Proof.Tests
end

section
/-!
PROOFS. Writes of registers (chapters 0 and 19): how a word written reaches the fields of a register, what a register access does on its way
to the device, and the statements on register writes.
-/
namespace Sys2Proof

/-! ### The fields of a register -/

/-- Two fields that share no bit. -/
abbrev FieldDesc.apart (f g : FieldDesc) : Prop := f.hi < g.lo ∨ g.hi < f.lo

/-- Every field has its bits in order and within 64, and no two fields share a bit. -/
abbrev RegDesc.fieldsOk (r : RegDesc) : Prop := (∀ f ∈ r.fields, f.lo ≤ f.hi ∧ f.hi < 64) ∧ r.fields.Pairwise FieldDesc.apart

theorem regTable_fieldsOk : ∀ r ∈ regTable, r.fieldsOk := by decide +kernel

/-- A register's value after one of its fields took, or refused, its part of the word written. -/
def FieldDesc.writeIn (enabled may clearing : Bool) (old w v : Nat) (f : FieldDesc) : Nat :=
  if may && f.takes enabled then setBits v f.hi f.lo (f.next clearing (bitsOf old f.hi f.lo) (bitsOf w f.hi f.lo)) else v

theorem RegDesc.written_eq_foldl (r : RegDesc) (enabled may clearing : Bool) (old w : Nat) :
    r.written enabled may clearing old w = r.fields.foldl (FieldDesc.writeIn enabled may clearing old w) old := rfl

section
variable (enabled may clearing : Bool) (old w : Nat)

/-- Writing a field leaves every bit outside it. -/
theorem FieldDesc.testBit_writeIn (f : FieldDesc) (v i : Nat) (hf : f.lo ≤ f.hi) (hi : i < f.lo ∨ f.hi < i) :
    (f.writeIn enabled may clearing old w v).testBit i = v.testBit i := by
  have hout : ¬(f.lo ≤ i ∧ i ≤ f.hi) := by omega
  unfold FieldDesc.writeIn
  split
  · rw [setBits_testBit _ _ _ _ _ hf, if_neg hout]
  · rfl

/-- Writing a field gives that field what its type says, where it takes the write. -/
theorem FieldDesc.bitsOf_writeIn (f : FieldDesc) (v : Nat) (hf : f.lo ≤ f.hi) :
    bitsOf (f.writeIn enabled may clearing old w v) f.hi f.lo =
      if may && f.takes enabled then f.next clearing (bitsOf old f.hi f.lo) (bitsOf w f.hi f.lo) % 2 ^ (f.hi + 1 - f.lo)
      else bitsOf v f.hi f.lo := by
  unfold FieldDesc.writeIn
  split
  · exact bitsOf_setBits_same _ _ _ _ hf
  · rfl

/-- Writing a field leaves the fields that share no bit with it. -/
theorem FieldDesc.bitsOf_writeIn_apart (f g : FieldDesc) (v : Nat) (hf : f.lo ≤ f.hi) (hfg : f.apart g) :
    bitsOf (f.writeIn enabled may clearing old w v) g.hi g.lo = bitsOf v g.hi g.lo := by
  unfold FieldDesc.writeIn
  split
  · exact bitsOf_setBits_disjoint _ _ _ _ _ _ hf hfg.symm
  · rfl

/-- Writing fields one after the other leaves every bit that none of them holds. -/
theorem FieldDesc.testBit_foldl_writeIn (fs : List FieldDesc) (v i : Nat) (hf : ∀ f ∈ fs, f.lo ≤ f.hi)
    (hi : ∀ f ∈ fs, i < f.lo ∨ f.hi < i) :
    (fs.foldl (FieldDesc.writeIn enabled may clearing old w) v).testBit i = v.testBit i := by
  induction fs generalizing v with
  | nil => rfl
  | cons f fs ih =>
    rw [List.forall_mem_cons] at hf hi
    rw [List.foldl_cons, ih _ hf.2 hi.2, FieldDesc.testBit_writeIn _ _ _ _ _ _ _ _ hf.1 hi.1]

/-- Writing fields one after the other leaves a field that shares no bit with any of them. -/
theorem FieldDesc.bitsOf_foldl_writeIn_apart (fs : List FieldDesc) (g : FieldDesc) (v : Nat) (hf : ∀ f ∈ fs, f.lo ≤ f.hi)
    (hg : ∀ f ∈ fs, g.apart f) :
    bitsOf (fs.foldl (FieldDesc.writeIn enabled may clearing old w) v) g.hi g.lo = bitsOf v g.hi g.lo := by
  induction fs generalizing v with
  | nil => rfl
  | cons f fs ih =>
    rw [List.forall_mem_cons] at hf hg
    rw [List.foldl_cons, ih _ hf.2 hg.2, FieldDesc.bitsOf_writeIn_apart _ _ _ _ _ _ _ _ hf.1 hg.1.symm]

/-- Among fields that share no bit, each ends with what its own write gives. -/
theorem FieldDesc.bitsOf_foldl_writeIn (fs : List FieldDesc) (f : FieldDesc) (v : Nat) (hf : ∀ f ∈ fs, f.lo ≤ f.hi)
    (hp : fs.Pairwise FieldDesc.apart) (hmem : f ∈ fs) :
    bitsOf (fs.foldl (FieldDesc.writeIn enabled may clearing old w) v) f.hi f.lo =
      if may && f.takes enabled then f.next clearing (bitsOf old f.hi f.lo) (bitsOf w f.hi f.lo) % 2 ^ (f.hi + 1 - f.lo)
      else bitsOf v f.hi f.lo := by
  induction fs generalizing v with
  | nil => exact absurd hmem (List.not_mem_nil)
  | cons g fs ih =>
    rw [List.forall_mem_cons] at hf
    rw [List.pairwise_cons] at hp
    rw [List.foldl_cons]
    rcases List.mem_cons.mp hmem with rfl | hrest
    · rw [FieldDesc.bitsOf_foldl_writeIn_apart _ _ _ _ _ _ _ _ hf.2 hp.1, FieldDesc.bitsOf_writeIn _ _ _ _ _ _ _ hf.1]
    · rw [ih _ hf.2 hp.2 hrest, FieldDesc.bitsOf_writeIn_apart _ _ _ _ _ _ _ _ hf.1 (hp.1 f hrest)]

/-- A field of a written register holds what its type gives, or its old value where it refuses the write (R18). -/
theorem RegDesc.bitsOf_written (r : RegDesc) (f : FieldDesc) (hr : r.fieldsOk) (hf : f ∈ r.fields) :
    bitsOf (r.written enabled may clearing old w) f.hi f.lo =
      if may && f.takes enabled then f.next clearing (bitsOf old f.hi f.lo) (bitsOf w f.hi f.lo) % 2 ^ (f.hi + 1 - f.lo)
      else bitsOf old f.hi f.lo := by
  rw [RegDesc.written_eq_foldl]
  exact FieldDesc.bitsOf_foldl_writeIn _ _ _ _ _ _ _ _ (fun g hg => (hr.1 g hg).1) hr.2 hf

/-- A bit of a written register that no field holds stays (R18). -/
theorem RegDesc.testBit_written_outside (r : RegDesc) (i : Nat) (hr : r.fieldsOk) (hi : ∀ f ∈ r.fields, i < f.lo ∨ f.hi < i) :
    (r.written enabled may clearing old w).testBit i = old.testBit i := by
  rw [RegDesc.written_eq_foldl]
  exact FieldDesc.testBit_foldl_writeIn _ _ _ _ _ _ _ _ (fun g hg => (hr.1 g hg).1) hi

end

/-- Cutting a bit range to its own width changes nothing. -/
theorem bitsOf_mod_width (v hi lo : Nat) : bitsOf v hi lo % 2 ^ (hi + 1 - lo) = bitsOf v hi lo := Nat.mod_mod _ _

/-! ### The register of an address -/

/-- What is found is a register of the table, at an address of its stride. -/
theorem findReg_mem (a inst : Nat) (r : RegDesc) (rs : List RegDesc) (h : findReg a rs = some (r, inst)) :
    r ∈ rs ∧ ∃ i, inst = r.base + i * r.stride := by
  induction rs with
  | nil => cases h
  | cons x rs ih =>
    have inTail (h : findReg a rs = some (r, inst)) : r ∈ x :: rs ∧ ∃ i, inst = r.base + i * r.stride :=
      (ih h).imp_left (List.mem_cons_of_mem x)
    dsimp only [findReg] at h
    generalize (if x.stride = 0 then 0 else (a - x.base) / x.stride) = i at h
    split at h
    · split at h
      · simp only [Option.some.injEq, Prod.mk.injEq] at h
        obtain ⟨rfl, rfl⟩ := h
        exact ⟨List.mem_cons_self, _, rfl⟩
      · exact inTail h
    · exact inTail h

/-- No 32-bit register of the table stands at the address of GCS_LAST_IGNORED. -/
theorem regTable_clear_of_lastIgnored :
    ∀ r ∈ regTable, r.width = 64 ∨ 0x10010 < r.base ∨ (r.stride = 0 ∧ r.base ≠ 0x10010) := by decide +kernel

/-- The doorbells are 32-bit registers. -/
theorem regTable_doorbells_narrow : ∀ r ∈ regTable, r.width = 64 → r.base < 0x100000 ∨ 0x101400 ≤ r.base := by decide +kernel

namespace Machine

/-- The register that an access reaches is one of the table, at a place of its stride or at port B's copy of that. -/
theorem regRef_mem (req : Requester) (off : Nat) (r : RegRef) (h : regRef req off = some r) :
    r.desc ∈ regTable ∧ (∃ i, r.inst = r.desc.base + i * r.desc.stride) ∧ (r.home = r.inst ∨ r.home = r.inst + portBOffset) := by
  unfold regRef at h
  dsimp only at h
  split at h
  · cases h
  · rename_i x inst hfind
    obtain ⟨hmem, hinst⟩ := findReg_mem _ _ _ _ hfind
    split at h
    · cases h
    · cases h
      refine ⟨hmem, hinst, ?_⟩
      dsimp only
      split
      · exact .inr rfl
      · exact .inl rfl

/-- A place in a register is the register that the offset names, and only a 64-bit one has a low word. -/
theorem regRef_of_placeOf (req : Requester) (off : Nat) (r : RegRef) (low : Bool) (h : placeOf req off = .reg r low) :
    regRef req off = some r ∧ (low = true → r.desc.width = 64) := by
  unfold placeOf at h
  dsimp only at h
  split at h
  · repeat' split at h
    all_goals cases h
  · -- of the places below BAR0's, all but a register's close at once
    repeat' split at h
    all_goals simp only [reduceCtorEq, Place.reg.injEq] at h
    all_goals
      obtain ⟨rfl, rfl⟩ := h
      exact ⟨‹_›, fun hl => (of_decide_eq_true hl).1⟩

/-- No 32-bit register is held where GCS_LAST_IGNORED is. -/
theorem home_ne_lastIgnored (req : Requester) (off : Nat) (r : RegRef) (h : regRef req off = some r) (hw : r.desc.width ≠ 64) :
    r.home ≠ 0x10010 := by
  obtain ⟨hmem, ⟨i, hinst⟩, hhome⟩ := regRef_mem req off r h
  have hclear := (regTable_clear_of_lastIgnored _ hmem).resolve_left hw
  have hne : r.inst ≠ 0x10010 := by
    rcases hclear with hlt | ⟨hstride, hne⟩
    · omega
    · simpa [hinst, hstride] using hne
  unfold portBOffset at hhome
  omega

/-! ### The device at an access -/

@[simp] theorem State.start_reg (s : State) (a : Nat) : s.start.reg a = s.dev.reg a := rfl

/-- An access to a register touches nothing but the fabric. -/
theorem Dev.chnTouched_frame (d : Dev) (r : RegRef) : d.chnTouched r = { d with fab := (d.chnTouched r).fab } := by
  unfold Dev.chnTouched; split <;> rfl

@[simp] theorem Dev.chnTouched_reg (d : Dev) (r : RegRef) (a : Nat) : (d.chnTouched r).reg a = d.reg a := by
  rw [Dev.chnTouched_frame]; rfl
@[simp] theorem Dev.chnTouched_bus (d : Dev) (r : RegRef) : (d.chnTouched r).bus = d.bus := by rw [Dev.chnTouched_frame]
@[simp] theorem Dev.chnTouched_emitted (d : Dev) (r : RegRef) : (d.chnTouched r).emitted = d.emitted := by
  rw [Dev.chnTouched_frame]

/-- An access to a register of no channel touches no cluster. -/
theorem Dev.chnTouched_of_not_channel (d : Dev) (r : RegRef) (h : r.desc.base < 0x80000 ∨ 0xA0000 ≤ r.desc.base) :
    d.chnTouched r = d := if_neg (by omega)

/-- A command whose output is plain, by the device it leaves. -/
theorem runs_of_plain {c : Instr} {s : State} {f : Dev → Dev} {P : State → Prop} (hc : exec c s = lift s f)
    (hplain : (f s.start).emitted.all Emit.plain = true) (h : P { s with dev := f s.start }) : Runs c s P :=
  ⟨_, hc.trans (lift_plain s f hplain), h⟩

/-- What a command leaves whose device differs from the state's in registers and output alone. -/
theorem State.onlyRegs_of_frame {s : State} {e : Dev} {addrs : List Nat} (hregs : ∀ a, a ∉ addrs → e.reg a = s.dev.reg a)
    (hframe : e = { s.dev with regs := e.regs, emitted := e.emitted }) : s.onlyRegs { s with dev := e } addrs :=
  ⟨rfl, fun _ => rfl, hregs, hframe⟩

/-- A field is its bits of the register that holds it. -/
theorem Dev.g_eq_bits (d : Dev) (f : Fld) : d.g f = (d.reg f.base).bits f.hi f.lo := by simp [Dev.g, Dev.gi]

/-- A field whose register is kept holds what it held. -/
theorem Dev.g_eq_of_reg_eq {d e : Dev} {f : Fld} (h : e.reg f.base = d.reg f.base) : e.g f = d.g f := by
  rw [Dev.g_eq_bits, Dev.g_eq_bits, h]

/-- A field of a register that a command keeps holds what it held. -/
theorem State.onlyRegs.g_eq {s t : State} {addrs : List Nat} (h : s.onlyRegs t addrs) (f : Fld) (hf : f.base ∉ addrs) :
    t.dev.g f = s.dev.g f := by
  obtain ⟨-, -, hkept, -⟩ := h
  exact Dev.g_eq_of_reg_eq (hkept _ hf)

/-! ### Changes of registers alone -/

/-- Two devices that differ in registers alone. -/
def Dev.RegsOnly (d e : Dev) : Prop := e = { d with regs := e.regs }

theorem Dev.RegsOnly.refl (d : Dev) : d.RegsOnly d := rfl

theorem Dev.RegsOnly.trans {d e g : Dev} (hde : d.RegsOnly e) (heg : e.RegsOnly g) : d.RegsOnly g :=
  Eq.trans heg (by rw [hde])

theorem Dev.RegsOnly.emitted_eq {d e : Dev} (h : d.RegsOnly e) : e.emitted = d.emitted := by rw [h]
theorem Dev.RegsOnly.mgmt_eq {d e : Dev} (h : d.RegsOnly e) : e.mgmt = d.mgmt := by rw [h]

theorem Dev.regsOnly_setReg (d : Dev) (a : Nat) (v : DWord) : d.RegsOnly (d.setReg a v) := rfl
theorem Dev.regsOnly_p (d : Dev) (f : Fld) (x : Nat) : d.RegsOnly (d.p f x) := rfl

/-! ### Violations -/

/-- A violation changes registers alone. -/
theorem Dev.regsOnly_violation (d : Dev) (req : Requester) (off : Nat) (width : Bool) : d.RegsOnly (d.violation req off width) :=
  ((((d.regsOnly_p _ _).trans (Dev.regsOnly_p _ _ _)).trans (Dev.regsOnly_p _ _ _)).trans (Dev.regsOnly_p _ _ _)).trans
    (Dev.regsOnly_p _ _ _)

/-- A violation leaves every register but the count of ignored writes and the record of the last one. -/
theorem Dev.reg_violation (d : Dev) (req : Requester) (off a : Nat) (width : Bool) (hc : a ≠ 0x10008) (hl : a ≠ 0x10010) :
    (d.violation req off width).reg a = d.reg a := by
  simp [Dev.violation, Dev.inc, Dev.incBy, Dev.reg_p_other, hc, hl, Reg.GCS_IGNORED_WRITES_COUNT, Reg.GCS_LAST_IGNORED_SOURCE,
    Reg.GCS_LAST_IGNORED_WIDTH, Reg.GCS_LAST_IGNORED_INTERNAL, Reg.GCS_LAST_IGNORED_OFFSET]

/-- A violation leaves the state of every queue, and so the owner bits that queues freeze. -/
theorem Dev.ownerFrozen_violation (d : Dev) (req : Requester) (off : Nat) (width : Bool) (r : RegRef) :
    (d.violation req off width).ownerFrozen r = d.ownerFrozen r := by
  have hgi (f : Fld) (hf : 0x10010 < f.base) (i : Nat) : (d.violation req off width).gi f i = d.gi f i := by
    unfold Dev.gi
    rw [Dev.reg_violation] <;> omega
  simp only [Dev.ownerFrozen, Dev.sqEnabled, Dev.sqState, hgi Reg.CWQ_SQ_STATUS_STATE (by decide), hgi Reg.CWQ_CQ_CTRL_ENABLE (by decide)]

theorem Dev.regNext_violation (d : Dev) (req : Requester) (off : Nat) (width : Bool) (r : RegRef) (enabled may : Bool) (old w : Nat) :
    (d.violation req off width).regNext r enabled may old w = d.regNext r enabled may old w := by
  simp only [Dev.regNext, Dev.ownerFrozen_violation]

/-! ### Commits of a register -/

/-- Whether a write of a register is counted as ignored in some part (R19, R20). -/
def Dev.countsWrite (d : Dev) (req : Requester) (r : RegRef) (w : Nat) : Bool :=
  let counted := if d.mayWrite req r.desc r.inst && r.desc.base == Reg.CHN_CTRL_START.base then setBits w 30 30 0 else w
  r.desc.violated (d.regEnabled r) (d.regMay req r) (d.regView req r) counted || (d.regMay req r && d.regRefuses r (d.reg r.home).toNat w)

/-- The device with the violation of a write counted, where there is one. -/
def Dev.counting (d : Dev) (req : Requester) (r : RegRef) (off w : Nat) : Dev :=
  if d.countsWrite req r w then d.violation req off false else d

/-- A write of a register up to the change of its fields: what the write does beside that is left out. -/
def Dev.storeReg (d : Dev) (req : Requester) (r : RegRef) (off w : Nat) : Dev :=
  let e := d.counting req r off w
  e.setReg r.home (BitVec.ofNat 64 (e.regNext r (d.regEnabled r) (d.regMay req r) (e.reg r.home).toNat w))

/-- A write changes the register's fields, and then does what else the register's writes do. -/
theorem Dev.commitReg_eq (d : Dev) (req : Requester) (r : RegRef) (off w : Nat) :
    d.commitReg req r off w =
      if d.mayWrite req r.desc r.inst then
        if r.desc.base = Reg.MBX_CMD_GO.base ∧ !d.regEnabled r ∧ (d.storeReg req r off w).mgmtUp ∧ fieldOf Reg.MBX_CMD_GO w = 1
        then (d.storeReg req r off w).mbxGo
        else (d.storeReg req r off w).regAct req r (d.reg r.home).toNat w
      else d.storeReg req r off w := rfl

/-- A write that does nothing beside changing the register's fields. -/
theorem Dev.commitReg_of_quiet (d : Dev) (req : Requester) (r : RegRef) (off w : Nat) (hb : r.desc.base ≠ Reg.MBX_CMD_GO.base)
    (hact : ∀ e : Dev, e.regAct req r (d.reg r.home).toNat w = e) : d.commitReg req r off w = d.storeReg req r off w := by
  have hgo : ¬(r.desc.base = Reg.MBX_CMD_GO.base ∧ !d.regEnabled r ∧ (d.storeReg req r off w).mgmtUp ∧ fieldOf Reg.MBX_CMD_GO w = 1) :=
    fun h => hb h.1
  rw [Dev.commitReg_eq, if_neg hgo, hact, ite_self]

theorem Dev.reg_counting (d : Dev) (req : Requester) (r : RegRef) (off w a : Nat) (hc : a ≠ 0x10008) (hl : a ≠ 0x10010) :
    (d.counting req r off w).reg a = d.reg a := by
  unfold Dev.counting
  split
  · exact Dev.reg_violation _ _ _ _ _ hc hl
  · rfl

theorem Dev.regNext_counting (d : Dev) (req : Requester) (r : RegRef) (off w : Nat) (enabled may : Bool) (old w' : Nat) :
    (d.counting req r off w).regNext r enabled may old w' = d.regNext r enabled may old w' := by
  unfold Dev.counting
  split
  · exact Dev.regNext_violation _ _ _ _ _ _ _ _ _
  · rfl

/-- The stored register holds its next value. -/
theorem Dev.reg_storeReg_home (d : Dev) (req : Requester) (r : RegRef) (off w : Nat) (hc : r.home ≠ 0x10008) (hl : r.home ≠ 0x10010) :
    (d.storeReg req r off w).reg r.home =
      BitVec.ofNat 64 (d.regNext r (d.regEnabled r) (d.regMay req r) (d.reg r.home).toNat w) := by
  simp only [Dev.storeReg, Dev.reg_setReg_same, Dev.regNext_counting, Dev.reg_counting _ _ _ _ _ _ hc hl]

/-- A stored register leaves the others, the two that count ignored writes apart. -/
theorem Dev.reg_storeReg_other (d : Dev) (req : Requester) (r : RegRef) (off w a : Nat) (ha : a ≠ r.home) (hc : a ≠ 0x10008)
    (hl : a ≠ 0x10010) : (d.storeReg req r off w).reg a = d.reg a := by
  rw [Dev.storeReg, Dev.reg_setReg_ne _ _ _ _ ha, Dev.reg_counting _ _ _ _ _ _ hc hl]

/-- A stored register changes registers alone. -/
theorem Dev.regsOnly_storeReg (d : Dev) (req : Requester) (r : RegRef) (off w : Nat) : d.RegsOnly (d.storeReg req r off w) := by
  have hcounting : d.RegsOnly (d.counting req r off w) := by
    unfold Dev.counting
    split
    · exact d.regsOnly_violation _ _ _
    · exact .refl d
  exact hcounting.trans (Dev.regsOnly_setReg _ _ _)

/-- A write that is not counted sets its register and nothing else. -/
theorem Dev.storeReg_of_uncounted (d : Dev) (req : Requester) (r : RegRef) (off w : Nat) (h : d.countsWrite req r w = false) :
    d.storeReg req r off w =
      d.setReg r.home (BitVec.ofNat 64 (d.regNext r (d.regEnabled r) (d.regMay req r) (d.reg r.home).toNat w)) := by
  simp [Dev.storeReg, Dev.counting, h]

/-- A write that reaches a whole 32-bit register commits it, once the register's cluster is awake. -/
theorem Dev.busWrite_word (d : Dev) (req : Requester) (off : Nat) (w : Word) (r : RegRef) (hreach : d.reachesAt req off = true)
    (halign : off % 4 = 0) (hplace : placeOf req off = .reg r false) (hw : r.desc.width ≠ 64)
    (hdb : r.desc.base < 0x100000 ∨ 0x101400 ≤ r.desc.base) :
    d.busWrite req off w = (d.chnTouched r).commitReg req r off w.toNat := by
  have hsq : ¬(0x100000 ≤ r.desc.base ∧ r.desc.base < 0x101000) := by omega
  have hcq : ¬(0x101000 ≤ r.desc.base ∧ r.desc.base < 0x101400) := by omega
  simp [Dev.busWrite, hreach, halign, hplace, hw, hsq, hcq]

/-- A write that reaches the low word of a 64-bit register loads the requester's latch. -/
theorem Dev.busWrite_low (d : Dev) (req : Requester) (off : Nat) (w : Word) (r : RegRef) (hreach : d.reachesAt req off = true)
    (halign : off % 4 = 0) (hplace : placeOf req off = .reg r true) :
    d.busWrite req off w = (d.chnTouched r).loadLatch req r w := by
  obtain ⟨href, hwide⟩ := regRef_of_placeOf req off r true hplace
  have hdb := regTable_doorbells_narrow _ (regRef_mem req off r href).1 (hwide rfl)
  have hsq : ¬(0x100000 ≤ r.desc.base ∧ r.desc.base < 0x101000) := by omega
  have hcq : ¬(0x101000 ≤ r.desc.base ∧ r.desc.base < 0x101400) := by omega
  simp [Dev.busWrite, hreach, halign, hplace, hsq, hcq]

/-! ### Registers that stand once, and that the primary port and the management core write -/

/-- A 32-bit global register that stands once, and is no channel's and no queue's and no doorbell. -/
structure OneWord (r : RegDesc) : Prop where
  found : findReg r.base regTable = some (r, r.base)
  ofGlobal : r.rule = .global_
  ofWord : r.width = 32
  inBlocks : 0x10000 ≤ r.base ∧ r.base < portBOffset ∧ r.base % 4 = 0
  noChannel : r.base < 0x80000 ∨ 0xA0000 ≤ r.base
  noDoorbell : r.base < 0x100000 ∨ 0x101400 ≤ r.base
  noQueueCtrl : r.base ≠ Reg.CWQ_SQ_CTRL_ENABLE.base ∧ r.base ≠ Reg.CWQ_CQ_CTRL_ENABLE.base
  noQueueOwner : r.base ≠ Reg.CWQ_SQ_OWNER_OWNER.base ∧ r.base ≠ Reg.CWQ_CQ_OWNER_OWNER.base

/-- The reference to a register that stands once. -/
def onceRef (r : RegDesc) : RegRef := ⟨r, r.base, r.base⟩

section
variable {r : RegDesc} (hr : OneWord r)
include hr

theorem OneWord.fieldsOk : r.fieldsOk := regTable_fieldsOk r (findReg_mem _ _ _ _ hr.found).1

/-- Every requester reaches a register that stands once at its offset. -/
theorem OneWord.placeOf_base (req : Requester) : placeOf req r.base = .reg (onceRef r) false := by
  obtain ⟨hlo, hhi, -⟩ := hr.inBlocks
  have hsecond : decide (portBOffset ≤ r.base) = false := decide_eq_false (by omega)
  have hperPort : r.perPort = false := by rw [RegDesc.perPort, hr.ofGlobal]; rfl
  have href : regRef req r.base = some (onceRef r) := by simp [regRef, hsecond, hr.found, hperPort, onceRef]
  unfold portBOffset at hhi
  have h0 : ¬ bar0Space ≤ r.base := by unfold bar0Space; omega
  have h1 : ¬ r.base < 0x1000 := by omega
  have h2 : ¬(0x1000 ≤ r.base ∧ r.base < 0x1100) := by omega
  have h3 : ¬(0x8000 ≤ r.base ∧ r.base < 0x10000) := by omega
  simp [placeOf, hsecond, h0, h1, h2, h3, href, onceRef, hr.ofWord]

variable {d : Dev} {req : Requester}

/-- A write of a register that stands once commits it. -/
theorem OneWord.busWrite_base (w : Word) (hc : d.reaches req = true) :
    d.busWrite req r.base w = d.commitReg req (onceRef r) r.base w.toNat := by
  obtain ⟨-, hhi, halign⟩ := hr.inBlocks
  unfold portBOffset at hhi
  have hreach : d.reachesAt req r.base = true := by
    rw [Dev.reachesAt, if_neg (by unfold bar0Space; omega), hc]
  have hw : (onceRef r).desc.width ≠ 64 := by simp [onceRef, hr.ofWord]
  rw [Dev.busWrite_word d req r.base w _ hreach halign (hr.placeOf_base req) hw hr.noDoorbell,
    Dev.chnTouched_of_not_channel _ _ hr.noChannel]

theorem OneWord.mayWrite_ref (hc : d.writesGlobal req = true) :
    d.mayWrite req (onceRef r).desc (onceRef r).inst = true := by
  simpa [Dev.mayWrite, onceRef, hr.ofGlobal] using hc

theorem OneWord.regMay_ref (hc : d.writesGlobal req = true) : d.regMay req (onceRef r) = true := by
  have hch : ¬(0x80000 ≤ (onceRef r).desc.base ∧ (onceRef r).desc.base < 0xA0000) := by
    have h : (onceRef r).desc.base < 0x80000 ∨ 0xA0000 ≤ (onceRef r).desc.base := hr.noChannel
    omega
  simp [Dev.regMay, hr.mayWrite_ref hc, hch]

theorem OneWord.ownerFrozen_ref : d.ownerFrozen (onceRef r) = 0 := by
  obtain ⟨hsq, hcq⟩ := hr.noQueueOwner
  simp [Dev.ownerFrozen, onceRef, hsq, hcq]

/-- The next value of such a register is what its fields give. -/
theorem OneWord.regNext_ref (enabled may : Bool) (old w : Nat) :
    d.regNext (onceRef r) enabled may old w = r.written enabled may (clearingReg r.base) old w := by
  rw [Dev.regNext, hr.ownerFrozen_ref]
  exact if_neg (not_or.mpr hr.noQueueCtrl)

/-- A field of such a register after an accepted write. -/
theorem OneWord.bits_next {f : FieldDesc} (hf : f ∈ r.fields) (enabled may : Bool) (v : DWord) (w : Nat) :
    DWord.bits (BitVec.ofNat 64 (d.regNext (onceRef r) enabled may v.toNat w)) f.hi f.lo =
      if may && f.takes enabled then f.next (clearingReg r.base) (v.bits f.hi f.lo) (bitsOf w f.hi f.lo) % 2 ^ (f.hi + 1 - f.lo)
      else v.bits f.hi f.lo := by
  rw [hr.regNext_ref, DWord.bits, BitVec.toNat_ofNat, bitsOf_mod_two_pow _ _ _ (hr.fieldsOk.1 f hf).2,
    RegDesc.bitsOf_written _ _ _ _ _ _ _ hr.fieldsOk hf]
  rfl

/-- A field of such a register after a write that is stored: what its type gives, where it takes the write. -/
theorem OneWord.bits_storeReg {f : FieldDesc} (hf : f ∈ r.fields) (w : Nat) (hc : d.writesGlobal req = true)
    (hn : r.base ≠ 0x10008) :
    ((d.storeReg req (onceRef r) r.base w).reg r.base).bits f.hi f.lo =
      if f.takes (d.regEnabled (onceRef r)) then
        f.next (clearingReg r.base) ((d.reg r.base).bits f.hi f.lo) (bitsOf w f.hi f.lo) % 2 ^ (f.hi + 1 - f.lo)
      else (d.reg r.base).bits f.hi f.lo := by
  have hl : r.base ≠ 0x10010 := by
    intro h
    have hword := hr.ofWord
    have hclear := regTable_clear_of_lastIgnored r (findReg_mem _ _ _ _ hr.found).1
    omega
  have hhome := Dev.reg_storeReg_home d req (onceRef r) r.base w hn hl
  rw [show (onceRef r).home = r.base from rfl] at hhome
  rw [hhome, hr.bits_next hf, hr.regMay_ref hc, Bool.true_and]

/-- No write of a register whose one field is read and written whole is counted. -/
theorem OneWord.countsWrite_whole {f : FieldDesc} (hf : r.fields = [f]) (hrw : f.ty = .rw ∧ f.attr = .live ∧ f.hi = 31 ∧ f.lo = 0)
    (w : Word) (hc : d.writesGlobal req = true) (hb : r.base ≠ Reg.MBX_CMD_GO.base) : d.countsWrite req (onceRef r) w.toNat = false := by
  obtain ⟨hty, hattr, hhi, hlo⟩ := hrw
  have hcq := hr.noQueueCtrl.2
  have hstart : r.base ≠ Reg.CHN_CTRL_START.base := by
    have hch := hr.noChannel
    simp only [Reg.CHN_CTRL_START]
    omega
  have htakes : f.takes (d.regEnabled (onceRef r)) = true := by simp [FieldDesc.takes, hty, hattr]
  have hreserved : r.reservedBits w.toNat = false := by
    have hlt : w.toNat % 4294967296 = w.toNat := Nat.mod_eq_of_lt w.isLt
    simp [RegDesc.reservedBits, hf, hhi, hlo, bitsOf, hlt]
  have hviolated : r.violated (d.regEnabled (onceRef r)) true (d.regView req (onceRef r)) w.toNat = false := by
    simp [RegDesc.violated, hreserved, hf, htakes]
  have hrefuses : d.regRefuses (onceRef r) (d.reg r.base).toNat w.toNat = false := by
    have hdesc : (onceRef r).desc.base = r.base := rfl
    simp [Dev.regRefuses, hr.ownerFrozen_ref, hdesc, hcq, hb]
  have hdesc : (onceRef r).desc = r := rfl
  have hhome : (onceRef r).home = r.base := rfl
  simp [Dev.countsWrite, hr.regMay_ref hc, hdesc, hhome, hstart, hviolated, hrefuses]

end

/-- A register whose one field is read and written whole. -/
def WholeWord (r : RegDesc) : Prop := ∃ f, r.fields = [f] ∧ f.ty = .rw ∧ f.attr = .live ∧ f.hi = 31 ∧ f.lo = 0

section
variable {r : RegDesc} {d : Dev} {req : Requester}

/-- A write of a whole word sets its register and nothing else. -/
theorem OneWord.storeReg_whole (hr : OneWord r) (hw : WholeWord r) (w : Word) (hc : d.writesGlobal req = true)
    (hb : r.base ≠ Reg.MBX_CMD_GO.base) :
    ∃ v : DWord, v.bits 31 0 = (if clearingReg r.base then 0 else w.toNat) ∧
      d.storeReg req (onceRef r) r.base w.toNat = d.setReg r.base v := by
  obtain ⟨f, hf, hty, hattr, hhi, hlo⟩ := hw
  refine ⟨_, ?_, d.storeReg_of_uncounted req (onceRef r) r.base w.toNat (hr.countsWrite_whole hf ⟨hty, hattr, hhi, hlo⟩ w hc hb)⟩
  have htakes : f.takes (d.regEnabled (onceRef r)) = true := by simp [FieldDesc.takes, hty, hattr]
  have hlt : w.toNat % 4294967296 = w.toNat := Nat.mod_eq_of_lt w.isLt
  have hbits := hr.bits_next (d := d) (f := f) (by simp [hf]) (d.regEnabled (onceRef r)) (d.regMay req (onceRef r))
    (d.reg (onceRef r).home) w.toNat
  rw [hr.regMay_ref hc, htakes, hhi, hlo] at hbits
  rw [hr.regMay_ref hc, hbits]
  cases clearingReg r.base <;> simp [FieldDesc.next, hty, bitsOf, hlt]

/-- An accepted write of such a register changes its fields, and then does what else the register's writes do. -/
theorem OneWord.commitReg_ref (hr : OneWord r) (w : Nat) (hc : d.writesGlobal req = true) (hb : r.base ≠ Reg.MBX_CMD_GO.base) :
    d.commitReg req (onceRef r) r.base w =
      (d.storeReg req (onceRef r) r.base w).regAct req (onceRef r) (d.reg r.base).toNat w := by
  rw [Dev.commitReg_eq, if_pos (hr.mayWrite_ref (d := d) hc), if_neg (fun h => hb h.1)]
  rfl

/-- A command that writes a register that stands once, where the requester may write it. -/
theorem OneWord.runs_write (hr : OneWord r) {c : Instr} {s : State} {w : Word} {P : State → Prop} (hc : s.dev.commands req)
    (hexec : exec c s = lift s fun d => d.busWrite req r.base w)
    (hplain : (s.start.commitReg req (onceRef r) r.base w.toNat).emitted.all Emit.plain = true)
    (hP : P { s with dev := s.start.commitReg req (onceRef r) r.base w.toNat }) : Runs c s P := by
  rw [← hr.busWrite_base w (d := s.start) hc.1] at hplain hP
  exact runs_of_plain hexec hplain hP

/-- A write of a whole word that does nothing else. -/
theorem OneWord.runs_write_whole (hr : OneWord r) (hw : WholeWord r) {c : Instr} {s : State} {w : Word} (hc : s.dev.commands req)
    (hexec : exec c s = lift s fun d => d.busWrite req r.base w) (hb : r.base ≠ Reg.MBX_CMD_GO.base)
    (hact : ∀ (e : Dev) (old w : Nat), e.regAct req (onceRef r) old w = e) :
    Runs c s fun t => (t.dev.reg r.base).bits 31 0 = (if clearingReg r.base then 0 else w.toNat) ∧ s.onlyRegs t [r.base] := by
  obtain ⟨v, hv, hstore⟩ := hr.storeReg_whole hw w (d := s.start) (req := req) hc.2 hb
  have hcommit : s.start.commitReg req (onceRef r) r.base w.toNat = s.start.setReg r.base v :=
    (Dev.commitReg_of_quiet _ _ _ _ _ hb fun e => hact e _ _).trans hstore
  refine hr.runs_write hc hexec (by rw [hcommit]; rfl) ?_
  rw [hcommit]
  refine ⟨by simp [hv], State.onlyRegs_of_frame (fun a ha => ?_) rfl⟩
  rw [Dev.reg_setReg_ne _ _ _ _ (by simpa using ha), State.start_reg]

end

/-- What a command leaves whose device differs from the state's in registers alone. -/
theorem State.onlyRegs_of_regsOnly {s : State} {e : Dev} {addrs : List Nat} (h : s.start.RegsOnly e)
    (hregs : ∀ a, a ∉ addrs → e.reg a = s.dev.reg a) : s.onlyRegs { s with dev := e } addrs :=
  State.onlyRegs_of_frame hregs (by rw [h]; rfl)

/-- GCS_IGNORED_WRITES -/
def ignoredWritesDesc : RegDesc := ⟨"GCS_IGNORED_WRITES", 0x10008, 0x0, 1, 32, .global_, [⟨31, 0, .rw, .live, 0, .cold⟩]⟩
/-- CWQ_DROPPED -/
def droppedDesc : RegDesc := ⟨"CWQ_DROPPED", 0xb80b4, 0x0, 1, 32, .global_, [⟨31, 0, .rw, .live, 0, .cold⟩]⟩
/-- MBR_GPIO_OUT -/
def gpioOutDesc : RegDesc := ⟨"MBR_GPIO_OUT", 0x210020, 0x0, 1, 32, .global_, [⟨31, 0, .rw, .live, 0, .cold⟩]⟩
/-- MBR_GPIO_OE -/
def gpioOeDesc : RegDesc := ⟨"MBR_GPIO_OE", 0x210024, 0x0, 1, 32, .global_, [⟨31, 0, .rw, .live, 0, .cold⟩]⟩
/-- JNL_OCCUPANCY -/
def occupancyDesc : RegDesc :=
  ⟨"JNL_OCCUPANCY", 0x30014, 0x0, 1, 32, .global_, [⟨22, 16, .rw, .live, 0, .warm⟩, ⟨6, 0, .ro, .none, 0, .warm⟩]⟩
/-- BUF_SCRUB -/
def scrubDesc : RegDesc :=
  ⟨"BUF_SCRUB", 0x280008, 0x0, 1, 32, .global_, [⟨31, 16, .ro, .none, 0, .cold⟩, ⟨7, 0, .rw, .live, 24, .cold⟩]⟩
/-- MBX_CMD -/
def mbxCmdDesc : RegDesc :=
  ⟨"MBX_CMD", 0x260000, 0x0, 1, 32, .global_,
    [⟨31, 31, .wo, .frozen, 0, .warm⟩, ⟨23, 16, .rw, .frozen, 0, .warm⟩, ⟨12, 0, .rw, .frozen, 0, .warm⟩]⟩

theorem oneWord_ignoredWrites : OneWord ignoredWritesDesc := by constructor <;> decide +kernel
theorem oneWord_dropped : OneWord droppedDesc := by constructor <;> decide +kernel
theorem oneWord_gpioOut : OneWord gpioOutDesc := by constructor <;> decide +kernel
theorem oneWord_gpioOe : OneWord gpioOeDesc := by constructor <;> decide +kernel
theorem oneWord_occupancy : OneWord occupancyDesc := by constructor <;> decide +kernel
theorem oneWord_scrub : OneWord scrubDesc := by constructor <;> decide +kernel
theorem oneWord_mbxCmd : OneWord mbxCmdDesc := by constructor <;> decide +kernel

theorem wholeWord_ignoredWrites : WholeWord ignoredWritesDesc := ⟨_, rfl, rfl, rfl, rfl, rfl⟩
theorem wholeWord_dropped : WholeWord droppedDesc := ⟨_, rfl, rfl, rfl, rfl, rfl⟩
theorem wholeWord_gpioOut : WholeWord gpioOutDesc := ⟨_, rfl, rfl, rfl, rfl, rfl⟩
theorem wholeWord_gpioOe : WholeWord gpioOeDesc := ⟨_, rfl, rfl, rfl, rfl, rfl⟩

/-- A write of GCS_IGNORED_WRITES clears it (R22). -/
theorem runs_clear_ignoredWrites {c : Instr} {s : State} {req : Requester} {w : Word} (hc : s.dev.commands req)
    (hexec : exec c s = lift s fun d => d.busWrite req ignoredWritesDesc.base w) :
    Runs c s fun t => t.dev.g Reg.GCS_IGNORED_WRITES_COUNT = 0 ∧ s.onlyRegs t [0x10008] := by
  obtain ⟨t, ht, hcount, honly⟩ := oneWord_ignoredWrites.runs_write_whole wholeWord_ignoredWrites hc hexec (by decide) fun _ _ _ => rfl
  exact ⟨t, ht, (t.dev.g_eq_bits _).trans hcount, honly⟩

/-- A write of CWQ_DROPPED clears it (R12). -/
theorem runs_clear_dropped {c : Instr} {s : State} {req : Requester} {w : Word} (hc : s.dev.commands req)
    (hexec : exec c s = lift s fun d => d.busWrite req droppedDesc.base w) :
    Runs c s fun t => t.dev.g Reg.CWQ_DROPPED_COUNT = 0 ∧ s.onlyRegs t [Reg.CWQ_DROPPED_COUNT.base] := by
  obtain ⟨t, ht, hcount, honly⟩ := oneWord_dropped.runs_write_whole wholeWord_dropped hc hexec (by decide) fun _ _ _ => rfl
  exact ⟨t, ht, (t.dev.g_eq_bits _).trans hcount, honly⟩

/-- A write of JNL_OCCUPANCY clears PEAK and leaves PERCENT (R12). -/
theorem runs_clear_peak {c : Instr} {s : State} {req : Requester} {w : Word} (hc : s.dev.commands req)
    (hexec : exec c s = lift s fun d => d.busWrite req occupancyDesc.base w) :
    Runs c s fun t => t.dev.g Reg.JNL_OCCUPANCY_PEAK = 0 ∧ t.dev.g Reg.JNL_OCCUPANCY_PERCENT = s.dev.g Reg.JNL_OCCUPANCY_PERCENT ∧
      s.onlyRegs t [Reg.JNL_OCCUPANCY_PEAK.base, 0x10008, 0x10010] := by
  have hr := oneWord_occupancy
  have hcommit : s.start.commitReg req (onceRef occupancyDesc) occupancyDesc.base w.toNat =
      s.start.storeReg req (onceRef occupancyDesc) occupancyDesc.base w.toNat :=
    Dev.commitReg_of_quiet _ _ _ _ _ (by decide) fun _ => rfl
  have honly := s.start.regsOnly_storeReg req (onceRef occupancyDesc) occupancyDesc.base w.toNat
  refine hr.runs_write hc hexec (by rw [hcommit, honly.emitted_eq]; rfl) ?_
  rw [hcommit]
  refine ⟨?_, ?_, State.onlyRegs_of_regsOnly honly fun a ha => ?_⟩
  · rw [Dev.g_eq_bits]
    exact hr.bits_storeReg (f := ⟨22, 16, .rw, .live, 0, .warm⟩) (by decide) w.toNat hc.2 (by decide)
  · rw [Dev.g_eq_bits, Dev.g_eq_bits]
    exact hr.bits_storeReg (f := ⟨6, 0, .ro, .none, 0, .warm⟩) (by decide) w.toNat hc.2 (by decide)
  · simp only [List.mem_cons, List.not_mem_nil, or_false, not_or] at ha
    obtain ⟨hhome, hc, hl⟩ := ha
    exact Dev.reg_storeReg_other _ _ _ _ _ _ hhome hc hl

/-- Settles O12: the two whole counters are cleared by a write that no field refuses, and JNL_OCCUPANCY field by field. -/
theorem clearingCountersClear : Obligations.ClearingCountersClear := by
  unfold Obligations.ClearingCountersClear
  intro s req w hreach hglobal
  have hc : s.dev.commands req := ⟨hreach, hglobal⟩
  exact ⟨runs_clear_ignoredWrites hc rfl, runs_clear_ignoredWrites hc rfl, runs_clear_dropped hc rfl, runs_clear_peak hc rfl⟩

/-- Settles O9: the low word of a 64-bit register is reached by the latch alone. -/
theorem lowWordWriteLoadsLatch : Obligations.LowWordWriteLoadsLatch := by
  unfold Obligations.LowWordWriteLoadsLatch
  intro s req off w r hreach halign hplace
  have hwrite : s.start.busWrite req off w = (s.start.chnTouched r).loadLatch req r w := s.start.busWrite_low req off w r hreach halign hplace
  have hplain : (s.start.busWrite req off w).emitted.all Emit.plain = true := by
    rw [hwrite, show ((s.start.chnTouched r).loadLatch req r w).emitted = (s.start.chnTouched r).emitted from rfl, Dev.chnTouched_emitted]
    rfl
  have hrun : exec (.lowWordWrite req off w) s = .next { s with dev := s.start.busWrite req off w } := lift_plain s _ hplain
  rw [hrun, hwrite, Dev.loadLatch, Dev.chnTouched_bus]
  rfl

/-! ### The mailbox at a write with GO -/

/-- An interrupt leaves the device as it was, is sent, or is left pending in its function. -/
theorem Dev.irq_cases (d : Dev) (portB : Bool) (f vec : Nat) :
    d.irq portB f vec = d ∨ d.irq portB f vec = d.emit (.irq portB f vec) ∨ ∃ g, d.irq portB f vec = d.updPort portB g := by
  unfold Dev.irq
  dsimp only
  split
  · exact .inl rfl
  · split
    · exact .inr (.inr ⟨_, rfl⟩)
    · split
      · exact .inr (.inl rfl)
      · exact .inr (.inr ⟨_, rfl⟩)

@[simp] theorem Dev.irq_reg (d : Dev) (portB : Bool) (f vec a : Nat) : (d.irq portB f vec).reg a = d.reg a := by
  rcases d.irq_cases portB f vec with h | h | ⟨g, h⟩ <;> rw [h]
  · rfl
  · cases portB <;> rfl

@[simp] theorem Dev.irq_mgmt (d : Dev) (portB : Bool) (f vec : Nat) : (d.irq portB f vec).mgmt = d.mgmt := by
  rcases d.irq_cases portB f vec with h | h | ⟨g, h⟩ <;> rw [h]
  · rfl
  · cases portB <;> rfl

theorem Dev.irq_plain (d : Dev) (portB : Bool) (f vec : Nat) (hd : d.emitted.all Emit.plain = true) :
    (d.irq portB f vec).emitted.all Emit.plain = true := by
  rcases d.irq_cases portB f vec with h | h | ⟨g, h⟩ <;> rw [h]
  · exact hd
  · simp [hd, Emit.plain]
  · cases portB <;> exact hd

/-- The status register as a mailbox command's end leaves it. -/
def Dev.mbxEnded (d : Dev) (status outLen : Nat) : Dev :=
  (((d.p Reg.MBX_STATUS_BUSY 0).p Reg.MBX_STATUS_DONE 1).p Reg.MBX_STATUS_STATUS status).p Reg.MBX_STATUS_OUT_LEN outLen

/-- The end of a mailbox command sets its status, and may interrupt. -/
theorem Dev.mbxEnd_cases (d : Dev) (status outLen : Nat) :
    d.mbxEnd status outLen = d.mbxEnded status outLen ∨
      ∃ portB vec, d.mbxEnd status outLen = (d.mbxEnded status outLen).irq portB 1 vec := by
  unfold Dev.mbxEnd
  dsimp only
  split
  · exact .inr ⟨_, _, rfl⟩
  · exact .inl rfl

theorem Dev.mbxEnd_reg (d : Dev) (status outLen a : Nat) : (d.mbxEnd status outLen).reg a = (d.mbxEnded status outLen).reg a := by
  rcases d.mbxEnd_cases status outLen with h | ⟨portB, vec, h⟩ <;> simp [h]

theorem Dev.regsOnly_mbxEnded (d : Dev) (status outLen : Nat) : d.RegsOnly (d.mbxEnded status outLen) :=
  (((d.regsOnly_p _ _).trans (Dev.regsOnly_p _ _ _)).trans (Dev.regsOnly_p _ _ _)).trans (Dev.regsOnly_p _ _ _)

theorem Dev.mbxEnded_reg (d : Dev) (status outLen a : Nat) (ha : a ≠ Reg.MBX_STATUS_BUSY.base) :
    (d.mbxEnded status outLen).reg a = d.reg a := by
  have hp (e : Dev) (f : Fld) (x : Nat) (hf : f.base = Reg.MBX_STATUS_BUSY.base) : (e.p f x).reg a = e.reg a :=
    Dev.reg_p_other _ _ _ _ (hf ▸ ha)
  rw [Dev.mbxEnded, hp _ Reg.MBX_STATUS_OUT_LEN _ rfl, hp _ Reg.MBX_STATUS_STATUS _ rfl, hp _ Reg.MBX_STATUS_DONE _ rfl,
    hp _ Reg.MBX_STATUS_BUSY _ rfl]

theorem fldOk_mbxBusy : FldOk Reg.MBX_STATUS_BUSY := ⟨by decide, by decide⟩
theorem fldOk_mbxDone : FldOk Reg.MBX_STATUS_DONE := ⟨by decide, by decide⟩
theorem fldOk_mbxStatus : FldOk Reg.MBX_STATUS_STATUS := ⟨by decide, by decide⟩
theorem fldOk_mbxOutLen : FldOk Reg.MBX_STATUS_OUT_LEN := ⟨by decide, by decide⟩
theorem fldOk_mbxRecovery : FldOk Reg.MBX_STATUS_RECOVERY := ⟨by decide, by decide⟩

/-- A mailbox command that has ended is not busy. -/
theorem Dev.mbxEnded_busy (d : Dev) (status outLen : Nat) : (d.mbxEnded status outLen).g Reg.MBX_STATUS_BUSY = 0 := by
  rw [Dev.mbxEnded, Dev.g_p_apart _ _ _ _ fldOk_mbxOutLen fldOk_mbxBusy rfl (by decide),
    Dev.g_p_apart _ _ _ _ fldOk_mbxStatus fldOk_mbxBusy rfl (by decide),
    Dev.g_p_apart _ _ _ _ fldOk_mbxDone fldOk_mbxBusy rfl (by decide), Dev.g_p_same _ _ _ fldOk_mbxBusy]
  exact Nat.zero_mod _

/-- A mailbox command that has ended is done. -/
theorem Dev.mbxEnded_done (d : Dev) (status outLen : Nat) : (d.mbxEnded status outLen).g Reg.MBX_STATUS_DONE = 1 := by
  rw [Dev.mbxEnded, Dev.g_p_apart _ _ _ _ fldOk_mbxOutLen fldOk_mbxDone rfl (by decide),
    Dev.g_p_apart _ _ _ _ fldOk_mbxStatus fldOk_mbxDone rfl (by decide), Dev.g_p_same _ _ _ fldOk_mbxDone]
  decide

/-- A mailbox command that has ended has its status. -/
theorem Dev.mbxEnded_status (d : Dev) (status outLen : Nat) :
    (d.mbxEnded status outLen).g Reg.MBX_STATUS_STATUS = status % 2 ^ 8 := by
  rw [Dev.mbxEnded, Dev.g_p_apart _ _ _ _ fldOk_mbxOutLen fldOk_mbxStatus rfl (by decide), Dev.g_p_same _ _ _ fldOk_mbxStatus]
  rfl

/-- Whether a mailbox command is allowed depends on recovery mode alone. -/
theorem Dev.mbxAllowed_congr {d e : Dev} (op : Nat) (h : e.g Reg.MBX_STATUS_RECOVERY = d.g Reg.MBX_STATUS_RECOVERY) :
    e.mbxAllowed op = d.mbxAllowed op := by
  unfold Dev.mbxAllowed Dev.on; rw [h]

theorem Dev.mbxAllowed_busy (d : Dev) (x op : Nat) : (d.p Reg.MBX_STATUS_BUSY x).mbxAllowed op = d.mbxAllowed op :=
  Dev.mbxAllowed_congr op (Dev.g_p_apart _ _ _ _ fldOk_mbxBusy fldOk_mbxRecovery rfl (by decide))

/-- BUSY leaves the command's fields. -/
theorem Dev.mbxCmd_busy (d : Dev) (x : Nat) :
    (d.p Reg.MBX_STATUS_BUSY x).g Reg.MBX_CMD_OPCODE = d.g Reg.MBX_CMD_OPCODE ∧
      (d.p Reg.MBX_STATUS_BUSY x).g Reg.MBX_CMD_LEN = d.g Reg.MBX_CMD_LEN :=
  ⟨Dev.g_p_other _ _ _ _ (by decide), Dev.g_p_other _ _ _ _ (by decide)⟩

/-- GO with an opcode that is allowed and a length that fits leaves the command running. -/
theorem Dev.mbxGo_of_allowed (d : Dev) (hop : d.mbxAllowed (d.g Reg.MBX_CMD_OPCODE) = true) (hlen : d.g Reg.MBX_CMD_LEN ≤ 4096) :
    d.mbxGo = d.p Reg.MBX_STATUS_BUSY 1 := by
  simp [Dev.mbxGo, Dev.mbxAllowed_busy, Dev.mbxCmd_busy, hop, Nat.not_lt.mpr hlen]

/-- GO with an opcode that is not allowed ends the command with that status. -/
theorem Dev.mbxGo_of_refused (d : Dev) (hop : d.mbxAllowed (d.g Reg.MBX_CMD_OPCODE) = false) :
    d.mbxGo = (d.p Reg.MBX_STATUS_BUSY 1).mbxDone .badOpcode 0 0 := by
  simp [Dev.mbxGo, Dev.mbxAllowed_busy, Dev.mbxCmd_busy, hop]

/-- GO with an opcode that is allowed and a length that fits leaves the mailbox busy. -/
theorem Dev.mbxGo_busy (d : Dev) (hop : d.mbxAllowed (d.g Reg.MBX_CMD_OPCODE) = true) (hlen : d.g Reg.MBX_CMD_LEN ≤ 4096) :
    d.mbxGo.on Reg.MBX_STATUS_BUSY = true := by
  rw [d.mbxGo_of_allowed hop hlen, Dev.on, Dev.g_p_same _ _ _ fldOk_mbxBusy]
  rfl

/-- GO with an opcode that is not allowed leaves the mailbox done, with BAD_OPCODE. -/
theorem Dev.mbxGo_ended (d : Dev) (hop : d.mbxAllowed (d.g Reg.MBX_CMD_OPCODE) = false) :
    d.mbxGo.on Reg.MBX_STATUS_BUSY = false ∧ d.mbxGo.on Reg.MBX_STATUS_DONE = true ∧ d.mbxGo.g Reg.MBX_STATUS_STATUS = 1 := by
  have hend (f : Fld) : d.mbxGo.g f = (((d.p Reg.MBX_STATUS_BUSY 1).p Reg.MBX_RESULT_VALUE 0).mbxEnded 1 0).g f := by
    rw [d.mbxGo_of_refused hop]
    exact Dev.g_eq_of_reg_eq (Dev.mbxEnd_reg _ _ _ _)
  simp [Dev.on, hend, Dev.mbxEnded_busy, Dev.mbxEnded_done, Dev.mbxEnded_status]

/-- GO with a length beyond the buffer ends the command with that status. -/
theorem Dev.mbxGo_of_long (d : Dev) (hop : d.mbxAllowed (d.g Reg.MBX_CMD_OPCODE) = true) (hlen : 4096 < d.g Reg.MBX_CMD_LEN) :
    d.mbxGo = (d.p Reg.MBX_STATUS_BUSY 1).mbxDone .badArg 0 0 := by
  simp [Dev.mbxGo, Dev.mbxAllowed_busy, Dev.mbxCmd_busy, hop, hlen]

/-- Two devices that differ in the mailbox's status and result alone. -/
def Dev.MailboxOnly (d e : Dev) : Prop :=
  d.RegsOnly e ∧ ∀ a, a ≠ Reg.MBX_STATUS_BUSY.base → a ≠ Reg.MBX_RESULT_VALUE.base → e.reg a = d.reg a

theorem Dev.mailboxOnly_busy (d : Dev) (x : Nat) : d.MailboxOnly (d.p Reg.MBX_STATUS_BUSY x) :=
  ⟨d.regsOnly_p _ _, fun _ hs _ => Dev.reg_p_other _ _ _ _ hs⟩

/-- A mailbox command that ends changes the mailbox's status and result alone, and may then interrupt. -/
theorem Dev.mbxDone_cases (d : Dev) (st : MbxStatus) (result outLen : Nat) :
    ∃ e, d.MailboxOnly e ∧ (d.mbxDone st result outLen = e ∨ ∃ portB vec, d.mbxDone st result outLen = e.irq portB 1 vec) := by
  refine ⟨_, ⟨(d.regsOnly_p _ _).trans (Dev.regsOnly_mbxEnded _ _ _), fun a hs hr => ?_⟩, Dev.mbxEnd_cases _ _ _⟩
  rw [Dev.mbxEnded_reg _ _ _ _ hs, Dev.reg_p_other _ _ _ _ hr]

/-- GO changes the mailbox's status and result alone, and may then interrupt. -/
theorem Dev.mbxGo_cases (d : Dev) : ∃ e, d.MailboxOnly e ∧ (d.mbxGo = e ∨ ∃ portB vec, d.mbxGo = e.irq portB 1 vec) := by
  obtain ⟨hbusyOnly, hbusyReg⟩ := d.mailboxOnly_busy 1
  have hdone (st : MbxStatus) (h : d.mbxGo = (d.p Reg.MBX_STATUS_BUSY 1).mbxDone st 0 0) :
      ∃ e, d.MailboxOnly e ∧ (d.mbxGo = e ∨ ∃ portB vec, d.mbxGo = e.irq portB 1 vec) := by
    obtain ⟨e, ⟨honly, hreg⟩, hend⟩ := (d.p Reg.MBX_STATUS_BUSY 1).mbxDone_cases st 0 0
    exact ⟨e, ⟨hbusyOnly.trans honly, fun a hs hr => (hreg a hs hr).trans (hbusyReg a hs hr)⟩, h ▸ hend⟩
  by_cases hop : d.mbxAllowed (d.g Reg.MBX_CMD_OPCODE) = true
  · by_cases hlen : 4096 < d.g Reg.MBX_CMD_LEN
    · exact hdone .badArg (d.mbxGo_of_long hop hlen)
    · exact ⟨_, d.mailboxOnly_busy 1, .inl (d.mbxGo_of_allowed hop (Nat.not_lt.mp hlen))⟩
  · exact hdone .badOpcode (d.mbxGo_of_refused (by simpa using hop))

/-- GO leaves every register but the mailbox's status and result. -/
theorem Dev.mbxGo_reg (d : Dev) (a : Nat) (hs : a ≠ Reg.MBX_STATUS_BUSY.base) (hr : a ≠ Reg.MBX_RESULT_VALUE.base) :
    d.mbxGo.reg a = d.reg a := by
  obtain ⟨e, ⟨-, hreg⟩, h | ⟨portB, vec, h⟩⟩ := d.mbxGo_cases
  · rw [h, hreg a hs hr]
  · rw [h, Dev.irq_reg, hreg a hs hr]

theorem Dev.mbxGo_mgmt (d : Dev) : d.mbxGo.mgmt = d.mgmt := by
  obtain ⟨e, ⟨honly, -⟩, h | ⟨portB, vec, h⟩⟩ := d.mbxGo_cases
  · rw [h, honly.mgmt_eq]
  · rw [h, Dev.irq_mgmt, honly.mgmt_eq]

/-- GO sends nothing but an interrupt. -/
theorem Dev.mbxGo_plain (d : Dev) (hd : d.emitted.all Emit.plain = true) : d.mbxGo.emitted.all Emit.plain = true := by
  obtain ⟨e, ⟨honly, -⟩, h | ⟨portB, vec, h⟩⟩ := d.mbxGo_cases
  · rw [h, honly.emitted_eq, hd]
  · rw [h]
    exact Dev.irq_plain _ _ _ _ (by rw [honly.emitted_eq, hd])

/-! ### The writes that do more than change their register -/

/-- A write of a GPIO output register drives the pins as the two registers then say. -/
theorem Dev.regAct_gpio (d : Dev) (req : Requester) (r : RegRef) (old w : Nat)
    (hr : r.desc.base = Reg.MBR_GPIO_OUT_PINS.base ∨ r.desc.base = Reg.MBR_GPIO_OE_PINS.base) :
    d.regAct req r old w = d.emit (.gpio (d.g Reg.MBR_GPIO_OUT_PINS) (d.g Reg.MBR_GPIO_OE_PINS)) := by
  rcases hr with hr | hr <;> rw [Dev.regAct, hr] <;> rfl

/-- A write of a GPIO output register sets it, and drives the pins. -/
theorem runs_write_gpio {r : RegDesc} (hr : OneWord r) (hw : WholeWord r)
    (hg : r.base = Reg.MBR_GPIO_OUT_PINS.base ∨ r.base = Reg.MBR_GPIO_OE_PINS.base) {s : State} {req : Requester} {w : Word}
    (hc : s.dev.commands req) :
    Runs (.registerWrite req r.base w) s fun t => (t.dev.reg r.base).bits 31 0 = w.toNat ∧
      t.dev.emitted = [.gpio (t.dev.g Reg.MBR_GPIO_OUT_PINS) (t.dev.g Reg.MBR_GPIO_OE_PINS)] ∧ s.onlyRegs t [r.base] := by
  have hb : r.base ≠ Reg.MBX_CMD_GO.base := by rcases hg with h | h <;> rw [h] <;> decide
  have hclear : clearingReg r.base = false := by rcases hg with h | h <;> rw [h] <;> decide
  obtain ⟨v, hv, hstore⟩ := hr.storeReg_whole hw w (d := s.start) (req := req) hc.2 hb
  rw [hclear] at hv
  have hcommit : s.start.commitReg req (onceRef r) r.base w.toNat = (s.start.setReg r.base v).emit
      (.gpio ((s.start.setReg r.base v).g Reg.MBR_GPIO_OUT_PINS) ((s.start.setReg r.base v).g Reg.MBR_GPIO_OE_PINS)) := by
    rw [hr.commitReg_ref (d := s.start) _ hc.2 hb, hstore, Dev.regAct_gpio _ _ _ _ _ hg]
  refine hr.runs_write hc rfl (by rw [hcommit]; rfl) ?_
  rw [hcommit]
  refine ⟨by simp [hv], rfl, State.onlyRegs_of_frame (fun a ha => ?_) rfl⟩
  rw [Dev.emit_reg, Dev.reg_setReg_ne _ _ _ _ (by simpa using ha), State.start_reg]

theorem fldOk_scrubPaused : FldOk Reg.BUF_STATUS_SCRUB_PAUSED := ⟨by decide, by decide⟩

/-- A write of the scrub period sets it, and pauses the scrub where it is 0 or a dump runs. -/
theorem runs_write_scrub {s : State} {req : Requester} {w : Word} (hc : s.dev.commands req) :
    Runs (.registerWrite req Reg.BUF_SCRUB_PERIOD.base w) s fun t => t.dev.g Reg.BUF_SCRUB_PERIOD = w.toNat % 256 ∧
      t.dev.on Reg.BUF_STATUS_SCRUB_PAUSED = (s.dev.on Reg.VLT_STATUS_DUMPING || w.toNat % 256 == 0) ∧
      s.onlyRegs t [Reg.BUF_SCRUB_PERIOD.base, Reg.BUF_STATUS_SCRUB_PAUSED.base, 0x10008, 0x10010] := by
  have hr := oneWord_scrub
  generalize hstored : s.start.storeReg req (onceRef scrubDesc) scrubDesc.base w.toNat = e
  have honly : s.start.RegsOnly e := hstored ▸ Dev.regsOnly_storeReg _ _ _ _ _
  have hreg (a : Nat) (ha : a ≠ Reg.BUF_SCRUB_PERIOD.base) (hc : a ≠ 0x10008) (hl : a ≠ 0x10010) : e.reg a = s.dev.reg a :=
    hstored ▸ Dev.reg_storeReg_other _ _ _ _ _ _ ha hc hl
  have hperiod : e.g Reg.BUF_SCRUB_PERIOD = w.toNat % 256 := by
    have hbits := hr.bits_storeReg (d := s.start) (req := req) (f := ⟨7, 0, .rw, .live, 24, .cold⟩) (by decide) w.toNat hc.2 (by decide)
    rw [hstored] at hbits
    rw [Dev.g_eq_bits]
    exact hbits.trans (Nat.mod_mod _ _)
  have hdumping : e.on Reg.VLT_STATUS_DUMPING = s.dev.on Reg.VLT_STATUS_DUMPING := by
    rw [Dev.on, Dev.g_eq_of_reg_eq (hreg Reg.VLT_STATUS_DUMPING.base (by decide) (by decide) (by decide)), Dev.on]
  have hcommit : s.start.commitReg req (onceRef scrubDesc) scrubDesc.base w.toNat =
      e.p Reg.BUF_STATUS_SCRUB_PAUSED (bit (s.dev.on Reg.VLT_STATUS_DUMPING || w.toNat % 256 == 0)) := by
    rw [hr.commitReg_ref (d := s.start) _ hc.2 (by decide), hstored, ← hdumping, ← hperiod]
    rfl
  have honlyAll := honly.trans (e.regsOnly_p Reg.BUF_STATUS_SCRUB_PAUSED (bit (s.dev.on Reg.VLT_STATUS_DUMPING || w.toNat % 256 == 0)))
  refine hr.runs_write hc rfl (by rw [hcommit, honlyAll.emitted_eq]; rfl) ?_
  rw [hcommit]
  refine ⟨?_, ?_, State.onlyRegs_of_regsOnly honlyAll fun a ha => ?_⟩
  · exact (Dev.g_p_other _ _ _ _ (by decide)).trans hperiod
  · simp only [Dev.on, Dev.g_p_same _ _ _ fldOk_scrubPaused]
    cases s.dev.g Reg.VLT_STATUS_DUMPING != 0 || w.toNat % 256 == 0 <;> rfl
  · simp only [List.mem_cons, List.not_mem_nil, or_false, not_or] at ha
    obtain ⟨hs, hp, hc, hl⟩ := ha
    exact (Dev.reg_p_other _ _ _ _ hp).trans (hreg a hs hc hl)

section
variable {d : Dev} {req : Requester} (w : Nat)

/-- A stored MBX_CMD leaves the mailbox's status. -/
theorem storeReg_mbxCmd_status (f : Fld) (hf : f.base = Reg.MBX_STATUS_BUSY.base) :
    (d.storeReg req (onceRef mbxCmdDesc) mbxCmdDesc.base w).g f = d.g f :=
  Dev.g_eq_of_reg_eq (Dev.reg_storeReg_other _ _ _ _ _ _ (by rw [hf]; decide) (by rw [hf]; decide) (by rw [hf]; decide))

/-- A stored MBX_CMD holds the opcode and the length written, while no command runs. -/
theorem storeReg_mbxCmd_field (hc : d.writesGlobal req = true) (hidle : d.on Reg.MBX_STATUS_BUSY = false) (hi lo : Nat)
    (hmem : (⟨hi, lo, .rw, .frozen, 0, .warm⟩ : FieldDesc) ∈ mbxCmdDesc.fields) :
    ((d.storeReg req (onceRef mbxCmdDesc) mbxCmdDesc.base w).reg mbxCmdDesc.base).bits hi lo = bitsOf w hi lo := by
  have hfree : d.regEnabled (onceRef mbxCmdDesc) = false := hidle
  have hbits := oneWord_mbxCmd.bits_storeReg (d := d) (req := req) hmem w hc (by decide)
  rw [hfree] at hbits
  exact hbits.trans (bitsOf_mod_width _ _ _)

/-- A write of MBX_CMD with GO, while the core runs and no command does, starts what was stored. -/
theorem commitReg_mbxCmd_go (hc : d.writesGlobal req = true) (hup : d.mgmtUp = true) (hidle : d.on Reg.MBX_STATUS_BUSY = false)
    (hgo : w.testBit 31 = true) :
    d.commitReg req (onceRef mbxCmdDesc) mbxCmdDesc.base w = (d.storeReg req (onceRef mbxCmdDesc) mbxCmdDesc.base w).mbxGo := by
  have hfree : d.regEnabled (onceRef mbxCmdDesc) = false := hidle
  have hstillUp : (d.storeReg req (onceRef mbxCmdDesc) mbxCmdDesc.base w).mgmtUp = true := by
    rw [Dev.mgmtUp, Dev.on, Dev.on, storeReg_mbxCmd_status w Reg.MBX_STATUS_CORE_UP rfl, storeReg_mbxCmd_status w Reg.MBX_STATUS_RECOVERY rfl]
    exact hup
  have hgoBit : fieldOf Reg.MBX_CMD_GO w = 1 := by
    rw [Nat.testBit_eq_decide_div_mod_eq, decide_eq_true_iff] at hgo
    rw [fieldOf, bitsOf, Nat.shiftRight_eq_div_pow]
    exact hgo
  rw [Dev.commitReg_eq, if_pos (oneWord_mbxCmd.mayWrite_ref hc), if_pos ⟨rfl, by rw [hfree]; rfl, hstillUp, hgoBit⟩]

end

/-- A write of MBX_CMD with GO while no command runs sets the command's fields and starts it, or ends it where its opcode is not allowed. -/
theorem runs_write_mbxGo {s : State} {req : Requester} {w : Word} (hc : s.dev.commands req) (hup : s.dev.mgmtUp = true)
    (hidle : s.dev.on Reg.MBX_STATUS_BUSY = false) (hgo : w.toNat.testBit 31 = true) :
    Runs (.registerWrite req Reg.MBX_CMD_GO.base w) s fun t =>
      t.dev.g Reg.MBX_CMD_OPCODE = bitsOf w.toNat 23 16 ∧ t.dev.g Reg.MBX_CMD_LEN = bitsOf w.toNat 12 0 ∧
      (s.dev.mbxAllowed (bitsOf w.toNat 23 16) = true → bitsOf w.toNat 12 0 ≤ 4096 → t.dev.on Reg.MBX_STATUS_BUSY = true) ∧
      (s.dev.mbxAllowed (bitsOf w.toNat 23 16) = false → t.dev.on Reg.MBX_STATUS_BUSY = false ∧
        t.dev.on Reg.MBX_STATUS_DONE = true ∧ t.dev.g Reg.MBX_STATUS_STATUS = 1) ∧
      t.dev.mgmt = s.dev.mgmt ∧ s.memKept t := by
  have hcommit := commitReg_mbxCmd_go w.toNat (d := s.start) hc.2 hup hidle hgo
  have hfield := storeReg_mbxCmd_field w.toNat (d := s.start) hc.2 hidle
  have honly := s.start.regsOnly_storeReg req (onceRef mbxCmdDesc) mbxCmdDesc.base w.toNat
  have hrecovery := storeReg_mbxCmd_status (d := s.start) (req := req) w.toNat Reg.MBX_STATUS_RECOVERY rfl
  generalize s.start.storeReg req (onceRef mbxCmdDesc) mbxCmdDesc.base w.toNat = e at hcommit hfield honly hrecovery
  have hop : e.g Reg.MBX_CMD_OPCODE = bitsOf w.toNat 23 16 := (e.g_eq_bits _).trans (hfield 23 16 (by decide))
  have hlen : e.g Reg.MBX_CMD_LEN = bitsOf w.toNat 12 0 := (e.g_eq_bits _).trans (hfield 12 0 (by decide))
  have hallowed : e.mbxAllowed (e.g Reg.MBX_CMD_OPCODE) = s.dev.mbxAllowed (bitsOf w.toNat 23 16) := by
    rw [hop]
    exact Dev.mbxAllowed_congr _ hrecovery
  have hcmd (f : Fld) (hf : f.base = Reg.MBX_CMD_GO.base) : e.mbxGo.g f = e.g f :=
    Dev.g_eq_of_reg_eq (Dev.mbxGo_reg _ _ (by rw [hf]; decide) (by rw [hf]; decide))
  refine oneWord_mbxCmd.runs_write hc rfl (by rw [hcommit]; exact e.mbxGo_plain (by rw [honly.emitted_eq]; rfl)) ?_
  rw [hcommit]
  refine ⟨(hcmd Reg.MBX_CMD_OPCODE rfl).trans hop, (hcmd Reg.MBX_CMD_LEN rfl).trans hlen, fun ha hl => ?_, fun ha => ?_,
    e.mbxGo_mgmt.trans honly.mgmt_eq, fun _ => rfl⟩
  · exact e.mbxGo_busy (hallowed.trans ha) (hlen ▸ hl)
  · exact e.mbxGo_ended (hallowed.trans ha)

/-! ### Writes field by field -/

/-- A write of a 32-bit register that does nothing else gives it its next value and leaves everything else, but that it may be counted and
wakes the cluster of a channel's register (R18, R368). -/
theorem runs_write_quiet {s : State} {req : Requester} {off : Nat} {w : Word} {r : RegRef} (hreach : s.dev.reachesAt req off = true)
    (halign : off % 4 = 0) (hplace : placeOf req off = .reg r false) (hw : r.desc.width ≠ 64) (hn : r.home ≠ 0x10008)
    (hdb : r.desc.base < 0x100000 ∨ 0x101400 ≤ r.desc.base) (hb : r.desc.base ≠ Reg.MBX_CMD_GO.base)
    (hact : ∀ (d : Dev) (old w : Nat), d.regAct req r old w = d) {d : Dev} (hd : d = s.start.chnTouched r) :
    Runs (.registerWrite req off w) s fun t =>
      t.dev.reg r.home = BitVec.ofNat 64 (d.regNext r (d.regEnabled r) (d.regMay req r) (d.reg r.home).toNat w.toNat) ∧
      (∀ a, a ≠ r.home → a ≠ 0x10008 → a ≠ 0x10010 → t.dev.reg a = s.dev.reg a) ∧
      t.dev = { d with regs := t.dev.regs } ∧ t.mem = s.mem ∧ t.pending = s.pending := by
  have hl := home_ne_lastIgnored req off r (regRef_of_placeOf req off r false hplace).1 hw
  have hwrite : s.start.busWrite req off w = d.storeReg req r off w.toNat := by
    rw [s.start.busWrite_word req off w r hreach halign hplace hw hdb, Dev.commitReg_of_quiet _ _ _ _ _ hb fun e => hact e _ _, hd]
  have honly := d.regsOnly_storeReg req r off w.toNat
  have hplain : (s.start.busWrite req off w).emitted.all Emit.plain = true := by
    rw [hwrite, honly.emitted_eq, hd, Dev.chnTouched_emitted]
    rfl
  refine runs_of_plain (f := fun e => e.busWrite req off w) rfl hplain ?_
  dsimp only
  rw [hwrite]
  refine ⟨d.reg_storeReg_home req r off w.toNat hn hl, fun a ha hc hl => ?_, honly, rfl, rfl⟩
  rw [Dev.reg_storeReg_other _ _ _ _ _ _ ha hc hl, hd, Dev.chnTouched_reg, State.start_reg]

/-- Settles O8: fields of one register share no bit, so each ends with what its own write gives; a write is the change of its register, a
violation counted before it, and then the register's own action. -/
theorem writeIsFieldByField : Obligations.WriteIsFieldByField := by
  unfold Obligations.WriteIsFieldByField
  refine ⟨fun r hr enabled may clearing old w => ?_, ?_, fun s req w hc => ⟨?_, ?_, ?_, ?_⟩⟩
  · exact ⟨fun f hf => r.bitsOf_written enabled may clearing old w f (regTable_fieldsOk r hr) hf,
      fun i hi => r.testBit_written_outside enabled may clearing old w i (regTable_fieldsOk r hr) hi⟩
  · intro s req off w r hreach halign hplace hw hn hdb hb hact
    exact runs_write_quiet hreach halign hplace hw hn hdb hb hact rfl
  · obtain ⟨t, ht, hpins, hsent, honly⟩ := runs_write_gpio oneWord_gpioOut wholeWord_gpioOut (.inl rfl) (w := w) hc
    have hout : t.dev.g Reg.MBR_GPIO_OUT_PINS = w.toNat := (t.dev.g_eq_bits _).trans hpins
    rw [hout, honly.g_eq Reg.MBR_GPIO_OE_PINS (by decide)] at hsent
    exact ⟨t, ht, hout, hsent, honly⟩
  · obtain ⟨t, ht, hpins, hsent, honly⟩ := runs_write_gpio oneWord_gpioOe wholeWord_gpioOe (.inr rfl) (w := w) hc
    have hoe : t.dev.g Reg.MBR_GPIO_OE_PINS = w.toNat := (t.dev.g_eq_bits _).trans hpins
    rw [hoe, honly.g_eq Reg.MBR_GPIO_OUT_PINS (by decide)] at hsent
    exact ⟨t, ht, hoe, hsent, honly⟩
  · exact runs_write_scrub hc
  · exact fun hup hidle hgo => runs_write_mbxGo hc hup hidle hgo

end Machine

end Sys2Proof
end

section
/-!
PROOFS. The armature engine (chapter 3): how the plinth write of a commit ends.
-/
namespace Sys2Proof.Machine

/-- A command that sends one vault access and nothing else: the device after its operation with the NAND dies powered, and buffer memory's host
area as it was (R716). -/
theorem runs_of_vault {c : Instr} {s : State} {f : Dev → Dev} {P : State → Prop} {what : String} {n : Nat} (hc : exec c s = lift s f)
    (hsent : (f s.start).emitted = [.vault what n])
    (h : P { s with dev := { f s.start with vlt := { (f s.start).vlt with nandOff := false } } }) : Runs c s P := by
  have hdev : runDev f s.dev = { f s.start with vlt := { (f s.start).vlt with nandOff := false } } :=
    if_pos (show (f s.start).emitted.any Emit.isVault = true by rw [hsent]; rfl)
  refine ⟨_, hc.trans (lift_next s f), ?_⟩
  have hstate : runState s f = { s with dev := runDev f s.dev } := by
    rw [runState, hdev]
    dsimp only
    rw [hsent]
    rfl
  rw [hstate, hdev]
  exact h

/-! ### The end of a commit that leaves the maquette STAGED -/

theorem fldOk_armErrorCode : FldOk Reg.ARM_ERROR_CODE := ⟨by decide, by decide⟩
theorem fldOk_armErrorQualifier : FldOk Reg.ARM_ERROR_QUALIFIER := ⟨by decide, by decide⟩
theorem fldOk_armErrorSection : FldOk Reg.ARM_ERROR_SECTION := ⟨by decide, by decide⟩
theorem fldOk_armMaqState : FldOk Reg.ARM_STATUS_MAQ_STATE := ⟨by decide, by decide⟩
theorem fldOk_armDone : FldOk Reg.ARM_STATUS_DONE := ⟨by decide, by decide⟩

theorem Dev.regsOnly_armError (d : Dev) (e : ArmErr) : d.RegsOnly (d.armError e) :=
  (((d.regsOnly_p _ _).trans (Dev.regsOnly_p _ _ _)).trans (Dev.regsOnly_p _ _ _)).trans (Dev.regsOnly_p _ _ _)

/-- A failed check's code stands in ARM_ERROR. -/
theorem Dev.armError_code (d : Dev) (e : ArmErr) : (d.armError e).g Reg.ARM_ERROR_CODE = e.code % 2 ^ 16 := by
  rw [Dev.armError, Dev.g_p_other _ _ _ _ (by decide),
    Dev.g_p_apart _ _ _ _ fldOk_armErrorSection fldOk_armErrorCode rfl (by decide),
    Dev.g_p_apart _ _ _ _ fldOk_armErrorQualifier fldOk_armErrorCode rfl (by decide), Dev.g_p_same _ _ _ fldOk_armErrorCode]
  rfl

/-- A failed check is recorded in ARM_ERROR and ARM_ERROR_OFFSET alone. -/
theorem Dev.armError_reg (d : Dev) (e : ArmErr) (a : Nat) (hc : a ≠ Reg.ARM_ERROR_CODE.base) (ho : a ≠ Reg.ARM_ERROR_OFFSET_OFFSET.base) :
    (d.armError e).reg a = d.reg a := by
  rw [Dev.armError, Dev.reg_p_other _ _ _ _ ho, Dev.reg_p_other _ Reg.ARM_ERROR_SECTION _ _ hc,
    Dev.reg_p_other _ Reg.ARM_ERROR_QUALIFIER _ _ hc, Dev.reg_p_other _ _ _ _ hc]

/-- A commit that goes back to STAGED changes registers and the commit's stage alone. -/
theorem Dev.regsOnly_commitBack (d : Dev) (code : Nat) :
    Dev.RegsOnly { d with arm := { d.arm with commitStage := 0 } } (d.commitBack code) :=
  ((Dev.regsOnly_armError _ _).trans (Dev.regsOnly_p _ _ _)).trans (Dev.regsOnly_p _ _ _)

theorem Dev.commitBack_emitted (d : Dev) (code : Nat) : (d.commitBack code).emitted = d.emitted := (d.regsOnly_commitBack code).emitted_eq

theorem Dev.commitBack_arm (d : Dev) (code : Nat) : (d.commitBack code).arm = { d.arm with commitStage := 0 } := by
  rw [d.regsOnly_commitBack code]

/-- ARM_ERROR holds the code with which a commit went back. -/
theorem Dev.commitBack_code (d : Dev) (code : Nat) : (d.commitBack code).g Reg.ARM_ERROR_CODE = code % 2 ^ 16 := by
  rw [Dev.commitBack, Dev.g_p_other _ _ _ _ (by decide), Dev.g_p_other _ _ _ _ (by decide), Dev.armError_code]
  rfl

/-- A commit that goes back leaves MAQ_STATE STAGED. -/
theorem Dev.commitBack_maq (d : Dev) (code : Nat) : (d.commitBack code).maq = 3 := by
  rw [Dev.maq, Dev.commitBack, Dev.g_p_apart _ _ _ _ fldOk_armDone fldOk_armMaqState rfl (by decide), Dev.g_p_same _ _ _ fldOk_armMaqState]
  rfl

theorem Dev.commitBack_done (d : Dev) (code : Nat) : (d.commitBack code).g Reg.ARM_STATUS_DONE = 1 := by
  rw [Dev.commitBack, Dev.g_p_same _ _ _ fldOk_armDone]
  rfl

/-- A commit that goes back leaves every register but ARM_STATUS and the two of the error. -/
theorem Dev.commitBack_reg (d : Dev) (code a : Nat) (hs : a ≠ Reg.ARM_STATUS_DONE.base) (hc : a ≠ Reg.ARM_ERROR_CODE.base)
    (ho : a ≠ Reg.ARM_ERROR_OFFSET_OFFSET.base) : (d.commitBack code).reg a = d.reg a := by
  rw [Dev.commitBack, Dev.reg_p_other _ _ _ _ hs, Dev.reg_p_other _ Reg.ARM_STATUS_MAQ_STATE _ _ hs, Dev.armError_reg _ _ _ hc ho]
  rfl

/-! ### The end of a commit's plinth write -/

/-- While a commit waits for its plinth write, fewer than two copies, or else a failed vault write, take it back; otherwise the commit record
is written (R136, R137). -/
theorem Dev.armPlinthWritten_waiting {d : Dev} {a : Armature} (acks : Nat) (vaultOk : Bool) (hmaq : d.arm.maquette = some a)
    (hstate : d.maq = 5) (hstage : d.arm.commitStage = 2) :
    d.armPlinthWritten acks vaultOk =
      if acks < 2 then d.commitBack 0x0C01
      else if vaultOk = false then d.commitBack 0x0C02
      else Dev.emit { d with arm := { d.arm with commitStage := 3 } } (.vault "armature" a.epoch) := by
  cases vaultOk <;> simp [Dev.armPlinthWritten, hmaq, hstate, hstage]

/-- A plinth write's end that takes the commit back leaves its code, STAGED, DONE, the maquette and the active epoch. -/
theorem runs_commitBack {s : State} {acks : Nat} {vaultOk : Bool} {code : Nat}
    (hback : s.start.armPlinthWritten acks vaultOk = s.start.commitBack code) :
    Runs (.armPlinthWritten acks vaultOk) s fun t =>
      t.dev.g Reg.ARM_ERROR_CODE = code % 2 ^ 16 ∧ t.dev.maq = 3 ∧ t.dev.g Reg.ARM_STATUS_DONE = 1 ∧
      t.dev.arm = { s.dev.arm with commitStage := 0 } ∧ t.dev.g Reg.ARM_EPOCH_ACTIVE_EPOCH = s.dev.g Reg.ARM_EPOCH_ACTIVE_EPOCH := by
  refine runs_of_plain (f := fun d => d.armPlinthWritten acks vaultOk) rfl (by rw [hback, Dev.commitBack_emitted]; rfl) ?_
  rw [hback]
  exact ⟨Dev.commitBack_code _ _, Dev.commitBack_maq _ _, Dev.commitBack_done _ _, Dev.commitBack_arm _ _,
    Dev.g_eq_of_reg_eq (Dev.commitBack_reg _ _ _ (by decide) (by decide) (by decide))⟩

/-- Settles O16: the two endings take the commit back by one lemma; the third sends the vault access of the commit record. -/
theorem armPlinthWriteEnds : Obligations.ArmPlinthWriteEnds := by
  unfold Obligations.ArmPlinthWriteEnds
  intro s a acks vaultOk hmaq hstate hstage
  have hend := Dev.armPlinthWritten_waiting (d := s.start) acks vaultOk hmaq hstate hstage
  refine ⟨fun hfew => ?_, fun henough hvault => ?_, fun henough hvault => ?_⟩
  · exact runs_commitBack (hend.trans (if_pos hfew))
  · exact runs_commitBack ((hend.trans (if_neg (Nat.not_lt.mpr henough))).trans (if_pos hvault))
  · rw [if_neg (Nat.not_lt.mpr henough), if_neg (by simp [hvault])] at hend
    refine runs_of_vault (f := fun d => d.armPlinthWritten acks vaultOk) (what := "armature") (n := a.epoch) rfl (by rw [hend]; rfl) ?_
    rw [hend]
    exact ⟨hstate, rfl, rfl⟩

end Sys2Proof.Machine
end
